-- ==== Sys2Proof/Word.lean ====
section
/-!
DEFINITION. The words of the device and their plainest arithmetic. Everything that decides a value of the model (bit
fields, byte order, rounding) is in Machine/, where it can be mended.
-/

namespace Sys2Proof

/-- One byte of any memory (R10). -/
abbrev Byte := BitVec 8

/-- A 32-bit register, ACM entry, state word or configuration tag. -/
abbrev Word32 := BitVec 32

/-- A 64-bit register, sync counter or operand address (R217). -/
abbrev Word64 := BitVec 64

/-- One facet row image: bit b is bit-column b (R16). -/
abbrev RowImage := BitVec 128

/-- A device-wide core index c = 512·d + 64·k + j (R2). -/
abbrev CoreId := BitVec 11

/-- A facet number F0 to F31 (R3). -/
abbrev FacetId := BitVec 5

/-- A submission ring, and its completion ring, 0 to 31 (R255). -/
abbrev RingId := BitVec 5

/-- A 12-bit device number x + 16·y + 256·z (R6). -/
abbrev DevNum := BitVec 12

/-- A Narnos port P0 to P5 (R5). -/
abbrev PortId := Fin 6

/-- A device-wide cluster index 8·d + k (R2). -/
abbrev ClusterId := BitVec 5

/-- A compute die C0 to C3 (R2). -/
abbrev DieId := BitVec 2

end Sys2Proof
end

