-- ==== Sys2Proof/Syntax.lean ====
section
/-!
DEFINITION. The commands of the block: one constructor of Instr for each row of spec/opcode_table.json, with the operands
that the spec gives the row. Tile commands carry the core whose sequencer issues them, their header (R297) and the
fields of their map (R302) at the widths of that map; rows that are events of the device carry what the world outside
the device brings to them (a reading, the outcome of a physical test, the fields of a received message).
-/

namespace Sys2Proof

/-- How a 64-bit register is read: whole, or one 32-bit half (R59). -/
inductive ReadWidth where
  | whole | low | high
deriving DecidableEq, Repr

/-- The tile command header (R297), with the record index prm of R298 and whether any reserved bit of the command or of
its records is 1. -/
structure Hdr where
  commit : Bool
  serial : Bool
  satFp : Bool
  indexed : Bool
  prmN : BitVec 2
  reserved : Bool
  seq : BitVec 16
  prm : BitVec 16
deriving DecidableEq, Repr

/-- FLOAD (R41 to R45, R302). -/
structure FloadArgs where
  facet : FacetId
  fmt : BitVec 4
  rowFirst : BitVec 10
  rowCount : BitVec 11
  zeroRest : Bool
  retain : Bool
  src : Word64
  pitch : BitVec 20
  blk : BitVec 2
  stag : BitVec 2
  scale : Word64
deriving DecidableEq, Repr

/-- FIRE and FIRET (R20 to R37, R143, R302); nColsM1 is FIRET's. -/
structure FireArgs where
  facet : FacetId
  afmt : BitVec 4
  kRows : BitVec 11
  m : BitVec 10
  mValid : BitVec 10
  acmRow : BitVec 9
  expSel : Bool
  exp : BitVec 10
  vtag : BitVec 2
  vec : BitVec 13
  vpitch : BitVec 13
  zpRef : BitVec 8
  ref : Word64
  refPitch : BitVec 20
  refFmt : BitVec 4
  nColsM1 : BitVec 6
deriving DecidableEq, Repr

/-- ACMINIT (R64, R302). -/
structure AcminitArgs where
  acmRow : BitVec 9
  count : BitVec 10
  mode : BitVec 2
  policy : BitVec 2
  init : Word32
deriving DecidableEq, Repr

/-- ACMOUT (R76, R90, R102, R104, R108, R199, R302), with its parameter record. -/
structure AcmoutArgs where
  acmRow : BitVec 9
  m : BitVec 10
  mValid : BitVec 10
  rpvM1 : BitVec 4
  nValidM1 : BitVec 10
  ofmt : BitVec 4
  var : Bool
  dst : Word64
  opitch : BitVec 20
  kIn : BitVec 10
  slot : BitVec 10
  slotEn : Bool
  zp : BitVec 8
  dtag : BitVec 2
  bs : BitVec 3
  bsMode : Bool
  axis : Bool
  inSlot : BitVec 10
  inSlotEn : Bool
  scale : Word64
  scalePitch : BitVec 20
deriving DecidableEq, Repr

/-- REFMM (R132 to R135, R302). -/
structure RefmmArgs where
  a : Word64
  afmt : BitVec 4
  bfmt : BitVec 4
  apitch : BitVec 20
  atrans : Bool
  btrans : Bool
  mM1 : BitVec 10
  nM1 : BitVec 10
  kM1 : BitVec 13
  acmRow : BitVec 9
  kRef : BitVec 10
  atag : BitVec 2
  btag : BitVec 2
  b : Word64
  bpitch : BitVec 20
deriving DecidableEq, Repr

/-- REFEW (R136 to R139, R302). -/
structure RefewArgs where
  op : BitVec 5
  nM1 : BitVec 21
  fmtA : BitVec 4
  fmtB : BitVec 4
  fmtC : BitVec 4
  fmtO : BitVec 4
  imm : BitVec 10
  slot : BitVec 10
  zp : BitVec 8
  tagA : BitVec 2
  tagB : BitVec 2
  tagC : BitVec 2
  tagO : BitVec 2
  bBcast : Bool
  cBcast : Bool
  a : Word64
  out : Word64
  b : Word64
  c : Word64
deriving DecidableEq, Repr

/-- REDUCE (R140 to R142, R302). -/
structure ReduceArgs where
  mode : BitVec 3
  sfmt : BitVec 4
  rM1 : BitVec 13
  nM1 : BitVec 21
  acmRow : BitVec 9
  ofmt : BitVec 4
  stag : BitVec 2
  otag : BitVec 2
  src : Word64
  lpitch : BitVec 32
  out : Word64
deriving DecidableEq, Repr

/-- TRANSIT (R91 to R93, R302). -/
structure TransitArgs where
  chain : BitVec 16
  role : BitVec 2
  remote : Bool
  succCore : CoreId
  succDev : DevNum
  acmRow : BitVec 9
  rowsM1 : BitVec 4
  tseq : Word32
deriving DecidableEq, Repr

/-- MOVE in every mode (R194 to R196, R243 to R245, R302), with the fields of its records. -/
structure MoveArgs where
  esize : BitVec 3
  stag : BitVec 2
  dtag : BitVec 2
  fmt : BitVec 4
  pad : BitVec 2
  src : Word64
  dst : Word64
  n0 : BitVec 21
  n1 : BitVec 16
  n2 : BitVec 16
  zp : BitVec 8
  bs : BitVec 3
  srcS1 : BitVec 40
  srcS2 : BitVec 40
  dstS1 : BitVec 40
  dstS2 : BitVec 40
  vL : BitVec 16
  vE : BitVec 21
  scale : Word64
  scalePitch : BitVec 20
  bsMode : Bool
  axis : Bool
  sfmt : BitVec 4
deriving DecidableEq, Repr

/-- GATHER in mode EMB (R164 to R173, R302). -/
structure GatherEmbArgs where
  ifmt64 : Bool
  formOffsets : Bool
  pool : BitVec 2
  wfmt : BitVec 2
  ofmt : BitVec 4
  nIdxM1 : BitVec 21
  nBagsM1 : BitVec 17
  lbM1 : BitVec 11
  opitch : BitVec 20
  tdesc : Word64
  idx : Word64
  offsets : Word64
  weights : Word64
  out : Word64
deriving DecidableEq, Repr

/-- GATHER in mode SPT (R180 to R187, R302). -/
structure GatherSptArgs where
  afmt : BitVec 4
  mM1 : BitVec 6
  acmRow : BitVec 9
  expSel : Bool
  exp : BitVec 10
  vtag : BitVec 2
  vpitch : BitVec 13
  tile : Word64
  vec : Word64
deriving DecidableEq, Repr

/-- UPDATE (R174 to R179, R302). -/
structure UpdateArgs where
  formRange : Bool
  ifmt64 : Bool
  opSet : Bool
  rndSr : Bool
  dfmt : BitVec 2
  dpitch : BitVec 20
  alpha : Word32
  tdesc : Word64
  delta : Word64
  idx : Word64
  countM1 : BitVec 16
  seed : Word32
  step : BitVec 24
deriving DecidableEq, Repr

/-- SYNC (R304 to R316, R302): one structure for the eight operations. -/
structure SyncArgs where
  counter : BitVec 13
  remote : Bool
  dev : DevNum
  fetch : Bool
  postMem : Bool
  res : BitVec 19
  operand : Word64
  compare : Word64
deriving DecidableEq, Repr

/-- CLAIM (R310 to R312, R302). -/
structure ClaimArgs where
  counter : BitVec 13
  bm : BitVec 7
  resEn : Bool
  skip : BitVec 16
  limit : Word32
  index : Word32
  sRd : Word32
  sWr : Word32
  res : BitVec 19
deriving DecidableEq, Repr

/-- The counter condition of WAIT and BALLAST UNTIL (R302, R307). -/
structure WaitArgs where
  counter : BitVec 13
  cond : BitVec 2
  value : Word64
deriving DecidableEq, Repr

/-- EXPO (R119 to R122, R302). -/
structure ExpoArgs where
  first : BitVec 10
  count : BitVec 11
  tag : BitVec 2
  addr : Word64
deriving DecidableEq, Repr

/-- What BALLAST makes the core's engines do (R419). -/
structure BallastArgs where
  level : BitVec 4
  facets : Bool
  refractor : Bool
deriving DecidableEq, Repr

/-- FENCE (R303). -/
structure FenceArgs where
  mask : BitVec 5
  vis : Bool
  remote : Bool
deriving DecidableEq, Repr

/-- TASK (R219). -/
structure TaskArgs where
  space : BitVec 2
  base : Word64
  bound : Word64
deriving DecidableEq, Repr

/-- WINDOW OPEN (R246). -/
structure WindowArgs where
  window : BitVec 6
  stacked : Bool
  rd : Bool
  wr : Bool
  rdev : DevNum
  base : Word64
  size : Word64
deriving DecidableEq, Repr

/-- The routed part of a message header (R354), and the port it came in by (none: the device itself, R363). -/
structure MsgHdr where
  inPort : Option PortId
  dl : Bool
  dst : DevNum
  src : DevNum
  txn : BitVec 16
  tag : Word32
deriving DecidableEq, Repr

/-- The fields of a SYNC message (R356). -/
structure SyncMsg where
  op : BitVec 4
  counter : BitVec 13
  fetch : Bool
  replayable : Bool
  replays : BitVec 2
  operand : Word64
  compare : Word64
  job : BitVec 24
  core : CoreId
  seq : BitVec 16
deriving DecidableEq, Repr

/-- One tile row as it travels: its state word and its 64 entries (R60, R356). -/
structure TileRow where
  word : Word32
  entries : List Word32
deriving DecidableEq, Repr

/-- The fields of a TRANSIT message (R356). -/
structure TransitMsg where
  chain : BitVec 16
  core : BitVec 12
  tseq : Word32
  rows : List TileRow
deriving DecidableEq, Repr

/-- What a message carries beside its header (R355, R356). -/
inductive Payload where
  | wr (stacked : Bool) (addr : BitVec 48) (data : List Byte)
  | rd (stacked : Bool) (addr : BitVec 48) (count : BitVec 13)
  | sync (m : SyncMsg)
  | transit (m : TransitMsg)
  | jobend (job : BitVec 24)
  | mgmt (body : List Byte)
  | rsp (status : BitVec 4) (data : List Byte)
  | bad (type : BitVec 4) (request : Bool)
deriving DecidableEq, Repr

/-- One entry of the BEAT member table (R376). -/
structure PoolEntry where
  demand : BitVec 12
  grant : BitVec 12
  lateness : BitVec 8
  age : BitVec 8
  valid : Bool
deriving DecidableEq, Repr

/-- The BEAT extension (R376). -/
structure BeatMsg where
  number : Word32
  period : BitVec 14
  timeState : BitVec 2
  depth : BitVec 5
  bound : BitVec 8
  time : Word64
  epoch : Word32
  staged : Word32
  armTime : Word64
  digest : BitVec 256
  stagedTag : Word32
  pool : BitVec 16
  member : BitVec 4
  membersM1 : BitVec 4
  onFloor : Bool
  entries : List PoolEntry
  budget : BitVec 16
deriving DecidableEq, Repr

/-- The spec field and timestamp of a TIME message (R372): times in units of 2^-8 ns. -/
structure TimeMsg where
  a : BitVec 72
  depth : BitVec 5
  locked : Bool
  bound : BitVec 8
  exchange : BitVec 16
deriving DecidableEq, Repr

/-- A received data flit (R347): its fields, its payload, and whether its check and its codewords were good (R349). Bytes that
the payload lacks of 244 are pad words. -/
structure DataFlit where
  seq : BitVec 10
  ack : BitVec 10
  nak : Bool
  cvc : BitVec 2
  ccount : BitVec 6
  payload : List Byte
  crcOk : Bool
  fecOk : Bool
deriving DecidableEq, Repr

/-- What HELLO carries (R345, R350, R352). -/
structure HelloMsg where
  dev : DevNum
  lanes : BitVec 4
  lastSeq : BitVec 16
deriving DecidableEq, Repr

/-- The counts of one lane over one 1 ms window (R351). -/
structure LaneCount where
  corrected : Nat
  uncorrectable : Nat
deriving DecidableEq, Repr

/-- Sources of a FATAL fault (R338). -/
inductive FatalSource where
  | alwaysOn | uaridLockstep | uaridWatchdog | heliostatLockstep | telemetryLost | dieInterface | stackLoss
  | thermalTrip | input
deriving DecidableEq, Repr

/-- PRG Response codes (R335). -/
inductive PrgCode where
  | success | invalidRequest | responseFailure
deriving DecidableEq, Repr

/-- The readings of one THERMAL_READ, in °C (R421): 24 junctions of each compute die, 8 of the base die, 6 stacks. -/
structure ThermalReadings where
  dies : List (List Nat)
  base : List Nat
  stackTemps : List Nat
deriving DecidableEq, Repr

/-- What a FACET slice measured: for each phase 1 to 7, whether its first run and, after a failure, its repeat passed
(R435 to R439), and the row or column at which the failure stood. -/
structure FacetSliceResult where
  firstFail : Option (BitVec 3)
  repeatFails : Bool
  at_ : BitVec 10
  waited : Nat
deriving DecidableEq, Repr

/-- What a CLUSTER slice measured (R442). -/
structure ClusterSliceResult where
  pllOk : Bool
  droopOk : Bool
  measured : Nat
deriving DecidableEq, Repr

/-- What a CURRENT slice measured (R414, R442, R445); abandoned when E > 0 came about during it. -/
structure CurrentSliceResult where
  pass : Bool
  abandoned : Bool
  coefficients : List Nat
  measured : Nat
deriving DecidableEq, Repr

/-- The way a management request arrived (R464). -/
inductive MgmtPath where
  | mailbox | sideband | fabric (src : DevNum)
deriving DecidableEq, Repr

/-- A management request as the Uarid sees it (R465): session and counter of the header, the payload and the tag. -/
structure MgmtReq where
  path : MgmtPath
  session : BitVec 16
  counter : Word32
  payload : List Byte
  tag : List Byte
deriving DecidableEq, Repr

/-- The transport of an SPDM request (R463). -/
inductive SpdmPath where
  | doe | mctp
deriving DecidableEq, Repr

/-- Tamper detectors (R473). -/
inductive TamperSource where
  | heatsink | mesh | glitch | debug
deriving DecidableEq, Repr

/-- The commands of the DLM-2048, one constructor for each row of spec/opcode_table.json. -/
inductive Instr where
  -- tile commands
  | fload (c : CoreId) (h : Hdr) (f : FloadArgs)
  | fire (c : CoreId) (h : Hdr) (f : FireArgs)
  | firet (c : CoreId) (h : Hdr) (f : FireArgs)
  | acminit (c : CoreId) (h : Hdr) (f : AcminitArgs)
  | acmout (c : CoreId) (h : Hdr) (f : AcmoutArgs)
  | refmm (c : CoreId) (h : Hdr) (f : RefmmArgs)
  | refew (c : CoreId) (h : Hdr) (f : RefewArgs)
  | reduce (c : CoreId) (h : Hdr) (f : ReduceArgs)
  | transit (c : CoreId) (h : Hdr) (f : TransitArgs)
  | movePlain (c : CoreId) (h : Hdr) (f : MoveArgs)
  | moveTile (c : CoreId) (h : Hdr) (f : MoveArgs)
  | moveTranspose (c : CoreId) (h : Hdr) (f : MoveArgs)
  | moveCompress (c : CoreId) (h : Hdr) (f : MoveArgs)
  | moveExpand (c : CoreId) (h : Hdr) (f : MoveArgs)
  | gatherEmb (c : CoreId) (h : Hdr) (f : GatherEmbArgs)
  | gatherSpt (c : CoreId) (h : Hdr) (f : GatherSptArgs)
  | update (c : CoreId) (h : Hdr) (f : UpdateArgs)
  | syncAdd (c : CoreId) (h : Hdr) (f : SyncArgs)
  | syncSet (c : CoreId) (h : Hdr) (f : SyncArgs)
  | syncMax (c : CoreId) (h : Hdr) (f : SyncArgs)
  | syncMin (c : CoreId) (h : Hdr) (f : SyncArgs)
  | syncOr (c : CoreId) (h : Hdr) (f : SyncArgs)
  | syncAnd (c : CoreId) (h : Hdr) (f : SyncArgs)
  | syncCas (c : CoreId) (h : Hdr) (f : SyncArgs)
  | syncPost (c : CoreId) (h : Hdr) (f : SyncArgs)
  | claimNext (c : CoreId) (h : Hdr) (f : ClaimArgs)
  | claimExplicit (c : CoreId) (h : Hdr) (f : ClaimArgs)
  | wait (c : CoreId) (h : Hdr) (f : WaitArgs)
  | expoSave (c : CoreId) (h : Hdr) (f : ExpoArgs)
  | expoRestore (c : CoreId) (h : Hdr) (f : ExpoArgs)
  | expoClear (c : CoreId) (h : Hdr) (f : ExpoArgs)
  | phase (c : CoreId) (h : Hdr) (op : BitVec 3)
  | ballastFixed (c : CoreId) (h : Hdr) (f : BallastArgs) (cycles : BitVec 25)
  | ballastUntil (c : CoreId) (h : Hdr) (f : BallastArgs) (w : WaitArgs)
  | fence (c : CoreId) (h : Hdr) (f : FenceArgs)
  | task (c : CoreId) (h : Hdr) (f : TaskArgs)
  | windowOpen (c : CoreId) (h : Hdr) (f : WindowArgs)
  | windowClose (c : CoreId) (h : Hdr) (window : BitVec 6)
  | nop (c : CoreId) (h : Hdr)
  -- rings and jobs
  | sqTailDoorbell (ring : RingId) (tail : BitVec 16)
  | cqHeadDoorbell (ring : RingId) (head : BitVec 16)
  | descriptorFetch (ring : RingId) (readOk : Bool)
  | jobAdmit
  | jobComplete (job : Word32)
  | preempt (ring : RingId)
  | resume (job : Word32)
  | ringEnable (ring : RingId)
  | ringDisable (ring : RingId)
  | abort (ring : RingId)
  | eventRingEnable (en : Bool)
  | eventHeadRelease (head : BitVec 16)
  | hqEqLostRead (w : ReadWidth)
  | hqMboxRead (ring : RingId) (w : ReadWidth)
  | idleTimeoutNotice (ring : RingId)
  | msixUnmask (vector : Fin 33)
  -- facet care, parallax, replay, faults
  | scrubRead (c : CoreId)
  | facetRefill (c : CoreId) (facet : FacetId)
  | parallaxCheckDone (c : CoreId)
  | parallaxForce (c : CoreId)
  | rescaleRetry (c : CoreId)
  | replayStart (job : Word32)
  | watchdog (c : CoreId)
  | fatalFault (src : FatalSource)
  -- translation
  | pageResponse (group : BitVec 6) (failed : Bool)
  | prgResponse (group : BitVec 9) (code : PrgCode)
  | pageRequestTimeout (group : BitVec 6)
  | atsInvalidate (addr : Word64) (pages : Nat)
  | smcTlbInv
  | smcPhysDataRead (w : ReadWidth)
  | smcPhysDataWrite (v : Word64)
  -- shared memory
  | bar4Read (off : BitVec 28) (len : BitVec 13)
  | bar4Write (off : BitVec 28) (data : List Byte)
  | bankOffDecision (bank : Fin 60)
  | bankWakeDone (bank : Fin 60)
  -- counters and registers
  | synCtrWrite (counter : BitVec 13) (v : Word64)
  | synHostAdd (v : Word64)
  | counterHalfRead (off : BitVec 26)
  | cntClr (off : BitVec 26) (v : Word32)
  | registerWrite (off : BitVec 26) (size : Nat) (v : Word64)
  | perCoreAccessWake (off : BitVec 26) (size : Nat) (write : Option Word64)
  -- fabric messages
  | msgWr (h : MsgHdr) (stacked : Bool) (addr : BitVec 48) (data : List Byte)
  | msgRd (h : MsgHdr) (stacked : Bool) (addr : BitVec 48) (count : BitVec 13)
  | msgSync (h : MsgHdr) (m : SyncMsg)
  | msgTransit (h : MsgHdr) (m : TransitMsg)
  | msgJobend (h : MsgHdr) (job : BitVec 24)
  | msgMgmt (h : MsgHdr) (body : List Byte)
  | msgRsp (h : MsgHdr) (status : BitVec 4) (data : List Byte)
  | msgBeat (port : PortId) (m : BeatMsg)
  | timeSync (port : PortId) (m : TimeMsg)
  | timeDelayReq (port : PortId) (m : TimeMsg)
  | timeDelayRsp (port : PortId) (m : TimeMsg)
  | linkHello (port : PortId) (m : HelloMsg)
  | linkSlow (port : PortId)
  | linkFast (port : PortId)
  | linkWidth (port : PortId) (lanes : BitVec 4)
  | messageForward (h : MsgHdr) (len : BitVec 13) (p : Payload)
  | dataFlitReceive (port : PortId) (f : DataFlit)
  | flitNak (port : PortId) (ack : BitVec 10)
  | ackTimeout (port : PortId)
  | laneErrorWindow (port : PortId) (lanes : List LaneCount)
  | portTrain (port : PortId) (healthy : BitVec 4)
  | portRetry (port : PortId) (healthy : BitVec 4)
  | portRetrainRequest (port : PortId) (healthy : BitVec 4)
  | downLimitExpiry (port : PortId)
  | responseTimeout (txn : BitVec 16)
  | transitBusyRetry (txn : BitVec 16)
  | jobendResend (txn : BitVec 16)
  | xtFlush
  | beatSend
  | timeExchange
  | holdover
  -- configuration epochs and persistent registers
  | stageClear
  | stageValueWrite (v : Word64)
  | stage
  | arm
  | cancel
  | epochApply
  | epochRetire
  | directWrite (off : BitVec 26) (size : Nat) (v : Word64)
  | pregWrite (i : BitVec 6) (v : Word64)
  | pregProgramDone (i : BitVec 6)
  -- power and clocks
  /-- the bubbles in each 64 F-cycles that the Heliostat takes on each die where it must limit a rise of current (R418) -/
  | governTick (levels : List (BitVec 6))
  | governedPointStep
  /-- whether the window arrived, and the reading of each regulator in units of 0.25 W (R409, R415) -/
  | telemetryWindow (arrived : Bool) (readings : List Nat)
  | telemetryLost
  | recalRetry
  | opChange (cluster : ClusterId)
  | droopDetect (cluster : ClusterId)
  | droopHoldEnd (die : DieId)
  | droopPersist (die : DieId)
  | thermalRead (r : ThermalReadings)
  | thermalCapStep
  | clusterClockStop (cluster : ClusterId)
  | clusterClockStart (cluster : ClusterId)
  | dozeEntry
  | dormantEntry
  | deviceWake
  | stateReqDoze
  | stateReqDormant
  | stateReqWake
  | recalRequest
  -- collimation
  | sliceRelease
  | sliceDue
  | facetSlice (c : CoreId) (facet : FacetId) (r : FacetSliceResult)
  | sliceRetry
  | clusterSlice (cluster : ClusterId) (r : ClusterSliceResult)
  | thermalSlice (die : DieId) (junctions : List Nat)
  | laneSlice (port : PortId) (lane : BitVec 2) (ok retrainOk : Bool)
  | currentSlice (r : CurrentSliceResult)
  | requal (v : Word32)
  -- boot, firmware, identity, sessions
  | boot
  | fwWrite (slot : Bool)
  | fwPrepare (slot : Bool)
  | fwUnprepare
  | fwCommit
  | certReady
  | uarMboxGo (length : BitVec 13)
  | openReq (q : MgmtReq)
  | openRsp (q : MgmtReq)
  | close (q : MgmtReq)
  | setKey (q : MgmtReq)
  | setOwner (q : MgmtReq)
  | lifecycle (q : MgmtReq)
  | clearTamper (q : MgmtReq)
  | readLog (q : MgmtReq)
  | nonce (q : MgmtReq)
  | recover (q : MgmtReq)
  | challengeExpiry (session : BitVec 16)
  | sessionIdleClose (session : BitVec 16)
  | tamper (src : TamperSource)
  | wipeDone
  | getVersion (t : SpdmPath)
  | getCapabilities (t : SpdmPath)
  | negotiateAlgorithms (t : SpdmPath) (mldsa65 sha3 : Bool)
  | getDigests (t : SpdmPath)
  | getCertificate (t : SpdmPath) (slot : BitVec 4) (off len : BitVec 16)
  | challenge (t : SpdmPath) (slot : BitVec 4) (nonce : List Byte)
  | getMeasurements (t : SpdmPath) (index : Byte) (signed : Bool) (nonce : List Byte)
  | recoveryWrite (off : Word32) (data : List Byte)
  | recoveryDone (length : Word32)
  -- sideband, module, host link
  | numericSensorRead (sensor : BitVec 8)
  | pwrEnAssert
  | pwrEnDeassert
  | perstNDeassert
  | perstNFullReset
  | functionLevelReset
  | d3hot
  | d0
  | pcieLinkDegrade (speed : BitVec 3) (width : BitVec 5) (failed : BitVec 16)
  | inputOutOfRange (us : Nat)
  | controlFlit (port : PortId) (ack : BitVec 10) (nak : Bool)
  | retrainLink (speed : BitVec 3) (width : BitVec 5) (failed : BitVec 16)
  | priEnable
  | powerModeWrite (bank : Fin 60)
  | eidAssignment (eid : Byte)
deriving DecidableEq, Repr

end Sys2Proof
end

