-- ==== Sys2Proof/Decode.lean ====
section
/-!
DEFINITION. Words of the table. The opcode table of this block gives no row a bit pattern: a command arrives as a bus
access, a message or an event, and no word spells one. (Tile commands do have an encoding in the spec, R297 to R302; it is
read in Machine/TileCode.lean for the dispatch units, not here.)
-/

namespace Sys2Proof

/-- The command that a word spells by the table's bits: none, because no row gives bits. -/
def decodeTableWord (_nbits _w : Nat) : Option Instr := none

end Sys2Proof
end

