-- ==== Sys2Proof/Machine/Bits.lean ====
section
/-!
DEFINITION. Bit fields, byte order and checks: little-endian bytes and structure bits (R10, R11), two's complement, the
CRC-32 of R120, the CRC-32C of R252 and the CRC-64 of R348.
-/

namespace Sys2Proof.Machine

/-- Bits [lo + n - 1 : lo] of a word, as a number. -/
def bits {w : Nat} (x : BitVec w) (lo n : Nat) : Nat := (x.toNat >>> lo) % 2 ^ n

/-- One bit of a word. -/
def bit {w : Nat} (x : BitVec w) (i : Nat) : Bool := x.getLsbD i

/-- The word with bits [lo + n - 1 : lo] replaced by v (taken modulo 2^n). -/
def setBits {w : Nat} (x : BitVec w) (lo n v : Nat) : BitVec w :=
  (x &&& ~~~(BitVec.ofNat w ((2 ^ n - 1) <<< lo))) ||| BitVec.ofNat w ((v % 2 ^ n) <<< lo)

/-- The word with one bit set or cleared. -/
def setBit {w : Nat} (x : BitVec w) (i : Nat) (b : Bool) : BitVec w := setBits x i 1 b.toNat

/-- A number clamped to lo .. hi. -/
def clampNat (lo hi x : Nat) : Nat := max lo (min hi x)

/-- 0 is treated as 1, as several timer fields say. -/
def atLeastOne (x : Nat) : Nat := max 1 x

/-- x ÷ y rounded up. -/
def ceilDiv (x y : Nat) : Nat := (x + y - 1) / y

/-- The n low bits of x as a two's complement value. -/
def signed (n x : Nat) : Int :=
  let v := x % 2 ^ n
  if n ≠ 0 ∧ 2 ^ (n - 1) ≤ v then (v : Int) - (2 ^ n : Nat) else (v : Int)

/-- An integer as an n-bit two's complement pattern. -/
def unsigned (n : Nat) (x : Int) : Nat := (x % ((2 ^ n : Nat) : Int)).toNat

/-- The number of a list of bits, the first bit least significant. -/
def ofBits : List Bool → Nat
  | [] => 0
  | b :: bs => b.toNat + 2 * ofBits bs

/-- The number of little-endian bytes (R10). -/
def ofBytes : List Byte → Nat
  | [] => 0
  | b :: bs => b.toNat + 256 * ofBytes bs

/-- The n little-endian bytes of a number (R10). -/
def toBytes : Nat → Nat → List Byte
  | 0, _ => []
  | n + 1, x => BitVec.ofNat 8 x :: toBytes n (x / 256)

/-- The number of ones of the n low bits. -/
def popCount : Nat → Nat → Nat
  | 0, _ => 0
  | n + 1, x => x % 2 + popCount n (x / 2)

/-- Even parity of the n low bits: the bit that makes the number of ones even. -/
def parity (n x : Nat) : Bool := popCount n x % 2 = 1

/-- floor(log2 x) for x > 0, and 0 for x = 0. -/
def log2 (x : Nat) : Nat := Nat.log2 x

/-- The n low bits of x in reverse order. -/
def reverseBits (n x : Nat) : Nat :=
  ofBits ((List.range n).map fun i => (x >>> (n - 1 - i)) % 2 = 1)

/-- One step of a reflected CRC over one bit of data already folded into the register. -/
def crcStep (poly r : Nat) : Nat := if r % 2 = 1 then (r / 2) ^^^ poly else r / 2

/-- Eight steps. -/
def crcByte (poly r : Nat) (b : Byte) : Nat :=
  (List.range 8).foldl (fun a _ => crcStep poly a) (r ^^^ b.toNat)

/-- A 32-bit reflected CRC with initial value all ones and final inversion; poly is the reflected polynomial. -/
def crcReflected32 (poly : Nat) (bs : List Byte) : Nat := bs.foldl (crcByte poly) 0xFFFFFFFF ^^^ 0xFFFFFFFF

/-- CRC-32 as IEEE 802.3 uses it (R120): polynomial 0x04C1_1DB7, reflected. -/
def crc32 (bs : List Byte) : Nat := crcReflected32 0xEDB88320 bs

/-- CRC-32C over the 64 data bytes of a slot followed by its physical address as 8 little-endian bytes (R252). -/
def crc32c (bs : List Byte) : Nat := crcReflected32 0x82F63B78 bs

/-- The CRC-64 of a flit (R348): not reflected, most significant bit first, initial value all ones, final inversion. -/
def crc64 (bs : List Byte) : Nat :=
  (bs.foldl (fun r b =>
    (List.range 8).foldl (fun a _ =>
      if a / 2 ^ 63 = 1 then ((a * 2) % 2 ^ 64) ^^^ 0x42F0E1EBA9EA3693 else (a * 2) % 2 ^ 64)
      (r ^^^ (b.toNat <<< 56))) 0xFFFFFFFFFFFFFFFF) ^^^ 0xFFFFFFFFFFFFFFFF

/-- A list cut into pieces of t. -/
def chunks {α : Type} (t : Nat) (l : List α) : List (List α) :=
  (List.range (ceilDiv l.length t)).map fun i => (l.drop (t * i)).take t

/-- Element i of a stream of w-bit elements packed from the lowest address (R21, R96). -/
def streamElem (w : Nat) (bs : List Byte) (i : Nat) : Nat := (ofBytes ((bs.drop (w * i / 8)).take (w / 8 + 2)) >>> (w * i % 8)) % 2 ^ w

/-- The bytes of a stream of w-bit elements (R96); the last byte is filled with zeros. -/
def packStream (w : Nat) (xs : List Nat) : List Byte :=
  toBytes (ceilDiv (w * xs.length) 8) (xs.foldr (fun x a => x % 2 ^ w + 2 ^ w * a) 0)

end Sys2Proof.Machine
end

