-- ==== Sys2Proof/Machine/Num.lean ====
section
/-!
DEFINITION. Number formats and conversions (R95 to R107), over exact values: a finite value is an integer times a power of
two, and every rounding is one rounding of an exact value to the nearest, ties to even.
-/

namespace Sys2Proof.Machine

/-- An exact finite value m · 2^e. -/
structure Dy where
  m : Int
  e : Int
deriving DecidableEq, Repr

/-- An integer as an exact value. -/
def Dy.ofInt (m : Int) : Dy := ⟨m, 0⟩

/-- The value times 2^k. -/
def Dy.scale (x : Dy) (k : Int) : Dy := ⟨x.m, x.e + k⟩

/-- 2^k for an integer k, and 0 for a negative one. -/
def pow2 (k : Int) : Int := if k < 0 then 0 else (2 ^ k.toNat : Nat)

/-- The integer m of x = m · 2^e for an exponent e that is not above its own. -/
def Dy.at_ (x : Dy) (e : Int) : Int := x.m * pow2 (x.e - e)

/-- Exact sum. -/
def Dy.add (x y : Dy) : Dy :=
  let e := min x.e y.e
  ⟨x.at_ e + y.at_ e, e⟩

/-- Negation. -/
def Dy.neg (x : Dy) : Dy := ⟨-x.m, x.e⟩

/-- Exact difference. -/
def Dy.sub (x y : Dy) : Dy := x.add y.neg

/-- Exact product. -/
def Dy.mul (x y : Dy) : Dy := ⟨x.m * y.m, x.e + y.e⟩

/-- Magnitude. -/
def Dy.abs (x : Dy) : Dy := ⟨x.m.natAbs, x.e⟩

/-- Whether the value is 0. -/
def Dy.isZero (x : Dy) : Bool := decide (x.m = 0)

/-- Whether the value is negative. -/
def Dy.isNeg (x : Dy) : Bool := decide (x.m < 0)

/-- x < y. -/
def Dy.lt (x y : Dy) : Bool := (x.sub y).isNeg

/-- x ≤ y. -/
def Dy.le (x y : Dy) : Bool := !(y.lt x)

/-- Exact sum of a list. -/
def Dy.sum (l : List Dy) : Dy := l.foldl Dy.add ⟨0, 0⟩

/-- floor(log2 |x|) of a nonzero value. -/
def Dy.log2 (x : Dy) : Int := (Nat.log2 x.m.natAbs : Int) + x.e

/-- a ÷ b rounded to the nearest integer, ties to even, for b > 0. -/
def rneDiv (a : Int) (b : Nat) : Int :=
  let q := a / (b : Int)
  let r := a % (b : Int)
  if 2 * r < b then q else if 2 * r > b then q + 1 else if q % 2 = 0 then q else q + 1

/-- x ÷ 2^q rounded to the nearest integer, ties to even. -/
def Dy.rneAt (x : Dy) (q : Int) : Int :=
  if q ≤ x.e then x.m * pow2 (x.e - q) else rneDiv x.m (2 ^ (q - x.e).toNat)

/-- x rounded to the nearest integer, ties to even (rne of R104 and R109). -/
def Dy.rne (x : Dy) : Int := x.rneAt 0

/-- floor of x. -/
def Dy.floor (x : Dy) : Int := if 0 ≤ x.e then x.m * pow2 x.e else x.m / ((2 ^ (-x.e).toNat : Nat) : Int)

/-! ### Formats -/

/-- A floating-point format (R95): exponent and mantissa bits, bias, and which special values it has. -/
structure FloatFmt where
  eb : Nat
  mb : Nat
  bias : Int
  hasInf : Bool
  hasNan : Bool
deriving DecidableEq, Repr

/-- The floating-point format of a code; none for an integer format (R95). -/
def floatFmt (fmt : Nat) : Option FloatFmt :=
  match fmt with
  | 0x8 => some ⟨2, 1, 1, false, false⟩
  | 0x9 => some ⟨2, 3, 1, false, false⟩
  | 0xA => some ⟨3, 2, 3, false, false⟩
  | 0xB => some ⟨4, 3, 7, false, true⟩
  | 0xC => some ⟨5, 2, 15, true, true⟩
  | 0xD => some ⟨8, 7, 127, true, true⟩
  | 0xE => some ⟨5, 10, 15, true, true⟩
  | 0xF => some ⟨8, 23, 127, true, true⟩
  | _ => none

/-- FP32. -/
def fp32 : FloatFmt := ⟨8, 23, 127, true, true⟩

/-- Bits of an element of a format (R95). -/
def fmtWidth (fmt : Nat) : Nat :=
  match fmt with
  | 0x0 => 2
  | 0x1 => 2
  | 0x2 => 4
  | 0x3 => 4
  | 0x4 => 8
  | 0x5 => 8
  | 0x6 => 16
  | 0x7 => 32
  | 0x8 => 4
  | 0x9 => 6
  | 0xA => 6
  | 0xB => 8
  | 0xC => 8
  | 0xD => 16
  | 0xE => 16
  | _ => 32

/-- Whether a code names an integer format. -/
def isIntFmt (fmt : Nat) : Bool := decide (fmt ≤ 7)

/-- Whether a code names an unsigned integer format. -/
def isUnsignedFmt (fmt : Nat) : Bool := decide (fmt = 3 ∨ fmt = 5)

/-- Least and greatest value of an integer format (R95). -/
def intRange (fmt : Nat) : Int × Int :=
  match fmt with
  | 0x0 => (-1, 1)
  | 0x3 => (0, 15)
  | 0x5 => (0, 255)
  | _ => (-(2 ^ (fmtWidth fmt - 1) : Nat), (2 ^ (fmtWidth fmt - 1) : Nat) - 1)

/-- The largest finite value of a floating-point format (R95). -/
def FloatFmt.maxFin (f : FloatFmt) : Dy :=
  if f.hasInf then ⟨(2 ^ (f.mb + 1) : Nat) - 1, (2 ^ f.eb : Nat) - 2 - f.bias - f.mb⟩
  else if f.hasNan then ⟨(2 ^ (f.mb + 1) : Nat) - 2, (2 ^ f.eb : Nat) - 1 - f.bias - f.mb⟩
  else ⟨(2 ^ (f.mb + 1) : Nat) - 1, (2 ^ f.eb : Nat) - 1 - f.bias - f.mb⟩

/-- The bits of the positive quiet NaN (R97). -/
def FloatFmt.nanBits (f : FloatFmt) : Nat :=
  if f.hasInf then (2 ^ f.eb - 1) * 2 ^ f.mb + 2 ^ (f.mb - 1) else (2 ^ f.eb - 1) * 2 ^ f.mb + (2 ^ f.mb - 1)

/-- The bits of an infinity. -/
def FloatFmt.infBits (f : FloatFmt) (neg : Bool) : Nat :=
  neg.toNat * 2 ^ (f.eb + f.mb) + (2 ^ f.eb - 1) * 2 ^ f.mb

/-- An exact value with the special values: a finite value (with the sign of a zero), an infinity, NaN. -/
inductive Val where
  | fin (x : Dy) (negZero : Bool)
  | inf (neg : Bool)
  | nan
deriving DecidableEq, Repr

/-- An exact finite value. -/
def Val.of (x : Dy) : Val := .fin x false

/-- Whether the value is finite. -/
def Val.isFin : Val → Bool
  | .fin _ _ => true
  | _ => false

/-- Sign of a value, zeros included. -/
def Val.sign : Val → Bool
  | .fin x nz => if x.isZero then nz else x.isNeg
  | .inf n => n
  | .nan => false

/-- The value that the bits of a floating-point format give (R95). -/
def FloatFmt.decode (f : FloatFmt) (b : Nat) : Val :=
  let neg := b / 2 ^ (f.eb + f.mb) % 2 = 1
  let e := b / 2 ^ f.mb % 2 ^ f.eb
  let m := b % 2 ^ f.mb
  let sgn (x : Nat) : Int := if neg then -(x : Int) else x
  if f.hasInf ∧ e = 2 ^ f.eb - 1 then (if m = 0 then .inf neg else .nan)
  else if f.hasNan ∧ ¬f.hasInf ∧ e = 2 ^ f.eb - 1 ∧ m = 2 ^ f.mb - 1 then .nan
  else if e = 0 then .fin ⟨sgn m, 1 - f.bias - f.mb⟩ (decide (neg ∧ m = 0))
  else .fin ⟨sgn (2 ^ f.mb + m), e - f.bias - f.mb⟩ false

/-- The integer that the bits of an integer format give (R95); TRN 0b11 reads as 0. -/
def decodeInt (fmt b : Nat) : Int :=
  match fmt with
  | 0x0 => (b % 2 : Nat) - ((b / 2 % 2 : Nat) : Int)
  | 0x3 => (b % 16 : Nat)
  | 0x5 => (b % 256 : Nat)
  | _ => signed (fmtWidth fmt) b

/-- The value that the bits of an element of any format give. -/
def decodeVal (fmt b : Nat) : Val :=
  match floatFmt fmt with
  | some f => f.decode b
  | none => .of (.ofInt (decodeInt fmt b))

/-- The bits of an integer within the range of its format (R95, R97: TRN writes 0 as 0b00). -/
def encodeInt (fmt : Nat) (x : Int) : Nat :=
  match fmt with
  | 0x0 => if x = 0 then 0 else if 0 < x then 1 else 2
  | _ => unsigned (fmtWidth fmt) x

/-- x rounded to the precision of the format with an unbounded greatest exponent, subnormals kept (R99). -/
def FloatFmt.round (f : FloatFmt) (x : Dy) : Dy :=
  if x.isZero then ⟨0, 0⟩
  else
    let q := max x.log2 (1 - f.bias) - f.mb
    ⟨x.rneAt q, q⟩

/-- The bits of a value that the format holds exactly (a result of round within its range). -/
def FloatFmt.encodeFin (f : FloatFmt) (x : Dy) (neg : Bool) : Nat :=
  let s := neg.toNat * 2 ^ (f.eb + f.mb)
  if x.isZero then s
  else
    let q := max x.log2 (1 - f.bias) - f.mb
    let n := (x.rneAt q).natAbs
    if n < 2 ^ f.mb then s + n else s + (q + f.mb + f.bias).toNat * 2 ^ f.mb + (n - 2 ^ f.mb)

/-- Whether a rounded value exceeds the largest finite value. -/
def FloatFmt.over (f : FloatFmt) (x : Dy) : Bool := f.maxFin.lt x.abs

/-- A conversion: the bits, and what it adds to GLB_CONV_OVF and GLB_CONV_NAN. -/
structure Conv where
  code : Nat
  ovf : Nat := 0
  nan : Nat := 0
deriving DecidableEq, Repr

/-- Conversion to a floating-point format (R97, R99, R100). -/
def FloatFmt.convert (f : FloatFmt) (sat : Bool) (v : Val) : Conv :=
  let big (n : Bool) := f.encodeFin f.maxFin n
  match v with
  | .nan => if f.hasNan then ⟨f.nanBits, 0, 0⟩ else ⟨0, 0, 1⟩
  | .inf n => if f.hasInf then ⟨f.infBits n, 0, 0⟩ else ⟨big n, 1, 0⟩
  | .fin x nz =>
    let r := f.round x
    if f.over r then
      (if f.hasInf && !sat then ⟨f.infBits x.isNeg, 0, 0⟩ else ⟨big x.isNeg, 1, 0⟩)
    else ⟨f.encodeFin r (if x.isZero then nz else x.isNeg), 0, 0⟩

/-- Conversion to an integer format outside quantisation (R101). -/
def convertInt (fmt : Nat) (v : Val) : Conv :=
  let (lo, hi) := intRange fmt
  match v with
  | .nan => ⟨encodeInt fmt 0, 0, 1⟩
  | .inf n => ⟨encodeInt fmt (if n then lo else hi), 1, 0⟩
  | .fin x _ =>
    let r := x.rne
    if r < lo then ⟨encodeInt fmt lo, 1, 0⟩
    else if hi < r then ⟨encodeInt fmt hi, 1, 0⟩ else ⟨encodeInt fmt r, 0, 0⟩

/-- Conversion to any format, one rounding (R99 to R101). -/
def convertVal (fmt : Nat) (sat : Bool) (v : Val) : Conv :=
  match floatFmt fmt with
  | some f => f.convert sat v
  | none => convertInt fmt v

/-! ### FP32 -/

/-- rn32: the nearest FP32 value, ties to even, subnormals kept (R74); it may exceed the largest finite value. -/
def rn32 (x : Dy) : Dy := fp32.round x

/-- FP32 bits as a value. -/
def f32 (b : Word32) : Val := fp32.decode b.toNat

/-- A value as FP32 bits, by one rounding (R99, without sat_fp). -/
def toF32 (v : Val) : Word32 := BitVec.ofNat 32 (fp32.convert false v).code

/-- The quiet NaN of FP32 (R97). -/
def f32Nan : Word32 := 0x7FC00000

/-- The IEEE 754 sum of operands, exact where all are finite: opposite infinities give NaN; a sum of zeros is -0 only
when every operand is -0. -/
def Val.sum (l : List Val) : Val :=
  if l.any (· = .nan) then .nan
  else
    let pos := l.any (· = .inf false)
    let neg := l.any (· = .inf true)
    if pos && neg then .nan
    else if pos then .inf false
    else if neg then .inf true
    else
      let xs := l.map fun v => match v with
        | .fin x _ => x
        | _ => ⟨0, 0⟩
      .fin (Dy.sum xs) (l.all fun v => match v with
        | .fin x nz => x.isZero && nz
        | _ => false)

/-- The product in the IEEE 754 way: 0 times an infinity is NaN, signs multiply. -/
def Val.mul (a b : Val) : Val :=
  match a, b with
  | .nan, _ => .nan
  | _, .nan => .nan
  | .inf n, .inf k => .inf (n != k)
  | .inf n, .fin y nz => if y.isZero then .nan else .inf (n != (Val.fin y nz).sign)
  | .fin x nz, .inf k => if x.isZero then .nan else .inf ((Val.fin x nz).sign != k)
  | .fin x nx, .fin y ny => .fin (x.mul y) ((Val.fin x nx).sign != (Val.fin y ny).sign)

/-- Negation, zeros included. -/
def Val.neg : Val → Val
  | .fin x nz => .fin x.neg (!nz)
  | .inf n => .inf (!n)
  | .nan => .nan

/-- The magnitude. -/
def Val.abs : Val → Val
  | .fin x _ => .fin x.abs false
  | .inf _ => .inf false
  | .nan => .nan

/-- The value times 2^k. -/
def Val.scale (v : Val) (k : Int) : Val :=
  match v with
  | .fin x nz => .fin (x.scale k) nz
  | v => v

/-- x ÷ y of nonzero y, rounded to the format with an unbounded greatest exponent: one rounding of the exact quotient. -/
def FloatFmt.roundDiv (f : FloatFmt) (x y : Dy) : Dy :=
  if x.isZero then ⟨0, 0⟩
  else
    let neg := x.isNeg != y.isNeg
    let a := x.m.natAbs
    let b := y.m.natAbs
    let e := x.e - y.e
    -- floor(log2 (a ÷ b)) is l or l - 1
    let l : Int := (Nat.log2 a : Int) - Nat.log2 b
    let ge := if 0 ≤ l then decide (b * 2 ^ l.toNat ≤ a) else decide (b ≤ a * 2 ^ (-l).toNat)
    let k := (if ge then l else l - 1) + e
    let q := max k (1 - f.bias) - f.mb
    let sh := e - q
    let n := if 0 ≤ sh then rneDiv (a * 2 ^ sh.toNat : Nat) b else rneDiv a (b * 2 ^ (-sh).toNat)
    ⟨if neg then -n else n, q⟩

/-- The quotient in the IEEE 754 way, rounded to FP32: 0 ÷ 0 and infinity ÷ infinity are NaN, x ÷ 0 is an infinity. -/
def divF32 (a b : Val) : Val :=
  match a, b with
  | .nan, _ => .nan
  | _, .nan => .nan
  | .inf _, .inf _ => .nan
  | .inf n, .fin y nz => .inf (n != (Val.fin y nz).sign)
  | .fin x nz, .inf k => .fin ⟨0, 0⟩ ((Val.fin x nz).sign != k)
  | .fin x nx, .fin y ny =>
    let sg := (Val.fin x nx).sign != (Val.fin y ny).sign
    if y.isZero then (if x.isZero then .nan else .inf sg)
    else
      let r := fp32.roundDiv x y
      if fp32.over r then .inf sg else .fin r sg

/-- One FP32 rounding of a value in the IEEE 754 way: beyond the largest finite value it is an infinity. -/
def Val.rn32 (v : Val) : Val :=
  match v with
  | .fin x nz =>
    let r := Machine.rn32 x
    if fp32.over r then .inf x.isNeg else .fin r (if x.isZero then nz else x.isNeg)
  | v => v

/-- Floating-point comparison of values that are not NaN. -/
def Val.lt (a b : Val) : Bool :=
  match a, b with
  | .fin x _, .fin y _ => x.lt y
  | .inf n, .inf k => n && !k
  | .inf n, .fin _ _ => n
  | .fin _ _, .inf k => !k
  | _, _ => false

/-! ### Magnitudes and exposures -/

/-- h of R112 of a set of values: NaN is left out, an infinity gives 128, no magnitude gives -150. -/
def observedH (l : List Val) : Int :=
  l.foldl (fun h v => match v with
    | .nan => h
    | .inf _ => max h 128
    | .fin x _ => if x.isZero then h else max h (max (-148) (min 128 (x.log2 + 1)))) (-150)

/-- Magnitude bits p of a target format of an anchor (R108, R113). -/
def anchorBits (fmt : Nat) : Option Int :=
  match fmt with
  | 0x1 => some 1
  | 0x2 => some 3
  | 0x3 => some 4
  | 0x4 => some 7
  | 0x5 => some 8
  | 0x6 => some 15
  | _ => none

/-- The quantisation of an anchor (R109): the bits, clips, and NaN sources. A zero point beyond the range of the target, which
its code cannot hold for a NaN, is clamped there (DESIGN CHOICE, log entry 142). -/
def quantise (fmt : Nat) (zp : Int) (e : Int) (v : Val) : Conv :=
  let (lo, hi) := intRange fmt
  match v with
  | .nan => ⟨encodeInt fmt (max lo (min hi zp)), 0, 1⟩
  | .inf n => ⟨encodeInt fmt (if n then lo else hi), 1, 0⟩
  | .fin x _ =>
    let q := (x.scale (-e)).rne + zp
    if q < lo then ⟨encodeInt fmt lo, 1, 0⟩
    else if hi < q then ⟨encodeInt fmt hi, 1, 0⟩ else ⟨encodeInt fmt q, 0, 0⟩

/-! ### Block scales -/

/-- The value of an E8M0 scale byte as an exponent; none is NaN (R103). -/
def scaleExp (b : Nat) : Option Int := if b % 256 = 255 then none else some ((b % 256 : Nat) - 127)

/-- The value of element bits of a block-scaled array under its scale byte (R103, R104: MXINT8 reads as q · 2^-6). -/
def decodeBlock (fmt scale b : Nat) : Val :=
  match scaleExp scale with
  | none => .nan
  | some x => ((decodeVal fmt b).scale (if fmt = 4 then -6 else 0)).scale x

/-- emax of an element format of block-scaled arrays (R104). -/
def blockEmax (fmt : Nat) : Option Int :=
  match fmt with
  | 0x8 => some 2
  | 0x9 => some 2
  | 0xA => some 4
  | 0xB => some 8
  | 0xC => some 15
  | 0x4 => some 0
  | _ => none

/-- A written block: its scale byte, its elements, overflows, and whether it held a non-finite value (R104, R106). -/
structure Block where
  scale : Nat
  elems : List Nat
  ovf : Nat
  nonFin : Bool
deriving DecidableEq, Repr

/-- One element v · 2^-X of a block (R104). No infinite element is written under a finite scale (R107). -/
def blockElem (fmt : Nat) (x : Int) (v : Val) : Conv :=
  match floatFmt fmt with
  | some f => f.convert true (v.scale (-x))
  | none => convertInt 4 (v.scale (6 - x))

/-- Whether m · 2^-X, rounded to the element format with an unbounded exponent, exceeds its largest finite value. -/
def blockOver (fmt : Nat) (m : Dy) (x : Int) : Bool :=
  match floatFmt fmt with
  | some f => f.over (f.round (m.scale (-x)))
  | none => decide (127 < (m.scale (6 - x)).rne)

/-- The scale choice and the elements of one block (R104, R106). -/
def writeBlock (fmt : Nat) (fit : Bool) (vals : List Val) : Block :=
  if vals.any fun v => !v.isFin then ⟨0xFF, vals.map fun _ => 0, 0, true⟩
  else
    let m : Dy := vals.foldl (fun (a : Dy) v => match v with
      | .fin x _ => if a.lt x.abs then x.abs else a
      | _ => a) ⟨0, 0⟩
    if m.isZero then ⟨0, vals.map fun _ => 0, 0, false⟩
    else
      let x0 := m.log2 - (blockEmax fmt).getD 0
      let x1 := if fit && blockOver fmt m x0 then x0 + 1 else x0
      let x := max (-127) (min 127 x1)
      let cs := vals.map (blockElem fmt x)
      ⟨(x + 127).toNat, cs.map (·.code), (cs.map (·.ovf)).sum, false⟩

/-! ### Stochastic rounding -/

/-- The random bits of R124. -/
def srBits (seed step index : Nat) : Nat :=
  let mask := 2 ^ 64
  let x := (index ||| (step <<< 40)) % mask
  let x := x ^^^ (seed * 0xB4F39A5DC27E6E1B % mask)
  let x := (x ^^^ (x >>> 31)) * 0x8CB92BA72F3D8DD7 % mask
  let x := (x ^^^ (x >>> 27)) * 0xB4F39A5DC27E6E1B % mask
  let x := x ^^^ (x >>> 33)
  x % 2 ^ 24

/-- The choice of R125 between adjacent grid points at n and n + 1 units of 2^q: v lies at or above n units. -/
def srPick (v : Dy) (q : Int) (r : Nat) : Int :=
  let n := (v.scale (-q)).floor
  let frac := (v.scale (-q)).sub (.ofInt n)
  if frac.isZero then n else if (r : Int) < (frac.scale 24).floor then n + 1 else n

end Sys2Proof.Machine
end

