-- ==== Sys2Proof/Machine/Flags.lean ====
section
/-!
DEFINITION. The flags of the accumulators: the state word of a tile row (R60), its count of contribution events (R75,
R78), the addition of a contribution in each mode with the overflow policies (R71, R74, R75, R79), the statistics of R88
and R89, and the merge of R91. Each addition answers the new entries and what came about.
-/

namespace Sys2Proof.Machine

/-! ### The state word -/

/-- Mode of a tile row: 0 integer, 1 float, 2 statistics. -/
def wordMode (w : Word32) : Nat := bits w 0 2

/-- Overflow policy: 0 SATURATE, 1 RESCALE, 2 PROPAGATE. -/
def wordPolicy (w : Word32) : Nat := bits w 2 2

/-- Sticky saturation bit. -/
def wordSat (w : Word32) : Bool := bit w 4

/-- Sticky lapse bit. -/
def wordLapsed (w : Word32) : Bool := bit w 5

/-- Contribution events. -/
def wordCount (w : Word32) : Nat := bits w 6 21

/-- A state word of its fields; the reserved bits are 0. -/
def stateWord (mode policy : Nat) (sat lapsed : Bool) (count : Nat) : Word32 :=
  BitVec.ofNat 32 (mode % 4 + 4 * (policy % 4) + 16 * sat.toNat + 32 * lapsed.toNat + 64 * (count % 2 ^ 21))

/-- The bound of the count. -/
def countMax : Nat := 2 ^ 20

/-- The state word with sat set. -/
def setSat (w : Word32) (b : Bool) : Word32 := if b then setBit w 4 true else w

/-- One contribution event (R74 count_event, R78): the new word, whether the event lapsed, and whether the row's lapsed
bit was set by it. -/
def countEvent (w : Word32) : Word32 × Bool × Bool :=
  if wordCount w < countMax then (setBits w 6 21 (wordCount w + 1), false, false)
  else (setBit w 5 true, true, !wordLapsed w)

/-- The state word of a merge (R91): incoming into local. -/
def mergeWord (inc loc : Word32) : Word32 × Bool × Bool :=
  let n := wordCount inc + wordCount loc + 1
  let over_ := decide (countMax < n)
  (stateWord (wordMode loc) (wordPolicy loc) (wordSat inc || wordSat loc) (wordLapsed inc || wordLapsed loc || over_)
    (min countMax n), over_, over_ && !wordLapsed inc && !wordLapsed loc)

/-! ### What an addition does -/

/-- What came about at one entry (R79): nothing, a clamp, a finite value that became infinite or NaN, an addition into or
of a value that is not finite and is not counted, or an overflow that a rescale retry takes up. -/
inductive Event79 where
  | quiet | clamped | nonfinite | uncounted | retry
deriving DecidableEq, Repr

/-- Whether the event sets sat. -/
def Event79.sat : Event79 → Bool
  | .quiet => false
  | .retry => false
  | _ => true

/-- Whether the event adds to ACM_SAT_EVENTS and loads ACM_SAT_LOG. -/
def Event79.counted : Event79 → Bool
  | .clamped => true
  | .nonfinite => true
  | _ => false

/-- Integer addition (R71, R79); retry: the row's policy is RESCALE and a retry is left. -/
def addInteger (retry : Bool) (old : Word32) (x : Int) : Word32 × Event79 :=
  let v := old.toInt + x
  if v < -(2 ^ 31) ∨ 2 ^ 31 - 1 < v then
    if retry then (old, .retry) else (if v < 0 then 0x80000000 else 0x7FFFFFFF, .clamped)
  else (BitVec.ofInt 32 v, .quiet)

/-- A float accumulator: total and compensation. -/
structure Pair where
  total : Word32
  comp : Word32
deriving DecidableEq, Repr

/-- The value of a pair as its reader takes it (R76). -/
def Pair.value (p : Pair) : Val := (Val.sum [f32 p.total, f32 p.comp]).rn32

/-- Whether both halves are finite. -/
def Pair.finite (p : Pair) : Bool := (f32 p.total).isFin && (f32 p.comp).isFin

/-- The pair that holds the exact sum of operands (R74, R75, R79): propagate selects the policy; was: the value held
before was finite. -/
def pairOf (propagate was : Bool) (ops : List Val) : Pair × Event79 :=
  match Val.sum ops with
  | .fin e _ =>
    if e.isZero then (⟨0, 0⟩, .quiet)
    else
      let t := rn32 e
      if fp32.over t then
        if propagate then (⟨BitVec.ofNat 32 (fp32.infBits e.isNeg), 0⟩, if was then .nonfinite else .uncounted)
        else (⟨BitVec.ofNat 32 (fp32.encodeFin fp32.maxFin e.isNeg), 0⟩, .clamped)
      else (⟨toF32 (.of t), toF32 (.of (rn32 (e.sub t)))⟩, .quiet)
  | v => (⟨toF32 v, 0⟩, if was then .nonfinite else .uncounted)

/-- Promotion of a contribution (R74). -/
def promote (propagate : Bool) (p : Pair) (x : Val) : Pair × Event79 :=
  pairOf propagate p.finite [f32 p.total, f32 p.comp, x]

/-- Merge of an incoming pair into a local one (R91). -/
def mergePair (propagate : Bool) (inc loc : Pair) : Pair × Event79 :=
  pairOf propagate loc.finite [f32 inc.total, f32 inc.comp, f32 loc.total, f32 loc.comp]

/-! ### Statistics -/

/-- A statistic (R88). -/
structure Stat where
  n : Word32
  mean : Word32
  m2 : Word32
deriving DecidableEq, Repr

/-- IEEE 754 sum, rounded to FP32. -/
def addF (a b : Val) : Val := (Val.sum [a, b]).rn32

/-- IEEE 754 product, rounded to FP32. -/
def mulF (a b : Val) : Val := (a.mul b).rn32

/-- A count as FP32. -/
def countF (n : Nat) : Val := (Val.of (.ofInt n)).rn32

/-- The combine of two statistics, a first (R89). -/
def combine (a b : Stat) : Stat :=
  if b.n = 0 then a
  else if a.n = 0 then b
  else
    let n := min (a.n.toNat + b.n.toNat) (2 ^ 32 - 1)
    let am := f32 a.mean
    let d := addF (f32 b.mean) am.neg
    let f := divF32 (countF b.n.toNat) (countF n)
    let mean := addF am (mulF d f)
    let m2 := addF (addF (f32 a.m2) (f32 b.m2)) (mulF (mulF d d) (mulF (countF a.n.toNat) f))
    ⟨BitVec.ofNat 32 n, toF32 mean, toF32 m2⟩

/-- The event of one entry of a statistic: a finite value that became infinite or NaN. -/
def statEvent (old new : Word32) : Event79 :=
  if (f32 new).isFin then .quiet else if (f32 old).isFin then .nonfinite else .uncounted

/-- x ÷ n of exact x and a count n > 0, rounded to FP32. -/
def divCount (x : Dy) (n : Nat) : Dy := fp32.roundDiv x (.ofInt n)

/-- The block statistic of the inputs of one tree (R88). Sums of inputs that are not finite follow IEEE 754. -/
def blockStat (xs : List Val) : Stat :=
  let n := xs.length
  let mean : Val := match Val.sum xs with
    | .fin e nz => (Val.fin (if e.isZero then e else divCount e n) nz).rn32
    | v => v
  let m2 : Val := match mean with
    | .fin m _ => (Val.sum (xs.map fun v => match v with
        | .fin x _ => .of ((x.sub m).mul (x.sub m))
        | .inf _ => .inf false
        | .nan => .nan)).rn32
    | _ => .nan
  ⟨BitVec.ofNat 32 n, toF32 mean, toF32 m2⟩

/-- A value divided by a count and rounded once to FP32; a division by zero gives NaN (R90). -/
def overCount (v : Val) (d : Nat) : Val :=
  if d = 0 then .nan
  else match v with
    | .fin e nz => (Val.fin (if e.isZero then e else divCount e d) nz).rn32
    | v => v

/-- What ACMOUT writes of a statistic (R90): the mean and the variance over n, or over n - 1. -/
def statOut (sample : Bool) (t : Stat) : Val × Val :=
  if t.n = 0 then (.nan, .nan)
  else (f32 t.mean, overCount (f32 t.m2) (if sample then t.n.toNat - 1 else t.n.toNat))

end Sys2Proof.Machine
end

