-- ==== Sys2Proof/Config.lean ====
section
/-!
DEFINITION. What the spec leaves open: free values (no statement can see a value of them) and the functions of the Uarid
whose standards the spec names without giving them. All are opaque constants with no body.
-/

namespace Sys2Proof

/-- Free 256-bit values, by the index freeCount of the state: the random numbers of the Uarid (R466, R469) and every
other value that the spec lets a command produce without stating it. -/
opaque Config.free : Nat → BitVec 256

/-- A physical fault that strikes stored state: a word of core or shared memory, which its code corrects or not (R253); a slot of
stacked memory: corrected, good at the second read, or failing both for its code or for the stack's report (R252); a bit of a
facet's row or of a column exponent (R47, R18); a bit of a tile row's entry, or with entry 64 of its state word (R320); the
sequencer state of a core (R320); a record of a job in bank 60; bank 61 (R326). -/
inductive Strike where
  | coreWord (core word : Nat) (double : Bool)
  | sharedWord (word : Nat) (double : Bool)
  | stackedSlot (slot : Nat) (kind : Fin 4)
  | facetRow (core facet row bit : Nat)
  | facetExp (core facet column bit : Nat)
  | acm (core row entry bit : Nat)
  | sequencer (core : Nat)
  | jobLog (job : Nat)
  | identities
deriving DecidableEq, Repr

/-- The physical faults of each ns of the local time base. -/
opaque Config.strikes : Nat → List Strike

/-- The cycles of a ns that requesters lose at the banks of a core's memory or of shared memory (R223, R232), and the DMA writes
of it that are refused with WCOLL (R229), by the BAR0 offset of the counter that counts them. -/
opaque Config.lost : (counter tick : Nat) → Nat

/-- The power in units of 0.25 W that n counts of an activity in 1 µs draw with the energy coefficients in force, at an operating
point and a rail voltage in mV (R409, R419, R445): kind 0 facet rows, 1 to 4 refractor trees of a path, 5 memory slots, 6 F-cycles of
FACET slices, 7 and 8 F-cycles of ballast in the firing slot and in the refractor, each times its level; then of the device, 9 link
flits, and 10 to 13 CLUSTER, THERMAL, LANE and CURRENT slices. -/
opaque Config.activityPower : (coefficients : List Nat) → (kind point rail n : Nat) → Nat

/-- The leakage of a compute die in units of 0.25 W at a temperature in °C and a rail voltage in mV (R409). -/
opaque Config.leakagePower : (temperature rail : Nat) → Nat

/-- The module input power for the power of its loads, both in units of 0.25 W: the model of regulator loss (R409). -/
opaque Config.inputPower : Nat → Nat

/-- The estimated VDD_C current in A of a die that draws a power in units of 0.25 W at a rail voltage in mV (R418, R420). -/
opaque Config.railCurrent : (power rail : Nat) → Nat

/-- The ML-DSA-65 public key that the seed of a key pair gives (R454, R461). -/
opaque Config.mldsaPublic : List Byte → List Byte

/-- The ML-DSA-65 signature over a message with the key pair of a seed (R461, R463); the index is the free randomness
of signing. -/
opaque Config.mldsaSign : Nat → List Byte → List Byte → List Byte

/-- Whether a signature over a message passes ML-DSA-65 under a public key (R453, R476). -/
opaque Config.mldsaVerify : List Byte → List Byte → List Byte → Bool

/-- The DER encoding of a certificate of the chain (R460 to R462) over its contents: position in the chain and the bytes
that it certifies. -/
opaque Config.certificate : Nat → List Byte → List Byte

/-- The measurement of the Uarid ROM, component 0 (R453): the spec does not give the image. -/
opaque Config.romMeasurement : BitVec 256

end Sys2Proof
end

