-- ==== Sys2Proof/Machine/RegMap.lean ====
section
/-!
DEFINITION. The register map of BAR0 (R502, R503, R510): where each register stands, its width, which of its bits are RW
or W1C, and its reset value, as the field maps of the chapters give them. A register whose value is a view of other state
(a ring's pointers, a facet's state, the live bits) is marked derived: it has no storage of its own.
-/

namespace Sys2Proof.Machine

/-- One row of the register index: count registers at base, base + stride, …. -/
structure RegRow where
  base : Nat
  stride : Nat
  count : Nat
  wide : Bool
  rw : Nat
  w1c : Nat
  reset : Nat
  derived : Bool
deriving DecidableEq, Repr

/-- A register of RW and W1C fields with storage. -/
def rowRw (base stride count rw w1c reset : Nat) : RegRow := ⟨base, stride, count, false, rw, w1c, reset, false⟩

/-- A 64-bit register of RW fields with storage. -/
def rowRw64 (base stride count rw reset : Nat) : RegRow := ⟨base, stride, count, true, rw, 0, reset, false⟩

/-- A 64-bit RO counter or status with storage. -/
def rowCnt (base stride count : Nat) : RegRow := ⟨base, stride, count, true, 0, 0, 0, false⟩

/-- A view of other state, or a register that holds nothing (WO). -/
def rowView (base stride count : Nat) (wide : Bool) : RegRow := ⟨base, stride, count, wide, 0, 0, 0, true⟩

/-- Start of the per-core block of core c (R503). -/
def coreBase (c : Nat) : Nat := 0x01000000 + 0x2000 * c

/-- A register of core c. -/
def coreReg (c o : Nat) : Nat := coreBase c + o

/-- A register of submission ring n (R293). -/
def ringReg (n o : Nat) : Nat := 0x00101000 + 0x100 * n + o

/-- A register of port p (R378). -/
def portReg (p o : Nat) : Nat := 0x00400000 + 0x10000 * p + o

/-- A counter of sparse engine e (R188). -/
def speReg (e o : Nat) : Nat := 0x8000 + 0x80 * e + o

/-- The GLB block (R58 to R509): identification, exposure, sparse engine, resource, refusal, fault and link registers. -/
def glbRows : List RegRow :=
  [⟨0x0000, 4, 1, false, 0, 0, 0x00312048, false⟩,        -- GLB_IDENT (R509)
   rowRw 0x2000 4 1 0x3 0 1,                               -- GLB_EXP_CTRL
   rowRw 0x2004 4 1 0 0x1000 0,                            -- GLB_EXP_RESTORE_LOG
   rowView 0x2008 4 1 false,                               -- GLB_FMT_CNT_CLR
   rowCnt 0x2040 8 7,                                      -- GLB_EXP_COLD .. GLB_SR_VALUES
   rowRw 0x3000 4 1 0x1 0 0,                               -- GLB_SPE_CTRL
   rowView 0x3008 4 1 false,                               -- GLB_SPE_CNT_CLR
   rowRw 0x4000 4 1 0 0x30 0,                              -- GLB_RES_LOG0
   rowRw 0x4004 4 2 0 0 0,                                 -- GLB_RES_LOG1, GLB_RES_LOG2
   rowView 0x400C 4 1 false,                               -- GLB_RES_CNT_CLR
   rowCnt 0x4010 8 2,                                      -- GLB_RES_OFFSET, GLB_RES_LIMIT
   rowCnt 0x4040 8 1,                                      -- GLB_RES_FAULTS
   rowRw 0x5000 4 1 0 0xC0 0,                              -- GLB_CMD_LOG0
   rowRw 0x5004 4 2 0 0 0,                                 -- GLB_CMD_LOG1, GLB_CMD_LOG2
   rowView 0x500C 4 1 false,                               -- GLB_CMD_CNT_CLR
   rowCnt 0x5040 8 1,                                      -- GLB_CMD_REFUSALS
   rowRw 0x6000 4 1 0xFFFFFFFF 0 0x006403E8,               -- GLB_FLT_CTRL: wdog_us 1,000, pf_timeout_ms 100
   rowRw 0x6004 4 1 0x1FFFF 0 16384,                       -- GLB_JNL_CTRL
   rowView 0x6008 4 1 false,                               -- GLB_JNL_STAT
   rowView 0x600C 4 1 false,                               -- GLB_PF_RESP
   rowRw 0x6010 4 1 0 0x80 0,                              -- GLB_FAULT_STAT
   rowView 0x6014 4 1 false,                               -- GLB_FLT_CNT_CLR
   rowView 0x6020 8 1 true,                                -- GLB_PF_PENDING
   rowCnt 0x6040 8 6,                                      -- GLB_CONTAINED .. GLB_LOST
   rowView 0x7000 4 2 false,                               -- GLB_PCIE_STAT, GLB_MOD_STAT
   rowView 0x7008 4 1 false,                               -- GLB_PCIE_CNT_CLR
   rowCnt 0x7040 8 2] ++                                   -- GLB_PCIE_RETRAINS, GLB_PCIE_DEGRADES
  (List.range 9).map fun k => rowCnt (0x8000 + 8 * k) 0x80 32   -- GLB_SPE_ROWS(e) .. GLB_SPE_DUP(e)

/-- The HQ block (R293). -/
def hqRows : List RegRow :=
  [rowRw 0x00100000 4 1 0x7F 0 0x4C,                       -- HQ_EQ_CTRL: size_log 6, notice 1
   rowView 0x00100004 4 1 false,                           -- HQ_EQ_PTR
   rowRw64 0x00100008 8 1 0xFFFFFFFFFFFFF000 0,            -- HQ_EQ_BASE
   rowCnt 0x00100010 8 1,                                  -- HQ_EQ_LOST
   rowRw (ringReg 0 0x00) 0x100 32 0x7FFFFD 0 0x46C,       -- HQ_SQ_CTRL(n): prio 3, size_log 6, notice 1
   rowView (ringReg 0 0x04) 0x100 32 false,                -- HQ_SQ_STAT(n)
   rowRw (ringReg 0 0x08) 0x100 32 0xFFFFFFFF 0 0xFFFFFFFF,-- HQ_SQ_FACETS(n)
   rowRw (ringReg 0 0x0C) 0x100 32 0xFFFF 0 100,           -- HQ_CQ_IDLE(n)
   rowRw64 (ringReg 0 0x10) 0x100 32 0xFFFFFFFFFFFFF000 0, -- HQ_SQ_BASE(n)
   rowRw64 (ringReg 0 0x18) 0x100 32 0xFFFFFFFFFFFFF000 0, -- HQ_CQ_BASE(n)
   rowView (ringReg 0 0x20) 0x100 32 false,                -- HQ_SQ_PTR(n)
   rowView (ringReg 0 0x24) 0x100 32 false,                -- HQ_CQ_PTR(n)
   rowView (ringReg 0 0x28) 0x100 32 false,                -- HQ_MBOX_STAT(n)
   rowView (ringReg 0 0x30) 0x100 32 true,                 -- HQ_MBOX(n)
   rowRw64 (ringReg 0 0x38) 0x100 32 0x0000FFFFFFE00000 0, -- HQ_SAVE_BASE(n)
   rowRw64 (ringReg 0 0x40) 0x100 32 0xFFFFFFFFFFFFFFFF 0, -- HQ_LIM_BASE(n, s)
   rowRw64 (ringReg 0 0x50) 0x100 32 0xFFFFFFFFFFFFFFFF 0,
   rowRw64 (ringReg 0 0x60) 0x100 32 0xFFFFFFFFFFFFFFFF 0,
   rowRw64 (ringReg 0 0x70) 0x100 32 0xFFFFFFFFFFFFFFFF 0,
   rowRw64 (ringReg 0 0x48) 0x100 32 0xFFFFFFFFFFFFFFFF 524288,      -- HQ_LIM_END(n, s)
   rowRw64 (ringReg 0 0x58) 0x100 32 0xFFFFFFFFFFFFFFFF 0x0F000000,
   rowRw64 (ringReg 0 0x68) 0x100 32 0xFFFFFFFFFFFFFFFF 0x1000000000000,
   rowRw64 (ringReg 0 0x78) 0x100 32 0xFFFFFFFFFFFFFFFF 0x200000000000000,
   rowCnt (ringReg 0 0x80) 0x100 32]                       -- HQ_JOBS(n)

/-- The HLS block (R431). -/
def hlsRows : List RegRow :=
  [rowRw 0x00200000 4 1 0x1F 0 1,                          -- HLS_CTRL (recal is kept in the power state)
   rowView 0x00200004 4 1 false,                           -- HLS_STATE_CTRL
   rowRw 0x00200008 4 1 0xFFFFFFFF 0 0x0064000A,           -- HLS_IDLE: doze_us 10, dormant_ms 100
   rowRw 0x0020000C 4 1 0x3FF 0 700,                       -- HLS_CAP
   rowView 0x00200010 4 1 false,                           -- HLS_CAP_EFF
   rowRw 0x00200014 4 1 0xFFFF 0 0x3232,                   -- HLS_SLEW: 50, 50
   rowRw 0x00200018 4 1 0xFF7F 0 0x8028,                   -- HLS_DROOP_CTRL: threshold_mv 40, hold 128
   rowRw 0x0020001C 4 1 0xFFFF 0 0x695F,                   -- HLS_THERM_CTRL: throttle 95, crit 105
   rowView 0x00200020 4 3 false,                           -- HLS_STAT, HLS_TEMP, HLS_POWER
   rowView 0x0020002C 4 1 false,                           -- HLS_CNT_CLR
   rowView 0x00200030 4 4 false,                           -- HLS_OP_STAT(i)
   rowCnt 0x00200040 8 7,                                  -- HLS_ENERGY .. HLS_POOL_FLOORS
   rowRw 0x00200100 4 1 0x3FFFFFFF 0 0x0A000000,           -- HLS_POOL_CTRL: round_beats 10
   rowRw 0x00200104 4 1 0xFFFF 0 0,                        -- HLS_POOL_BUDGET
   rowView 0x00200108 4 1 false,                           -- HLS_POOL_STAT
   rowRw 0x00200140 4 16 0xFFF 0 2600]                     -- HLS_POOL_FLOOR(i)

/-- The CFG block (R399). -/
def cfgRows : List RegRow :=
  [rowView 0x00300000 4 6 false,                           -- CFG_EPOCH_*, CFG_TAG_*
   rowRw 0x00300018 4 1 0xFFFFF 0 0x8040,                  -- CFG_EPOCH_CTRL: retire_beats 64, tag_wait_beats 8
   rowView 0x0030001C 4 1 false,                           -- CFG_STAGE_CTRL
   rowRw 0x00300020 4 1 0xFFFFFFFF 0 0,                    -- CFG_STAGE_EPOCH
   rowRw 0x00300024 4 1 0x3FFFFFF 0 0,                     -- CFG_STAGE_OFFSET
   rowView 0x00300028 8 1 true,                            -- CFG_STAGE_VALUE
   rowRw64 0x00300030 8 1 0xFFFFFFFFFFFFFFFF 0,            -- CFG_STAGE_TIME
   rowView 0x00300038 8 1 true,                            -- CFG_ARM_TIME
   rowView 0x00300040 4 8 false,                           -- CFG_DIGESTn
   rowView 0x00300060 4 6 false,                           -- CFG_PEER_STAT(p)
   rowRw 0x00300078 4 1 0 0x1000 0,                        -- CFG_TAG_LOG
   rowView 0x0030007C 4 1 false,                           -- CFG_CNT_CLR
   rowRw 0x00300080 4 1 0x3FFF 0 100,                      -- CFG_BEAT
   rowCnt 0x003000C0 8 3,                                  -- CFG_APPLIED, CFG_TAG_REFUSED, CFG_PEER_EVENTS
   rowView 0x003000D8 8 1 true,                            -- CFG_PREG_WORN
   rowView 0x00301000 8 64 true,                           -- CFG_PREG(i)
   rowView 0x00301200 4 64 false]                          -- CFG_PREG_WEAR(i)

/-- The NRN block (R378). -/
def nrnRows : List RegRow :=
  [rowRw (portReg 0 0x00) 0x10000 6 0x7F 0 0x78,           -- NRN_PORT_CTRL: lanes_allowed 0xF
   rowView (portReg 0 0x04) 0x10000 6 false,               -- NRN_PORT_STAT
   rowRw (portReg 0 0x08) 0x10000 6 0xFFFFF 0 0x44000,     -- NRN_LANE_LIMIT: 16,384 and 4
   rowView (portReg 0 0x0C) 0x10000 6 false] ++            -- NRN_PORT_CNT_CLR
  ((List.range 7).map fun k => rowCnt (portReg 0 (0x40 + 8 * k)) 0x10000 6) ++   -- NRN_TX_FLITS .. NRN_BAD_MSG
  ((List.range 4).map fun l => rowCnt (portReg 0 (0x80 + 8 * l)) 0x10000 6) ++   -- NRN_LANE_SYM(l)
  [rowRw 0x00460000 4 1 0xFFFFFF 0 0,                      -- NRN_TOPO
   rowRw 0x00460004 4 1 0xFFFF7FFF 0 0x01F400C8,           -- NRN_ROUTE_CTRL: down_limit_us 200, resp_timeout_us 500
   rowRw 0x00460008 4 1 0x1FF 0 0x14,                      -- NRN_TIME_CTRL: period_us 10
   rowView 0x0046000C 4 1 false,                           -- NRN_TIME_STAT
   rowView 0x00460010 4 1 false,                           -- NRN_CNT_CLR
   rowView 0x00460018 8 2 true,                            -- NRN_TIME_NOW, NRN_TIME_OFFSET
   rowCnt 0x00460040 8 6]                                  -- NRN_FWD .. NRN_JOBEND_LOST

/-- The SMC, SHM, SYN, COL, PLX and UAR blocks (R254, R341, R317, R449, R156, R478). -/
def baseRows : List RegRow :=
  [rowRw 0x00500000 4 1 0 0x10 0,                          -- SMC_ECC_LOG
   rowView 0x00500004 4 1 false,                           -- SMC_CNT_CLR
   rowCnt 0x00500008 8 1,                                  -- SMC_ECC_ADDR
   rowRw64 0x00500010 8 1 0x0000FFFFFFFFFFC0 0,            -- SMC_EXPORT_BASE
   rowRw64 0x00500018 8 1 0x0001FFFFFFFFFFC0 0,            -- SMC_EXPORT_LIMIT
   rowCnt 0x00500040 8 3,                                  -- SMC_CORRECTED, SMC_E2E_RETRY, SMC_UNCORR
   rowRw64 0x00500100 8 1 0x0000007FFFFF0000 0,            -- SMC_PT_BASE
   rowRw64 0x00500108 8 1 0x0000007FFFFFFFF8 0,            -- SMC_PHYS_ADDR
   rowView 0x00500110 8 1 true,                            -- SMC_PHYS_DATA
   rowView 0x00500118 4 1 false,                           -- SMC_TLB_INV
   rowRw 0x00600000 4 3 0xFFFFFFFF 0 0,                    -- SHM_PWR_MODE0 to SHM_PWR_MODE2
   rowRw 0x0060000C 4 1 0x00FFFFFF 0 0,                    -- SHM_PWR_MODE3: banks 60 to 63 are RO
   rowView 0x00600010 4 2 false,                           -- SHM_PWR_STATE_LO, _HI
   rowRw 0x00600018 4 1 0xFFFF 0 0x4000,                   -- SHM_IDLE
   rowRw 0x0060001C 4 1 0 0x80 0,                          -- SHM_OFF_LOG
   rowRw 0x00600020 4 1 0x0FFFFFC0 0 0,                    -- SHM_EXPORT_BASE
   rowRw 0x00600024 4 1 0x1FFFFFC0 0 0,                    -- SHM_EXPORT_LIMIT
   rowView 0x00600028 4 1 false,                           -- SHM_CNT_CLR
   rowView 0x00600030 4 2 false,                           -- SHM_WIN_OPEN_LO, _HI
   rowCnt 0x00600040 8 7,                                  -- SHM_OFFS .. SHM_CONFLICTS
   rowView 0x00700000 8 8192 true,                         -- SYN_CTR(c)
   rowView 0x00710000 8 1 true,                            -- SYN_HOST_ADD
   rowRw 0x00710008 4 1 0x1FFF 0 0,                        -- SYN_REMOTE_FIRST
   rowRw 0x0071000C 4 1 0x3FFF 0 0,                        -- SYN_REMOTE_COUNT
   rowView 0x00710010 4 1 false,                           -- SYN_CNT_CLR
   rowCnt 0x00710040 8 6,                                  -- SYN_OPS .. SYN_ALREADY
   rowRw 0x00800000 4 1 0xFFFFFFFF 0 0x0258181F,           -- COL_CTRL: en 1 1 1, max_par_m1 3, period_h 24, lag_s 600
   rowView 0x00800004 4 1 false,                           -- COL_STAT
   rowView 0x00800008 4 1 false,                           -- COL_REQUAL
   rowRw 0x0080000C 4 1 0 0x10 0,                          -- COL_REQUAL_STAT
   rowRw 0x00800010 4 1 0 0x800000 0,                      -- COL_LOG
   rowView 0x00800014 4 1 false,                           -- COL_CNT_CLR
   rowCnt 0x00800040 8 6,                                  -- COL_SLICES .. COL_WAIT_CYCLES
   rowRw 0x00900000 4 1 0x3FFF 0 0x819,                    -- PLX_CTRL: en 1, s 12, soft_log 0, hard_log 4
   rowRw 0x00900004 4 1 0xFFFFFFFF 0 0,                    -- PLX_SEED
   rowRw 0x00900008 4 1 0 0x20000000 0,                    -- PLX_LOG
   rowView 0x0090000C 4 1 false,                           -- PLX_CNT_CLR
   rowCnt 0x00900040 8 6,                                  -- PLX_SAMPLES .. PLX_HARD
   rowCnt 0x00900080 8 16,                                 -- PLX_RHO_HIST0 to 15
   rowView 0x00A00000 4 3 false,                           -- UAR_STAT, UAR_FW_CTRL, UAR_FW_STAT
   rowRw 0x00A0000C 4 1 0x0FFFFFC0 0 0,                    -- UAR_FW_SRC
   rowRw 0x00A00010 4 1 0x03FFFFFF 0 0,                    -- UAR_FW_LEN
   rowRw 0x00A00014 4 1 0x1FFF 0x18000 0,                  -- UAR_MBOX_CTRL: length; done, err; busy stored
   rowView 0x00A00018 4 1 false,                           -- UAR_CNT_CLR
   rowView 0x00A00020 8 1 true,                            -- UAR_SERIAL
   rowCnt 0x00A00040 8 4,                                  -- UAR_SESSIONS .. UAR_ACTIVATIONS
   rowView 0x00A00100 8 28 true,                           -- UAR_MEAS(i, k)
   rowView 0x00A00200 8 28 true,                           -- UAR_MEAS_PEND(i, k)
   rowView 0x00A01000 8 1024 true]                         -- UAR_MBOX

/-- The per-core block, as offsets from C (R58, R94, R156, R254, R317). -/
def coreRows : List RegRow :=
  [rowRw 0x0400 4 1 0xFF 0 0xA3,                           -- FCT_CTRL: occ_en 1, scrub_en 1, scrub_shift 8, refill_en 1
   rowView 0x0404 4 7 false,                               -- FCT_STATE_LO, _HI, FCT_ALLOC, FCT_FMT0 to 3
   rowRw 0x0420 4 1 0 0x100000 0,                          -- FCT_PARITY_LOG
   rowView 0x0428 4 1 false,                               -- FCT_CNT_CLR
   rowCnt 0x0440 8 10,                                     -- FCT_VECTORS .. FCT_PARITY_ERRS
   rowView 0x0500 4 8 false,                               -- ACM_LIVE0 to 7
   rowRw 0x0520 4 1 0 0x40000 0,                           -- ACM_SAT_LOG
   rowView 0x0528 4 1 false,                               -- ACM_CNT_CLR
   rowCnt 0x0540 8 7,                                      -- ACM_COMMITS .. ACM_TRANSIT_DUP
   rowView 0x0600 4 1 false,                               -- CORE_REF_STRIKE
   rowView 0x0608 4 1 false,                               -- CORE_REF_CNT_CLR
   rowCnt 0x0640 8 3,                                      -- CORE_REF_BUSY, _TREES, _CHECK_CYCLES
   rowView 0x0700 4 1 false,                               -- CORE_MEM_CNT_CLR
   rowCnt 0x0740 8 5,                                      -- CORE_MEM_TAG_WAIT .. CORE_MEM_ECC_CORR
   rowView 0x0780 8 8 true,                                -- CORE_TASK_BASE(s), CORE_TASK_BOUND(s)
   rowView 0x0800 4 1 false,                               -- CORE_SEQ_STAT
   rowView 0x0804 4 1 false,                               -- CORE_SEQ_CNT_CLR
   rowView 0x0808 8 1 true,                                -- CORE_SEQ_X
   rowCnt 0x0840 8 5]                                      -- CORE_SEQ_ISSUED .. CORE_SEQ_FENCE

/-- Whether a row holds the register at off. -/
def RegRow.covers (r : RegRow) (off : Nat) : Bool :=
  decide (r.base ≤ off) && decide ((off - r.base) % r.stride = 0) && decide ((off - r.base) / r.stride < r.count)

/-- Whether BAR0 offset off lies in the per-core blocks, and of which core, at which offset of its block (R503). -/
def coreOffset (off : Nat) : Option (Nat × Nat) :=
  if 0x01000000 ≤ off ∧ off < 0x02000000 then some ((off - 0x01000000) / 0x2000, (off - 0x01000000) % 0x2000) else none

/-- The rows of the block that holds off (R502), and the offset by which they are keyed. -/
def blockRows (off : Nat) : List RegRow × Nat :=
  match coreOffset off with
  | some (_, o) => (coreRows, o)
  | none =>
    let rows := match off / 0x100000 with
      | 0 => glbRows
      | 1 => hqRows
      | 2 => hlsRows
      | 3 => cfgRows
      | 4 => nrnRows
      | _ => baseRows
    (rows, off)

/-- The row of the register that starts at off; none where no register does (R504). -/
def regRow (off : Nat) : Option RegRow :=
  let (rows, o) := blockRows off
  rows.find? (·.covers o)

/-- The reset value of the register at off (R506). -/
def regReset (off : Nat) : Word64 := BitVec.ofNat 64 ((regRow off).elim 0 (·.reset))

end Sys2Proof.Machine
end

