-- ==== Sys2Proof/Machine/RegNames.lean ====
section
/-!
DEFINITION. Names for the BAR0 offsets of the registers that the meanings read, write or count in (R510). A name with an
argument gives the register of that core, engine, ring or port.
-/

namespace Sys2Proof.Machine.Reg

def GLB_EXP_CTRL : Nat := 0x2000
def GLB_EXP_RESTORE_LOG : Nat := 0x2004
def GLB_EXP_COLD : Nat := 0x2040
def GLB_EXP_CLIPS : Nat := 0x2048
def GLB_EXP_BAD_REC : Nat := 0x2050
def GLB_CONV_OVF : Nat := 0x2058
def GLB_CONV_NAN : Nat := 0x2060
def GLB_BLK_NONFINITE : Nat := 0x2068
def GLB_SR_VALUES : Nat := 0x2070
def GLB_SPE_CTRL : Nat := 0x3000
def SPE_ROWS (e : Nat) : Nat := speReg e 0x00
def SPE_HOT (e : Nat) : Nat := speReg e 0x08
def SPE_OOR (e : Nat) : Nat := speReg e 0x10
def SPE_QFULL (e : Nat) : Nat := speReg e 0x18
def SPE_BAGS (e : Nat) : Nat := speReg e 0x20
def SPE_NNZ (e : Nat) : Nat := speReg e 0x28
def SPE_DENSE (e : Nat) : Nat := speReg e 0x30
def SPE_UPD_ROWS (e : Nat) : Nat := speReg e 0x38
def SPE_DUP (e : Nat) : Nat := speReg e 0x40
def GLB_RES_LOG0 : Nat := 0x4000
def GLB_RES_LOG1 : Nat := 0x4004
def GLB_RES_LOG2 : Nat := 0x4008
def GLB_RES_OFFSET : Nat := 0x4010
def GLB_RES_LIMIT : Nat := 0x4018
def GLB_RES_FAULTS : Nat := 0x4040
def GLB_CMD_LOG0 : Nat := 0x5000
def GLB_CMD_LOG1 : Nat := 0x5004
def GLB_CMD_LOG2 : Nat := 0x5008
def GLB_CMD_REFUSALS : Nat := 0x5040
def GLB_FLT_CTRL : Nat := 0x6000
def GLB_JNL_CTRL : Nat := 0x6004
def GLB_FAULT_STAT : Nat := 0x6010
def GLB_CONTAINED : Nat := 0x6040
def GLB_REPLAYS : Nat := 0x6048
def GLB_JNL_OVERFLOW : Nat := 0x6050
def GLB_PAGE_REQS : Nat := 0x6058
def GLB_PAGE_FAILS : Nat := 0x6060
def GLB_LOST : Nat := 0x6068
def GLB_PCIE_RETRAINS : Nat := 0x7040
def GLB_PCIE_DEGRADES : Nat := 0x7048
def HQ_EQ_CTRL : Nat := 0x00100000
def HQ_EQ_PTR : Nat := 0x00100004
def HQ_EQ_BASE : Nat := 0x00100008
def HQ_EQ_LOST : Nat := 0x00100010
def HQ_SQ_CTRL (n : Nat) : Nat := ringReg n 0x00
def HQ_SQ_STAT (n : Nat) : Nat := ringReg n 0x04
def HQ_SQ_FACETS (n : Nat) : Nat := ringReg n 0x08
def HQ_CQ_IDLE (n : Nat) : Nat := ringReg n 0x0C
def HQ_SQ_BASE (n : Nat) : Nat := ringReg n 0x10
def HQ_CQ_BASE (n : Nat) : Nat := ringReg n 0x18
def HQ_MBOX_STAT (n : Nat) : Nat := ringReg n 0x28
def HQ_MBOX (n : Nat) : Nat := ringReg n 0x30
def HQ_SAVE_BASE (n : Nat) : Nat := ringReg n 0x38
def HQ_LIM_BASE (n sp : Nat) : Nat := ringReg n (0x40 + 0x10 * sp)
def HQ_LIM_END (n sp : Nat) : Nat := ringReg n (0x48 + 0x10 * sp)
def HQ_JOBS (n : Nat) : Nat := ringReg n 0x80
def HLS_CTRL : Nat := 0x00200000
def HLS_STATE_CTRL : Nat := 0x00200004
def HLS_IDLE : Nat := 0x00200008
def HLS_CAP : Nat := 0x0020000C
def HLS_SLEW : Nat := 0x00200014
def HLS_DROOP_CTRL : Nat := 0x00200018
def HLS_THERM_CTRL : Nat := 0x0020001C
def HLS_ENERGY : Nat := 0x00200040
def HLS_DROOPS : Nat := 0x00200048
def HLS_THROTTLE_US : Nat := 0x00200050
def HLS_BALLAST_CYCLES : Nat := 0x00200058
def HLS_OP_CHANGES : Nat := 0x00200060
def HLS_POOL_ROUNDS : Nat := 0x00200068
def HLS_POOL_FLOORS : Nat := 0x00200070
def HLS_POOL_CTRL : Nat := 0x00200100
def HLS_POOL_BUDGET : Nat := 0x00200104
def HLS_POOL_FLOOR (i : Nat) : Nat := 0x00200140 + 4 * i
def CFG_EPOCH_CTRL : Nat := 0x00300018
def CFG_STAGE_CTRL : Nat := 0x0030001C
def CFG_STAGE_EPOCH : Nat := 0x00300020
def CFG_STAGE_OFFSET : Nat := 0x00300024
def CFG_STAGE_VALUE : Nat := 0x00300028
def CFG_STAGE_TIME : Nat := 0x00300030
def CFG_TAG_LOG : Nat := 0x00300078
def CFG_BEAT : Nat := 0x00300080
def CFG_APPLIED : Nat := 0x003000C0
def CFG_TAG_REFUSED : Nat := 0x003000C8
def CFG_PEER_EVENTS : Nat := 0x003000D0
def CFG_PREG (i : Nat) : Nat := 0x00301000 + 8 * i
def NRN_PORT_CTRL (p : Nat) : Nat := portReg p 0x00
def NRN_LANE_LIMIT (p : Nat) : Nat := portReg p 0x08
def NRN_TX_FLITS (p : Nat) : Nat := portReg p 0x40
def NRN_RX_FLITS (p : Nat) : Nat := portReg p 0x48
def NRN_CRC_ERRS (p : Nat) : Nat := portReg p 0x50
def NRN_RETRIES (p : Nat) : Nat := portReg p 0x58
def NRN_RETRAINS (p : Nat) : Nat := portReg p 0x60
def NRN_FEC_UNCORR (p : Nat) : Nat := portReg p 0x68
def NRN_BAD_MSG (p : Nat) : Nat := portReg p 0x70
def NRN_LANE_SYM (p l : Nat) : Nat := portReg p (0x80 + 8 * l)
def NRN_TOPO : Nat := 0x00460000
def NRN_ROUTE_CTRL : Nat := 0x00460004
def NRN_TIME_CTRL : Nat := 0x00460008
def NRN_FWD : Nat := 0x00460040
def NRN_UNREACH : Nat := 0x00460048
def NRN_LATE_RSP : Nat := 0x00460050
def NRN_XT_BUSY : Nat := 0x00460058
def NRN_TIME_STEPS : Nat := 0x00460060
def NRN_JOBEND_LOST : Nat := 0x00460068
def SMC_ECC_LOG : Nat := 0x00500000
def SMC_ECC_ADDR : Nat := 0x00500008
def SMC_EXPORT_BASE : Nat := 0x00500010
def SMC_EXPORT_LIMIT : Nat := 0x00500018
def SMC_CORRECTED : Nat := 0x00500040
def SMC_E2E_RETRY : Nat := 0x00500048
def SMC_UNCORR : Nat := 0x00500050
def SMC_PT_BASE : Nat := 0x00500100
def SMC_PHYS_ADDR : Nat := 0x00500108
def SMC_PHYS_DATA : Nat := 0x00500110
def SMC_TLB_INV : Nat := 0x00500118
def SHM_PWR_MODE (n : Nat) : Nat := 0x00600000 + 4 * n
def SHM_IDLE : Nat := 0x00600018
def SHM_OFF_LOG : Nat := 0x0060001C
def SHM_EXPORT_BASE : Nat := 0x00600020
def SHM_EXPORT_LIMIT : Nat := 0x00600024
def SHM_OFFS : Nat := 0x00600040
def SHM_WAKES : Nat := 0x00600048
def SHM_REFUSED : Nat := 0x00600050
def SHM_CONFLICTS : Nat := 0x00600070
def SHM_BAR4_DENIED : Nat := 0x00600058
def SHM_ECC_CORR : Nat := 0x00600060
def SHM_ECC_UNCORR : Nat := 0x00600068
def SYN_CTR (c : Nat) : Nat := 0x00700000 + 8 * c
def SYN_REMOTE_FIRST : Nat := 0x00710008
def SYN_REMOTE_COUNT : Nat := 0x0071000C
def SYN_OPS : Nat := 0x00710040
def SYN_REMOTE_IN : Nat := 0x00710048
def SYN_REMOTE_REFUSED : Nat := 0x00710050
def SYN_DEDUP : Nat := 0x00710058
def SYN_CLAIMS : Nat := 0x00710060
def SYN_ALREADY : Nat := 0x00710068
def COL_CTRL : Nat := 0x00800000
def COL_REQUAL_STAT : Nat := 0x0080000C
def COL_LOG : Nat := 0x00800010
def COL_SLICES : Nat := 0x00800040
def COL_FAILS : Nat := 0x00800048
def COL_TRANSIENTS : Nat := 0x00800050
def COL_ABANDONED : Nat := 0x00800058
def COL_CYCLES : Nat := 0x00800060
def COL_WAIT_CYCLES : Nat := 0x00800068
def PLX_CTRL : Nat := 0x00900000
def PLX_SEED : Nat := 0x00900004
def PLX_LOG : Nat := 0x00900008
def PLX_SAMPLES : Nat := 0x00900040
def PLX_SKIPPED : Nat := 0x00900048
def PLX_NOREF : Nat := 0x00900050
def PLX_SOFT : Nat := 0x00900058
def PLX_HARD_DATA : Nat := 0x00900060
def PLX_HARD : Nat := 0x00900068
def PLX_RHO_HIST (i : Nat) : Nat := 0x00900080 + 8 * i
def UAR_FW_SRC : Nat := 0x00A0000C
def UAR_FW_LEN : Nat := 0x00A00010
def UAR_MBOX_CTRL : Nat := 0x00A00014
def UAR_SESSIONS : Nat := 0x00A00040
def UAR_AUTH_FAILS : Nat := 0x00A00048
def UAR_TAMPERS : Nat := 0x00A00050
def UAR_ACTIVATIONS : Nat := 0x00A00058
def FCT_CTRL (c : Nat) : Nat := coreReg c 0x400
def FCT_PARITY_LOG (c : Nat) : Nat := coreReg c 0x420
def FCT_VECTORS (c : Nat) : Nat := coreReg c 0x440
def FCT_SUBCYCLES (c : Nat) : Nat := coreReg c 0x448
def FCT_SKIPPED (c : Nat) : Nat := coreReg c 0x450
def FCT_SPLITS (c : Nat) : Nat := coreReg c 0x458
def FCT_WAKES (c : Nat) : Nat := coreReg c 0x460
def FCT_WAKE_GROUPS (c : Nat) : Nat := coreReg c 0x468
def FCT_BUBBLES (c : Nat) : Nat := coreReg c 0x470
def FCT_FP4_ADJ (c : Nat) : Nat := coreReg c 0x478
def FCT_SCRUB_ROWS (c : Nat) : Nat := coreReg c 0x480
def FCT_PARITY_ERRS (c : Nat) : Nat := coreReg c 0x488
def ACM_SAT_LOG (c : Nat) : Nat := coreReg c 0x520
def ACM_COMMITS (c : Nat) : Nat := coreReg c 0x540
def ACM_DISCARDS (c : Nat) : Nat := coreReg c 0x548
def ACM_SAT_EVENTS (c : Nat) : Nat := coreReg c 0x550
def ACM_RESCALES (c : Nat) : Nat := coreReg c 0x558
def ACM_LAPSES (c : Nat) : Nat := coreReg c 0x560
def ACM_CONFLICTS (c : Nat) : Nat := coreReg c 0x568
def ACM_TRANSIT_DUP (c : Nat) : Nat := coreReg c 0x570
def REF_BUSY (c : Nat) : Nat := coreReg c 0x640
def REF_TREES (c : Nat) : Nat := coreReg c 0x648
def REF_CHECK_CYCLES (c : Nat) : Nat := coreReg c 0x650
def MEM_TAG_WAIT (c : Nat) : Nat := coreReg c 0x740
def MEM_WCOLL (c : Nat) : Nat := coreReg c 0x748
def MEM_SB_HOLDS (c : Nat) : Nat := coreReg c 0x750
def MEM_CONFLICTS (c : Nat) : Nat := coreReg c 0x758
def MEM_ECC_CORR (c : Nat) : Nat := coreReg c 0x760
def SEQ_ISSUED (c : Nat) : Nat := coreReg c 0x840
def SEQ_STARVE (c : Nat) : Nat := coreReg c 0x848
def SEQ_WAIT (c : Nat) : Nat := coreReg c 0x850
def SEQ_SKIPPED (c : Nat) : Nat := coreReg c 0x858
def SEQ_FENCE (c : Nat) : Nat := coreReg c 0x860

end Sys2Proof.Machine.Reg
end

