-- ==== Sys2Proof/Machine/Sparse.lean ====
section
/-!
DEFINITION. Sparse maps keyed by Nat, as plain data in one canonical form: keys strictly rising, and no entry equal to
what an unlisted key reads as (the map's default). Memories, register files, facets, rows, counters and cores are held
this way, so that equal contents are equal data.
-/

namespace Sys2Proof.Machine

/-- A sparse map: (key, value) pairs. A byte memory is a Sparse Byte, which is a list of Host.Cell. -/
abbrev Sparse (α : Type) := List (Nat × α)

/-- The value at key k; d is what an unlisted key reads as. -/
def Sparse.get {α : Type} (d : α) : Sparse α → Nat → α
  | [], _ => d
  | (k', v) :: m, k => if k = k' then v else if k < k' then d else Sparse.get d m k

/-- Sets key k to v, keeping the keys rising and dropping the entry when v is the default d. -/
def Sparse.set {α : Type} [DecidableEq α] (d : α) : Sparse α → Nat → α → Sparse α
  | [], k, v => if v = d then [] else [(k, v)]
  | (k', v') :: m, k, v =>
    if k = k' then (if v = d then m else (k, v) :: m)
    else if k < k' then (if v = d then (k', v') :: m else (k, v) :: (k', v') :: m)
    else (k', v') :: Sparse.set d m k v

/-- Every key of the map is above lo (none: no bound). -/
def Sparse.above {α : Type} (lo : Nat) : Sparse α → Bool
  | [] => true
  | (k, _) :: _ => decide (lo < k)

/-- The canonical form: keys strictly rising, no entry equal to the default. -/
def Sparse.wf {α : Type} [DecidableEq α] (d : α) : Sparse α → Bool
  | [] => true
  | (k, v) :: m => Sparse.above k m && decide (v ≠ d) && Sparse.wf d m

/-- The map with every key for which p holds taken out (it then reads as the default). -/
def Sparse.drop {α : Type} (p : Nat → Bool) (m : Sparse α) : Sparse α :=
  m.filter fun kv => !p kv.1

/-- Sets n keys from k on to the values of a list, in order. -/
def Sparse.setList {α : Type} [DecidableEq α] (d : α) (m : Sparse α) (k : Nat) : List α → Sparse α
  | [] => m
  | v :: vs => Sparse.setList d (Sparse.set d m k v) (k + 1) vs

/-- The n values from key k on. -/
def Sparse.getList {α : Type} (d : α) (m : Sparse α) (k n : Nat) : List α :=
  (List.range n).map fun i => Sparse.get d m (k + i)

/-- A byte memory whose unlisted bytes read 0, in canonical form. -/
abbrev Memory.wf (m : Sparse Byte) : Bool := Sparse.wf (0 : Byte) m

end Sys2Proof.Machine
end

