-- ==== Sys2Proof/Machine/State.lean ====
section
/-!
DEFINITION. The state of the device as plain data, and the state after reset (power-up with blank fuses, blank flash and
empty stores; the log names every value that the spec does not give). Registers that only store live in regs, keyed by
their BAR0 offset (Machine/RegMap.lean); every other register of the map is a view of a field below.
-/

namespace Sys2Proof.Machine

/-- Device states (R7). -/
inductive DevState where
  | run | doze | dormant
deriving DecidableEq, Repr

/-- Facet states (R48), in the order of FCT_STATE's codes. -/
inductive FacetState where
  | empty | loaded | stale | faulty
deriving DecidableEq, Repr

/-- What the code of a memory word or slot says when it is next read: of a 64-bit word of core or shared memory good,
single or double (R253); of a 64-byte slot of stacked memory good, corrected, retry (the first read fails, the second
passes), codeBad or reportBad (both reads fail) or poisoned (R252). -/
inductive Ecc where
  | good | single | double | corrected | retry | codeBad | reportBad | poisoned
deriving DecidableEq, Repr

/-- The load record of a facet (R46). -/
structure LoadRec where
  src : Word64
  pitch : Nat
  fmt : Nat
  rowFirst : Nat
  rowCount : Nat
  scale : Word64
  blk : Nat
  zeroFrom : Nat
  zeroed : Bool
  lowZero : Bool
deriving DecidableEq, Repr

/-- A scrub finding that waits for its refill write (R50, R51): the row, or 1,024 + the column of an exponent-store entry. -/
structure Refill where
  row : Nat
  segment : Nat
  lastClean : Nat
deriving DecidableEq, Repr

/-- One facet (R16 to R18, R46 to R53). -/
structure Facet where
  state : FacetState
  fmt : BitVec 4
  rows : Sparse RowImage
  rowParity : Sparse Byte
  colExp : Sparse Byte
  offsets : Sparse (BitVec 3)
  expParity : Sparse Bool
  record : Option LoadRec
  marks : List Nat
  expMarks : List Nat
  lastClean : Sparse Nat
  refills : List Refill
deriving DecidableEq, Repr

/-- A facet after reset (R48): EMPTY, INT4, every row and exponent zero, whose even parity is 0. -/
def Facet.reset : Facet :=
  { state := .empty, fmt := 2, rows := [], rowParity := [], colExp := [], offsets := [], expParity := [], record := none
    marks := [], expMarks := [], lastClean := [], refills := [] }

/-- The task record (R218): base and bound of CORE, SHARED, STACKED and HOST. -/
structure TaskRec where
  coreBase : Nat
  coreBound : Nat
  shBase : Nat
  shBound : Nat
  stBase : Nat
  stBound : Nat
  hoBase : Nat
  hoBound : Nat
deriving DecidableEq, Repr

/-- The task record when a job starts on a core (R218). -/
def TaskRec.initial : TaskRec := ⟨0, 524288, 0, 0, 0, 0, 0, 0⟩

/-- The task record after reset (R254). -/
def TaskRec.reset : TaskRec := ⟨0, 0, 0, 0, 0, 0, 0, 0⟩

/-- A pending parallax check (R145 to R147): what the drain captured, and the command it came from. -/
structure Check where
  job : Nat
  seq : Nat
  firet : Bool
  facet : Nat
  vector : Nat
  valid : Bool
  kRows : Nat
  nOut : Nat
  afmt : Nat
  elems : List Int
  runs : List Int
  exp : Int
  zpRef : Nat
  refFmt : Nat
  refs : List Nat
  rows : List Nat
  plx : Word64
  forced : Bool
  urgent : Bool
deriving DecidableEq, Repr

/-- The last anchor that a core issued since its last commit point (R80): the command, its slot, the task record, X and
strides that stood before it issued (R81 re-runs the group with them), and the tile rows that TRANSITs issued since then
receive into. -/
structure Anchor where
  seq : Nat
  slot : Option Nat
  task : TaskRec
  x : Nat
  xExhausted : Bool
  xAlready : Bool
  sRd : Nat
  sWr : Nat
  rows : List Nat
deriving DecidableEq, Repr

/-- A rescale group of a core (R80, R81): its anchor, its tile rows, how often it was re-run, whether a row overflowed, and
the issued command whose commit point ends it. -/
structure RescaleGroup where
  anchor : Anchor
  rows : List Nat
  rho : Nat
  overflow : Bool
  closing : Option Nat
deriving DecidableEq, Repr

/-- A message in a core's transit receive buffer or in the staging store (R92, R368). -/
structure StagedTransit where
  core : Nat
  chain : Nat
  tseq : Nat
  rows : List TileRow
deriving DecidableEq, Repr

/-- The sequencer's state (CORE_SEQ_STAT, R317). -/
inductive SeqState where
  | idle | running | waiting | preempted
deriving DecidableEq, Repr

/-- An issued tile command that is not complete (R208). From its issue: the command, the task record and claim strides in
force (R221, R299), PLX_CTRL and PLX_SEED (R144, R156), the pass exponent of a slot that it names (R110, R116), whether it writes through a
window or sends a remote SYNC (R303), the bytes it
has still to read and to write in each core-memory slot (R230; the key is 8,192 · core + slot), the slots that it takes
(R226), the tile rows it names (R86), the bytes it has still to access in each shared-memory bank it books (R238), when it
issued (R157), and once the sparse engine takes it the banks of its hot range. Of its run: whether it has started, when it last made progress (R320), what each access made so far gave, in order (so that a command
that had to wait goes on where it stopped, R335), how many of those this run has passed, how many accesses stood when its
last bag was whole (R336), the bytes completed of each operand (R334), the slots that it
has written in a mode that leaves FULL (R226), the tile rows that it has done with (R86), whether it
waits on a tag (R227), whether the scoreboard or a tile row has held it (R86, R230), and whether its work is done and only its
commit point is awaited (R153). -/
structure Issued where
  cmd : Instr
  seq : Nat
  task : TaskRec
  x : Nat
  sRd : Nat
  sWr : Nat
  plx : Word64
  plxSeed : Word64
  exp : Option Int
  remote : Bool
  reads : Sparse Nat
  writes : Sparse Nat
  takes : List Nat
  rows : List Nat
  banks : Sparse Nat
  hot : List Nat
  issuedAt : Nat
  started : Bool
  since : Nat
  log : List (List Nat)
  cursor : Nat
  mark : Nat
  bytes : Sparse Nat
  filled : List Nat
  rowsDone : List Nat
  onTag : Bool
  sbHeld : Bool
  rowHeld : Bool
  done : Bool
deriving DecidableEq, Repr

/-- A command that the dispatch unit has brought to a command buffer: its 32 bytes and its parameter records (R294, R298). -/
structure Fetched where
  word : BitVec 256
  rec0 : BitVec 256
  rec1 : BitVec 256
deriving DecidableEq, Repr

/-- One core: facets, ACM, memory, task record, sequencer, refractor check (R60 to R70, R145, R218, R225, R299). Its command
buffer holds the commands from list position nextSeq on (R294); scrubDue says that a scrub read is due (R49). -/
structure Core where
  job : Nat
  seqState : SeqState
  nextSeq : Nat
  buffer : List Fetched
  skip : Nat
  issued : List Issued
  lastCycles : Nat
  x : Nat
  xExhausted : Bool
  xAlready : Bool
  sRd : Nat
  sWr : Nat
  waitOn : Option WaitArgs
  phaseOp : Option (BitVec 3)
  ballast : Option BallastArgs
  task : TaskRec
  facets : Sparse Facet
  strikes : BitVec 32
  check : Option Check
  group : Option RescaleGroup
  lastAnchor : Option Anchor
  acm : Sparse Word32
  acmWord : Sparse Word32
  acmParity : Sparse Bool
  live : BitVec 256
  dirty : Sparse (List Nat)
  chains : List (Nat × Nat)
  rxBuf : List StagedTransit
  mem : Sparse Byte
  full : Sparse Bool
  ecc : Sparse Ecc
  scrubFacet : Nat
  scrubRow : Nat
  scrubDue : Bool
deriving DecidableEq, Repr

/-- A core after reset: idle, every facet EMPTY, ACM and core memory zero, every slot EMPTY, live bits 0. -/
def Core.reset : Core :=
  { job := 0, seqState := .idle, nextSeq := 0, buffer := [], skip := 0, issued := [], lastCycles := 0, x := 0, xExhausted := false, xAlready := false
    sRd := 0, sWr := 0, waitOn := none, phaseOp := none, ballast := none, task := TaskRec.reset, facets := []
    strikes := 0, check := none, group := none, lastAnchor := none, acm := [], acmWord := [], acmParity := []
    live := 0, dirty := [], chains := [], rxBuf := [], mem := [], full := [], ecc := [], scrubFacet := 0, scrubRow := 0
    scrubDue := false }

/-- One exposure slot (R111, R120); coldH none is auto. -/
structure ExpoSlot where
  hist : List Int
  valid : Nat
  head : Nat
  headroom : Nat
  carry : Nat
  coldH : Option Int
  updated : Nat
deriving DecidableEq, Repr

/-- A slot after reset (R111). -/
def ExpoSlot.reset : ExpoSlot :=
  { hist := List.replicate 16 0, valid := 0, head := 0, headroom := 0, carry := 0, coldH := none, updated := 0 }

/-- A slot frozen by a job (R114, R117): its exposure, whether an anchor named it, and the retries of its groups. -/
structure Frozen where
  slot : Nat
  eJob : Int
  cold : Bool
  anchored : Bool
  retries : Nat
deriving DecidableEq, Repr

/-- What an anchor has observed of a slot in one pass (R117): its core, its sequence number, the slot, the greatest h. -/
structure Observed where
  core : Nat
  seq : Nat
  slot : Nat
  h : Int
deriving DecidableEq, Repr

/-- The completion status codes (R279). -/
inductive Status where
  | ok | badDesc | badCmd | resource | acmRange | acmMode | badTile | facetFault | parallaxHard | bankOff | memUncorr
  | pageFault | tagMismatch | replayLimit | epochStale | aborted | lost
deriving DecidableEq, Repr

/-- The completion flags (R278, R280). -/
structure JobFlags where
  cold : Bool
  lapsed : Bool
  sat : Bool
  rescaled : Bool
  parallaxSoft : Bool
  replayed : Bool
  preempted : Bool
deriving DecidableEq, Repr

/-- No flag. -/
def JobFlags.none : JobFlags := ⟨false, false, false, false, false, false, false⟩

/-- A job descriptor after the version-1 rules of R291: the fields of R264. -/
structure Desc where
  version : Nat
  replay : Bool
  wake : Bool
  quiet : Bool
  order : Bool
  noPreempt : Bool
  opHint : BitVec 3
  hintValid : Bool
  tag : Word32
  listAddr : Word64
  coreFirst : Nat
  coreCount : Nat
  coreStride : Nat
  listStride : Nat
  cmdCount : Nat
  epoch : Word32
  startCtr : Nat
  startEn : Bool
  doneCtr : Nat
  doneEn : Bool
  startValue : Word64
  reserved : Bool
deriving DecidableEq, Repr

/-- Where a fetched job stands (R261, R267, R270, R272, R277, R321). -/
inductive JobPhase where
  | waiting | epochHeld | running | preempted | stopped | replaying
deriving DecidableEq, Repr

/-- One record of the job log (R323). -/
inductive JRec where
  | open_
  | exposure (slots : List (Nat × Int))
  | commit (core seq : Nat) (pairs : List Nat)
  | transit (core chain tseq : Nat) (rows : List TileRow)
  | sync (core seq : Nat) (old : Word64)
  | claim (core seq index : Nat) (exhausted already : Bool)
  | post (core seq : Nat) (old : Word64)
  | expo (core seq : Nat)
  | update (core seq : Nat) (rows : List (Nat × List Byte))
deriving DecidableEq, Repr

/-- A detector that fired, what its REPLAY record carries (R320, R340), and the vector of a parallax check (R150). -/
structure Contained where
  detector : Nat
  seq : Nat
  info : Nat
  vector : Nat
deriving DecidableEq, Repr

/-- One fetched job (R261 to R281). -/
structure Job where
  num : Nat
  ring : Nat
  idx : Nat
  desc : Desc
  phase : JobPhase
  status : Option Status
  flags : JobFlags
  faultCore : Nat
  faultSeq : Nat
  epoch : Nat
  frozen : List Frozen
  observed : List Observed
  replays : Nat
  journalOk : Bool
  journal : List JRec
  contained : Option Contained
  tagWait : Option (Nat × Nat)
  forceCheck : List (Nat × Nat × Nat)
  syncDevs : List Nat
  saved : List (Nat × Core)
  savedCmds : List Instr
deriving DecidableEq, Repr

/-- A submission ring, its completion ring and its mailbox (R255 to R263, R284, R293). -/
structure Ring where
  sqHead : Nat
  sqTail : Nat
  cqHead : Nat
  cqTail : Nat
  cqUsed : Nat
  phase : Bool
  stopped : Bool
  errDoorbell : Bool
  errFetch : Bool
  errCqHead : Bool
  saveFail : Bool
  aborting : Bool
  disabling : Bool
  mbox : List Word64
  mboxLast : Word64
  underrun : Bool
  overflow : Bool
  lastRecord : Nat
  noticed : Bool
  fetched : Nat
deriving DecidableEq, Repr

/-- A ring after reset: empty, phase 1 (R293). -/
def Ring.reset : Ring :=
  { sqHead := 0, sqTail := 0, cqHead := 0, cqTail := 0, cqUsed := 0, phase := true, stopped := false, errDoorbell := false
    errFetch := false, errCqHead := false, saveFail := false, aborting := false, disabling := false, mbox := [], mboxLast := 0
    underrun := false, overflow := false, lastRecord := 0, noticed := true, fetched := 0 }

/-- The event ring (R255, R288, R289). -/
structure EventRing where
  head : Nat
  tail : Nat
  used : Nat
  phase : Bool
  dropped : Nat
deriving DecidableEq, Repr

/-- One MSI-X vector (R482). -/
structure Vector_ where
  masked : Bool
  pending : Bool
deriving DecidableEq, Repr

/-- An open remote window (R246). -/
structure Window where
  job : Nat
  dev : DevNum
  stacked : Bool
  base : Nat
  size : Nat
  rd : Bool
  wr : Bool
deriving DecidableEq, Repr

/-- An outstanding page request (R334, R335). -/
structure PageReq where
  group : Nat
  host : Bool
  va : Nat
  write : Bool
  job : Nat
  core : Nat
  seq : Nat
  bytes : Nat
  tries : Nat
  raised : Nat
  answered : Bool
deriving DecidableEq, Repr

/-- Power of one shared-memory bank (R237 to R241): off from the off decision on. -/
inductive BankPower where
  | on | off | waking (since : Nat)
deriving DecidableEq, Repr

/-- A request that waits for its response (R365, R366). -/
structure Request where
  txn : Nat
  dst : DevNum
  job : Nat
  core : Nat
  seq : Nat
  offset : Nat
  sent : Nat
  payload : Payload
  op : Nat
  busy : Bool
  answer : Option (Nat × List Byte)
deriving DecidableEq, Repr

/-- An identity of the remote identity table (R316). -/
structure Identity where
  dev : DevNum
  job : Nat
  core : Nat
  seq : Nat
  old : Word64
deriving DecidableEq, Repr

/-- Port states (R378). -/
inductive PortState where
  | down | training | up | low | retrain
deriving DecidableEq, Repr

/-- A message in a port's queues: its header, its length in words, what it carries (R357, R359), and the virtual channel by
which it came in (R358). -/
structure QMsg where
  hdr : MsgHdr
  len : Nat
  payload : Payload
  inVc : Nat := 0
deriving DecidableEq, Repr

/-- A link-local message that waits to be sent (R355, R359). -/
inductive LinkMsg where
  | link (kind : Nat)
  | time (kind : Nat) (m : TimeMsg)
  | beat (m : BeatMsg)
deriving DecidableEq, Repr

/-- A data flit as it is sent, kept until an ack covers it (R347, R349). -/
structure Flit where
  seq : Nat
  ack : Nat
  cvc : Nat
  ccount : Nat
  payload : List Byte
deriving DecidableEq, Repr

/-- What a neighbour's last TIME message showed (R371). -/
structure Neighbour where
  depth : Nat
  locked : Bool
  bound : Nat
deriving DecidableEq, Repr

/-- One Narnos port (R345 to R352, R357 to R359, R375, R392). linkQueue holds the link-local messages to be sent, queue the
routed ones; lastIn gives for each channel the source served last, an input port or 6 for the device itself; unacked are the
data flits that no ack covers, rxBytes the bytes received of a message that is not yet whole; retrainAt says when the
retrain in progress began. -/
structure Port where
  state : PortState
  active : BitVec 4
  withdrawn : BitVec 4
  healthy : BitVec 4
  peer : DevNum
  beatAge : Nat
  priorActive : BitVec 4
  peerLow : Bool
  txNext : Nat
  txAcked : Nat
  rxExpected : Nat
  nakSent : Bool
  nakFlits : Nat
  sameNaks : Nat
  lastNakAck : Nat
  noProgress : Nat
  lastProgress : Nat
  downSince : Nat
  retryAt : Nat
  credits : List Nat
  returns : List Nat
  linkQueue : List LinkMsg
  queue : List QMsg
  turn : Nat
  lastIn : List Nat
  unacked : List Flit
  rxBytes : List Byte
  retrainAt : Nat
  symRuns : List Nat
  neighbour : Option Neighbour
  outcome : Nat
  heard : Bool
  retrainAsked : Bool
deriving DecidableEq, Repr

/-- A port after reset: DOWN with no lane, no credit spent (R358, R378). -/
def Port.reset : Port :=
  { state := .down, active := 0, withdrawn := 0, healthy := 0, peer := 0, beatAge := 0, priorActive := 0
    peerLow := false, txNext := 0, txAcked := 0, rxExpected := 0, nakSent := false, nakFlits := 0, sameNaks := 0
    lastNakAck := 0, noProgress := 0, lastProgress := 0, downSince := 0, retryAt := 0
    credits := [4096, 4096, 4096, 4096], returns := [0, 0, 0, 0], linkQueue := [], queue := [], turn := 0
    lastIn := [6, 6, 6, 6], unacked := [], rxBytes := [], retrainAt := 0, symRuns := [0, 0, 0, 0]
    neighbour := none, outcome := 0, heard := false, retrainAsked := false }

/-- Time states (R370, R374). -/
inductive TimeState where
  | free | locked | holdover
deriving DecidableEq, Repr

/-- A time exchange in progress (R372), times in units of 2^-8 ns. -/
structure Exchange where
  port : Nat
  number : Nat
  t1 : Nat
  t2 : Nat
  t3 : Nat
deriving DecidableEq, Repr

/-- Device time (R370 to R374): now in units of 2^-8 ns, the trim (trimNum ÷ trimDen units in each ns, with its remainder
trimAcc), the units still to be removed at half rate, the lock, and since when it is in HOLDOVER. -/
structure TimeBase where
  now : Nat
  trimNum : Int
  trimDen : Nat
  trimAcc : Int
  half : Nat
  state : TimeState
  parent : Option Nat
  depth : Nat
  bound : Nat
  theta : Int
  exchange : Option Exchange
  exchangeNo : Nat
  lastDone : Nat
  holdSince : Nat
deriving DecidableEq, Repr

/-- Own configuration of one past beat (R392), with the device time of its boundary. -/
structure BeatSelf where
  number : Nat
  boundary : Nat
  epoch : Word32
  digest : BitVec 256
  staged : Word32
  stagedTag : Word32
  armTime : Nat
deriving DecidableEq, Repr

/-- An epoch the device holds beside the current one: its number, register values, digest, tag and firmware slot (R383). -/
structure Epoch where
  num : Word32
  values : List (Nat × Word64)
  digest : BitVec 256
  tag : Word32
  slot : Option Bool
deriving DecidableEq, Repr

/-- The configuration block (R379 to R392). -/
structure Cfg where
  cur : Word32
  digest : BitVec 256
  tag : Word32
  staged : Option Epoch
  retiring : Option Epoch
  stageList : List (Nat × Word64)
  status : Nat
  armTime : Nat
  appliedAt : Nat
  pastBeats : List BeatSelf
deriving DecidableEq, Repr

/-- One slot of a persistent register (R395): value, sequence number, and whether its CRC passes. -/
structure PregSlot where
  value : Word64
  seq : Word32
  crc : Word32
deriving DecidableEq, Repr

/-- A persistent register (R393 to R396). -/
structure Preg where
  shadow : Word64
  slotA : PregSlot
  slotB : PregSlot
  inB : Bool
  programming : Option Word64
  pending : Option Word64
  wear : Nat
deriving DecidableEq, Repr

/-- A persistent register whose store holds 0 in slot A, sequence number 0, and an unwritten slot B; the CRC-32 of twelve
zero bytes is 0x7BD5_C66F (R395). -/
def Preg.reset : Preg :=
  { shadow := 0, slotA := ⟨0, 0, 0x7BD5C66F⟩, slotB := ⟨0, 0, 0⟩, inB := false, programming := none, pending := none
    wear := 0 }

/-- One compute die of the Heliostat (R402, R411, R416, R418, R420, R421). Its rail goes from railStart, where it stood at
railAt, to railMv; current is the estimated VDD_C current in A, slewBeta the bubbles that hold its rise, and ballast says
whether the Heliostat's ballast holds its fall. -/
structure DiePower where
  railMv : Nat
  railStart : Nat
  railAt : Nat
  current : Nat
  slewBeta : Nat
  ballast : Bool
  droop : Bool
  droopSince : Nat
  droopClear : Nat
  extraG : Nat
  crit : Bool
  hottest : Nat
  sensorFlags : List Nat
deriving DecidableEq, Repr

/-- One cluster's clock and what the Heliostat sees of it (R402, R405, R409, R412, R420): the F-cycles that it has run (R49),
whether its F-cycle now is a bubble, its activity counts of this µs, their sum in the last µs,
and whether it carries the Heliostat's ballast. -/
structure ClusterClk where
  op : BitVec 3
  stopped : Bool
  idleSince : Nat
  cycles : Nat
  bubble : Bool
  activity : List Nat
  before : Nat
  ballast : Bool
deriving DecidableEq, Repr

/-- Activity counts of zero: facet rows driven, refractor trees of the paths 0 to 3, memory slots, F-cycles of FACET slices, and of
ballast in the firing slot and in the refractor. -/
def noActivity : List Nat := List.replicate 9 0

/-- A cluster after reset (R431): its clock stopped, at OP0. -/
def ClusterClk.reset : ClusterClk :=
  { op := 0, stopped := true, idleSince := 0, cycles := 0, bubble := false, activity := noActivity, before := 0, ballast := false }

/-- A member of the pool as this device knows it (R423). -/
structure Member where
  entry : PoolEntry
  origin : Nat
deriving DecidableEq, Repr

/-- The power pool (R422 to R429): the entries of the other members, the cap in force and the one for the next round, the
grants of this round's view (none: not complete), what this device publishes and has published, and the sums of the round
from which it forms its demand and lateness. -/
structure Pool where
  members : List (Nat × Member)
  cap : Nat
  nextCap : Option Nat
  grants : List Nat
  complete : Bool
  onFloor : Bool
  nextFloor : Bool
  conflict : Bool
  conflictRound : Nat
  err : Bool
  demand : Nat
  lateness : Nat
  holdFloor : Bool
  sent : List (Nat × PoolEntry)
  want : Nat
  ran : Nat
  waited : Nat
deriving DecidableEq, Repr

/-- The Heliostat (R400 to R431); powers in units of 0.25 W, thermalCap 3,001 for unlimited; flits are the link flits of
this µs and slices its CLUSTER, THERMAL, LANE and CURRENT slices (R445), estSum and estCount the estimates formed in this telemetry
window; switching says that its image has been switched since the last governing boundary (R460). -/
structure Power where
  state : DevState
  idleFrom : Nat
  enteredAt : Nat
  reqRefused : Bool
  waking : Bool
  recal : Bool
  pest : Nat
  estSum : Nat
  estCount : Nat
  flits : Nat
  slices : List Nat
  switching : Bool
  pmeas : Nat
  pdyn : Nat
  beta : Nat
  g : Nat
  betaHigh : Nat
  slack : Nat
  distrust : Bool
  agree : Nat
  disagree : Nat
  recalTries : Nat
  recalPassed : Bool
  recalFailed : Bool
  recalAt : Nat
  lastTele : Nat
  gap : Bool
  thermalCap : Nat
  throttling : Bool
  lastThermStep : Nat
  hottest : Nat
  hotSensor : Nat
  baseTemp : Nat
  stackTemp : Nat
  stackRate : List Nat
  dies : List DiePower
  clusters : List ClusterClk
  coefficients : List Nat
  energyQuarter : Nat
  pool : Pool
deriving DecidableEq, Repr

/-- Slice kinds (R432). -/
inductive SliceKind where
  | facet (core facet : Nat) | cluster (k : Nat) | thermal (die : Nat) | lane (port lane : Nat) | current
deriving DecidableEq, Repr

/-- A released slice that has not run (R434, R444 to R447): the cycle it belongs to (0: none), when it may be tried again
(0: now), and whether a recalibration request released it. -/
structure Slice where
  kind : SliceKind
  released : Nat
  retryAt : Nat
  cycle : Nat
  recal : Bool
deriving DecidableEq, Repr

/-- Collimation (R432 to R449): waiting slices, the schedule of the cycle in device time, the cycles that are not
complete, and the re-qualification in progress with its passes. -/
structure Collim where
  waiting : List Slice
  cycle : Nat
  cycleAt : Nat
  position : Nat
  facetStep : Nat
  nextFacetAt : Nat
  clusterPos : Nat
  nextClusterAt : Nat
  nextHourlyAt : Nat
  openCycles : List Nat
  due : Bool
  requal : Option (Nat × Nat × Nat)
deriving DecidableEq, Repr

/-- An open management session (R466, R467). -/
structure Session where
  id : Nat
  key : List Byte
  counter : Nat
  last : Nat
  path : MgmtPath
deriving DecidableEq, Repr

/-- An open challenge (R466). -/
structure Challenge where
  id : Nat
  nonce : List Byte
  issued : Nat
  path : MgmtPath
deriving DecidableEq, Repr

/-- The connection state of an SPDM transport (R463). -/
structure Spdm where
  version : Bool
  caps : Bool
  algs : Bool
deriving DecidableEq, Repr

/-- The Uarid: fuses, flash, identity, sessions, mailbox (R450 to R478). -/
structure Uarid where
  uds : List Byte
  serial : Word64
  vendorDigests : List (List Byte)
  vendorRevoke : BitVec 4
  ownerDigest : Option (List Byte)
  lifecycle : BitVec 3
  rollback : Nat
  slotA : Sparse Byte
  slotB : Sparse Byte
  validA : Bool
  validB : Bool
  bootSlot : Bool
  trial : Bool
  prepared : Option Bool
  fwStatus : Nat
  progress : Nat
  faultLog : List (Nat × Nat)
  tamperLogged : Bool
  tampered : Bool
  fallback : Bool
  booted : Bool
  ready : Bool
  recoverMode : Bool
  activeSlot : Bool
  meas : List (List Byte)
  measPend : List (List Byte)
  aliasFor : List (List Byte)
  certBusy : Option Nat
  sessions : List Session
  challenges : List Challenge
  nextId : Nat
  lockedUntil : Nat
  recoverNonce : Option (List Byte × Nat)
  mbox : Sparse Byte
  busy : Bool
  secure : Sparse Byte
  wiping : Option Nat
  wipeAgain : Bool
  doe : Spdm
  mctp : Spdm
deriving DecidableEq, Repr

/-- The module and its host link (R479 to R501). -/
structure Module where
  pwrEn : Bool
  pwrGood : Bool
  perstN : Bool
  linkSpeed : Nat
  linkWidth : Nat
  low : Bool
  flit : Bool
  degraded : Bool
  failed : BitVec 16
  bootSpeed : Nat
  bootWidth : Nat
  heldSpeed : Nat
  heldWidth : Nat
  d3 : Bool
  priFailed : Bool
  priEnabled : Bool
  autoSpeedDis : Bool
  autoWidthDis : Bool
  slotId : BitVec 3
  eid : Byte
  inlet : Nat
  vin : Nat
  current : Nat
  fatal : Bool
  alert : Bool
deriving DecidableEq, Repr

/-- What the last host read returned (R12, R234, R253, R341): data, and whether it was poisoned or refused. -/
inductive ReadData where
  | none | value (v : Word64) | bytes (data : List Byte) | poisoned | unsupported
deriving DecidableEq, Repr

/-- What leaves the device: notices, fabric and link messages, sideband events and answers, in order. A fabric message stands
where it enters the flits of its port; the flits that carry it follow, each with its lane (R346). -/
inductive Out where
  | msix (vector : Nat)
  | msg (port : Option Nat) (vc : Nat) (m : QMsg)
  | linkMsg (port kind : Nat) (dev : DevNum) (lanes : BitVec 4) (lastSeq : Nat)
  | flit (port lane : Nat) (f : Flit)
  | control (port ack : Nat) (nak : Bool)
  | beat (port : Nat) (m : BeatMsg)
  | time (port kind : Nat) (m : TimeMsg)
  | pageRequest (group va : Nat) (write : Bool)
  | atsDone (addr pages : Nat)
  | pldm (event : Nat)
  | sensor (value : Nat)
  | mgmt (path : MgmtPath) (op session counter status : Nat) (payload tag : List Byte)
  | spdm (t : SpdmPath) (code : Nat) (data : List Byte)
  | recovery (status : Nat)
  | linkTrain (speed width : Nat)
deriving DecidableEq, Repr

/-- The state of the device. -/
structure State where
  /-- the commands that wait, first in, first out -/
  pending : List Instr
  /-- commands that the device holds until what they wait for has come about -/
  held : List Instr
  /-- local time base, ns (the 1 GHz domain of R400) -/
  ticks : Nat
  /-- the model's own index of the next free value; no rule names it -/
  freeCount : Nat
  /-- registers that only store, by BAR0 offset -/
  regs : Sparse Word64
  /-- high halves latched by low-half reads (R59), by BAR0 offset -/
  latches : Sparse (Option Word32)
  cores : Sparse Core
  jobs : List Job
  lastJob : Nat
  lastRing : Nat
  rings : Sparse Ring
  eq : EventRing
  vectors : Sparse Vector_
  shared : Sparse Byte
  sharedEcc : Sparse Ecc
  banks : Sparse BankPower
  bankIdle : Sparse Nat
  stacked : Sparse Byte
  stackedEcc : Sparse Ecc
  tlb : Sparse (Option (Nat × Bool))
  pageReqs : List PageReq
  host : Sparse Byte
  /-- what the host's translation gives each 4 KiB page of I/O virtual addresses: 0 readable and writable, 1 read only,
  2 nothing -/
  hostPages : Sparse Nat
  windows : List (Nat × Window)
  sync : Sparse Word64
  expo : Sparse ExpoSlot
  identities : List Identity
  identityBroken : List Nat
  /-- the core that each sparse engine served last (R157), by engine: its number in the cluster plus 1, 0 for none -/
  speLast : Sparse Nat
  staging : List StagedTransit
  requests : List Request
  nextTxn : Nat
  ports : Sparse Port
  time : TimeBase
  cfg : Cfg
  pregs : Sparse Preg
  power : Power
  collim : Collim
  uarid : Uarid
  module : Module
  hostRead : ReadData
  out : List Out
deriving DecidableEq, Repr

/-- Reasons for which a run may stop. No meaning of this model raises one: every command of the table has an effect that
the spec gives, and where a job ends, that ending is the command's effect. -/
inductive Fault where
  /-- Raised by nobody. It stands here because the host asks for a type of faults; safe. -/
  | none
deriving DecidableEq, Repr

/-- Reasons for which a command may be refused by the model (not by the device). -/
inductive Refusal where
  /-- A command of the table that has no meaning yet: raised by its own arm of exec alone; safe. -/
  | notModelled (mnemonic : String)
deriving DecidableEq, Repr

/-- A compute die after reset: rail at the OP0 target, no droop (R401, R431). -/
def DiePower.reset : DiePower :=
  { railMv := 850, railStart := 850, railAt := 0, current := 0, slewBeta := 0, ballast := false, droop := false, droopSince := 0, droopClear := 0, extraG := 0, crit := false
    hottest := 0, sensorFlags := [] }

/-- The pool after reset: no pool (R431). -/
def Pool.reset : Pool :=
  { members := [], cap := 0, nextCap := none, grants := [], complete := false, onFloor := false, nextFloor := false
    conflict := false, conflictRound := 0, err := false, demand := 0, lateness := 0, holdFloor := false, sent := []
    want := 0, ran := 0, waited := 0 }

/-- The Heliostat after reset (R411, R431): RUN, β and G 0, every cluster clock stopped at OP0. -/
def Power.reset : Power :=
  { state := .run, idleFrom := 0, enteredAt := 0, reqRefused := false, waking := false, recal := false, pest := 0, estSum := 0
    estCount := 0, flits := 0, slices := [0, 0, 0, 0], switching := false, pmeas := 0, pdyn := 0
    beta := 0, g := 0, betaHigh := 0, slack := 0, distrust := false, agree := 0, disagree := 0, recalTries := 0
    recalPassed := false, recalFailed := false, recalAt := 0, lastTele := 0, gap := false, thermalCap := 3001, throttling := false
    lastThermStep := 0, hottest := 0, hotSensor := 0, baseTemp := 0, stackTemp := 0, stackRate := [1, 1, 1, 1, 1, 1]
    dies := List.replicate 4 DiePower.reset
    clusters := List.replicate 32 ClusterClk.reset
    coefficients := [], energyQuarter := 0, pool := Pool.reset }

/-- Collimation after reset. -/
def Collim.reset : Collim :=
  { waiting := [], cycle := 0, cycleAt := 0, position := 0, facetStep := 0, nextFacetAt := 0, clusterPos := 0, nextClusterAt := 0
    nextHourlyAt := 0, openCycles := [], due := false, requal := none }

/-- A 32-byte string of zeros. -/
def zeros32 : List Byte := List.replicate 32 0

/-- The Uarid of a module with blank fuses and flash: FACTORY, no key, no session (R450, R478). -/
def Uarid.reset : Uarid :=
  { uds := zeros32, serial := 0, vendorDigests := List.replicate 4 zeros32, vendorRevoke := 0, ownerDigest := none
    lifecycle := 0, rollback := 0, slotA := [], slotB := [], validA := false, validB := false
    bootSlot := false, trial := false, prepared := none, fwStatus := 0, progress := 0, faultLog := []
    tamperLogged := false, tampered := false, fallback := false, booted := false, ready := false, recoverMode := false
    activeSlot := false, meas := List.replicate 7 zeros32, measPend := [], aliasFor := [], certBusy := none
    sessions := [], challenges := [], nextId := 1, lockedUntil := 0, recoverNonce := none, mbox := [], busy := false
    secure := [], wiping := none, wipeAgain := false, doe := ⟨false, false, false⟩, mctp := ⟨false, false, false⟩ }

/-- The module after reset: powered, PERST_N asserted until its deassertion trains the link (R485, R501). -/
def Module.reset : Module :=
  { pwrEn := true, pwrGood := true, perstN := false, linkSpeed := 0, linkWidth := 0, low := false, flit := false
    degraded := false, failed := 0, bootSpeed := 0, bootWidth := 0, heldSpeed := 0, heldWidth := 0, d3 := false
    priFailed := false, priEnabled := true, autoSpeedDis := false, autoWidthDis := false, slotId := 0, eid := 0x60
    inlet := 0, vin := 0, current := 0, fatal := false, alert := false }

/-- The device right after reset, with nothing listed in any memory and no command waiting. -/
def State.reset : State :=
  { pending := [], held := [], ticks := 0, freeCount := 0, regs := [], latches := [], cores := [], jobs := []
    lastJob := 0, lastRing := 31, rings := [], eq := ⟨0, 0, 0, true, 0⟩, vectors := [], shared := [], sharedEcc := []
    banks := [], bankIdle := [], stacked := [], stackedEcc := [], tlb := [], pageReqs := [], host := [], hostPages := []
    windows := [], sync := [], expo := [], identities := [], identityBroken := [], speLast := [], staging := []
    requests := [], nextTxn := 0, ports := []
    time := { now := 0, trimNum := 0, trimDen := 1, trimAcc := 0, half := 0, state := .free, parent := none, depth := 31, bound := 255
              theta := 0, exchange := none, exchangeNo := 0, lastDone := 0, holdSince := 0 }
    cfg := { cur := 0, digest := 0, tag := 0, staged := none, retiring := none, stageList := [], status := 0
             armTime := 0, appliedAt := 0, pastBeats := [] }
    pregs := [], power := Power.reset, collim := Collim.reset, uarid := Uarid.reset, module := Module.reset
    hostRead := .none, out := [] }

end Sys2Proof.Machine
end

