-- ==== Sys2Proof/Machine/Ops.lean ====
section
/-!
DEFINITION. The named operations over the state: registers and counters, cores and jobs, host memory, event records and
notices, fault records, the replay journal, sync counters, the ways a job ends, and the passage of time.
-/

namespace Sys2Proof.Machine

/-- What a command answers. -/
abbrev Answer := Host.Outcome State Fault Refusal

/-! ### Registers and counters -/

/-- The stored value of the register at a BAR0 offset. -/
def State.reg (s : State) (off : Nat) : Word64 := Sparse.get (regReset off) s.regs off

/-- The register at off set to v. -/
def State.setReg (s : State) (off : Nat) (v : Word64) : State :=
  { s with regs := Sparse.set (regReset off) s.regs off v }

/-- The field [lo + n - 1 : lo] of a register. -/
def State.fld (s : State) (off lo n : Nat) : Nat := bits (s.reg off) lo n

/-- A field of a register set. -/
def State.setFld (s : State) (off lo n v : Nat) : State := s.setReg off (setBits (s.reg off) lo n v)

/-- A 64-bit counter raised by k; it wraps from 2^64 - 1 to 0. -/
def State.count (s : State) (off k : Nat) : State := s.setReg off (s.reg off + BitVec.ofNat 64 k)

/-- One more free value: the value, and the state with the next index. -/
def State.free (s : State) : BitVec 256 × State := (Config.free s.freeCount, { s with freeCount := s.freeCount + 1 })

/-! ### Cores, facets, rings, ports, vectors -/

/-- Core c. -/
def State.core (s : State) (c : Nat) : Core := Sparse.get Core.reset s.cores c

/-- Core c replaced. -/
def State.setCore (s : State) (c : Nat) (k : Core) : State := { s with cores := Sparse.set Core.reset s.cores c k }

/-- Core c changed by f. -/
def State.modCore (s : State) (c : Nat) (f : Core → Core) : State := s.setCore c (f (s.core c))

/-- Facet f of a core. -/
def Core.facet (k : Core) (f : Nat) : Facet := Sparse.get Facet.reset k.facets f

/-- Facet f replaced. -/
def Core.setFacet (k : Core) (f : Nat) (x : Facet) : Core := { k with facets := Sparse.set Facet.reset k.facets f x }

/-- Facet f of core c changed by g. -/
def State.modFacet (s : State) (c f : Nat) (g : Facet → Facet) : State :=
  s.modCore c fun k => k.setFacet f (g (k.facet f))

/-- Ring n. -/
def State.ring (s : State) (n : Nat) : Ring := Sparse.get Ring.reset s.rings n

/-- Ring n replaced. -/
def State.setRing (s : State) (n : Nat) (r : Ring) : State := { s with rings := Sparse.set Ring.reset s.rings n r }

/-- Port p. -/
def State.port (s : State) (p : Nat) : Port := Sparse.get Port.reset s.ports p

/-- Port p replaced. -/
def State.setPort (s : State) (p : Nat) (q : Port) : State := { s with ports := Sparse.set Port.reset s.ports p q }

/-- Port p changed by f. -/
def State.modPort (s : State) (p : Nat) (f : Port → Port) : State := s.setPort p (f (s.port p))

/-- What the Heliostat counts of the activity of core c's cluster (R409, R419, R445): kind 0 facet rows driven, 1 + p refractor trees
of path p, 5 memory slots, 6 F-cycles of FACET slices, 7 and 8 ballast. -/
def State.active (s : State) (c kind n : Nat) : State :=
  { s with power := { s.power with clusters := s.power.clusters.modify (c / 64) fun q =>
      { q with activity := q.activity.set kind (q.activity.getD kind 0 + n) } } }

/-- A vector after reset: masked, as PCI Express leaves it (PRESUMED). -/
def Vector_.reset : Vector_ := ⟨true, false⟩

/-- MSI-X vector v (R482). -/
def State.vector (s : State) (v : Nat) : Vector_ := Sparse.get Vector_.reset s.vectors v

/-- MSI-X vector v replaced. -/
def State.setVector (s : State) (v : Nat) (x : Vector_) : State :=
  { s with vectors := Sparse.set Vector_.reset s.vectors v x }

/-- Something leaves the device. -/
def State.emit (s : State) (o : Out) : State := { s with out := s.out ++ [o] }

/-- Device time in ns (R370). -/
def State.deviceTime (s : State) : Nat := s.time.now / 256 % 2 ^ 64

/-- The device's own number x + 16·y + 256·z (R6), from the coordinate of NRN_TOPO. -/
def State.selfDev (s : State) : Nat := s.fld Reg.NRN_TOPO 12 12

/-! ### Host memory and notices -/

/-- Bytes written to host memory at an untranslated address. -/
def State.putHost (s : State) (addr : Nat) (bs : List Byte) : State :=
  { s with host := Sparse.setList 0 s.host addr bs }

/-- n bytes of host memory. -/
def State.getHost (s : State) (addr n : Nat) : List Byte := Sparse.getList 0 s.host addr n

/-- Sends an MSI-X message, or sets its pending bit while the vector is masked (R482). -/
def State.sendMsix (s : State) (v : Nat) : State :=
  if (s.vector v).masked then s.setVector v { s.vector v with pending := true } else s.emit (.msix v)

/-- An event record before its time and phase (R288). -/
structure Event where
  source : Nat
  cls : Nat := 0
  detail : Nat := 0
  job : Nat := 0
  core : Nat := 0
  facet : Nat := 0
  ring : Nat := 0
  info0 : Nat := 0
  info1 : Nat := 0
  info2 : Nat := 0
deriving DecidableEq, Repr

/-- A value in the bits from lo on, n bits wide. -/
def place (v lo n : Nat) : Nat := (v % 2 ^ n) <<< lo

/-- The 64 bytes of an event record (R288). -/
def Event.bytes (e : Event) (time : Nat) (phase : Bool) : List Byte :=
  toBytes 64 (place e.source 0 8 + place e.cls 8 3 + place e.detail 16 16 + place e.job 32 32 + place e.core 64 11
    + place e.facet 75 5 + place e.ring 80 6 + place e.info0 192 64 + place e.info1 256 64 + place e.info2 320 64
    + place time 448 63 + place phase.toNat 511 1)

/-- Entries of the event ring. -/
def State.eqSize (s : State) : Nat := 2 ^ s.fld Reg.HQ_EQ_CTRL 1 5

/-- Whether the event ring is in use. -/
def State.eqEnabled (s : State) : Bool := s.fld Reg.HQ_EQ_CTRL 0 1 = 1

/-- Writes one record at the tail of the event ring, advances the tail, inverts the phase on a wrap and sends vector 32
when the notice field says so (R262, R287, R288). -/
def State.writeEvent (s : State) (e : Event) : State :=
  let addr := (s.reg Reg.HQ_EQ_BASE).toNat + 64 * s.eq.tail
  let tail := (s.eq.tail + 1) % s.eqSize
  let phase := if tail = 0 then !s.eq.phase else s.eq.phase
  let s := s.putHost addr (e.bytes s.deviceTime s.eq.phase)
  let s := { s with eq := { s.eq with tail := tail, used := s.eq.used + 1, phase := phase } }
  if s.fld Reg.HQ_EQ_CTRL 6 1 = 1 then s.sendMsix 32 else s

/-- Posts an event record, or drops and counts it while the ring is full or not in use (R289). -/
def State.postEvent (s : State) (e : Event) : State :=
  if s.eqEnabled ∧ s.eq.used < s.eqSize then s.writeEvent e
  else
    let s := s.count Reg.HQ_EQ_LOST 1
    { s with eq := { s.eq with dropped := s.eq.dropped + 1 } }

/-! ### Fault records -/

/-- Fault classes (R318). -/
def clsCorrected : Nat := 1
def clsContained : Nat := 2
def clsJobFailed : Nat := 3
def clsDegraded : Nat := 4
def clsFatal : Nat := 5

/-- The class of the most recent fault in GLB_FAULT_STAT (R341). -/
def State.noteClass (s : State) (cls : Nat) : State :=
  (s.setFld Reg.GLB_FAULT_STAT 1 3 cls).setFld Reg.GLB_FAULT_STAT 7 1 1

/-- Posts the record of a fault: its class is noted, a CONTAINED record is counted (R318, R319). -/
def State.raise (s : State) (e : Event) : State :=
  let s := if e.cls = 0 then s else s.noteClass e.cls
  let s := if e.cls = clsContained then s.count Reg.GLB_CONTAINED 1 else s
  s.postEvent e

/-- The detector of the most recent contained fault (R341). -/
def State.noteDetector (s : State) (d : Nat) : State := s.setFld Reg.GLB_FAULT_STAT 4 3 d

/-- A QUEUE event of a ring (R288): its number stands in info0. -/
def State.queueEvent (s : State) (n detail : Nat) : State :=
  s.postEvent { source := 0x1F, detail := detail, info0 := n }

/-- A LINK event of a port (R377): its lanes and peer stand in info0. -/
def State.linkEvent (s : State) (kind cls p info1 : Nat) : State :=
  let q := s.port p
  s.raise { source := 0x13, cls := cls, detail := place p 0 3 + place kind 4 4
            info0 := place q.active.toNat 0 4 + place q.withdrawn.toNat 4 4 + place q.peer.toNat 8 12, info1 := info1 }

/-! ### Jobs -/

/-- The cores of a job's set, in position order (R265). -/
def Job.cores (j : Job) : List Nat :=
  (List.range j.desc.coreCount).map fun i => j.desc.coreFirst + i * j.desc.coreStride

/-- The job of a number. -/
def State.findJob (s : State) (num : Nat) : Option Job := s.jobs.find? fun j => decide (j.num = num ∧ num ≠ 0)

/-- A job replaced; jobs are told apart by their ring and their place in it. -/
def State.putJob (s : State) (j : Job) : State :=
  { s with jobs := s.jobs.map fun k => if k.ring = j.ring ∧ k.idx = j.idx then j else k }

/-- The job of a number changed by f. -/
def State.modJob (s : State) (num : Nat) (f : Job → Job) : State :=
  { s with jobs := s.jobs.map fun k => if k.num = num ∧ num ≠ 0 then f k else k }

/-- Whether a job executes commands. -/
def JobPhase.executes : JobPhase → Bool
  | .running => true
  | .replaying => true
  | _ => false

/-- The job that executes on core c. -/
def State.jobOn (s : State) (c : Nat) : Option Job :=
  (s.findJob (s.core c).job).filter (·.phase.executes)

/-- The command header of a tile command, with its core. -/
def tileOf : Instr → Option (Nat × Hdr)
  | .fload c h _ | .fire c h _ | .firet c h _ | .acminit c h _ | .acmout c h _ | .refmm c h _ | .refew c h _
  | .reduce c h _ | .transit c h _ | .movePlain c h _ | .moveTile c h _ | .moveTranspose c h _ | .moveCompress c h _
  | .moveExpand c h _ | .gatherEmb c h _ | .gatherSpt c h _ | .update c h _ | .syncAdd c h _ | .syncSet c h _
  | .syncMax c h _ | .syncMin c h _ | .syncOr c h _ | .syncAnd c h _ | .syncCas c h _ | .syncPost c h _
  | .claimNext c h _ | .claimExplicit c h _ | .wait c h _ | .expoSave c h _ | .expoRestore c h _ | .expoClear c h _
  | .phase c h _ | .ballastFixed c h _ _ | .ballastUntil c h _ _ | .fence c h _ | .task c h _ | .windowOpen c h _
  | .windowClose c h _ | .nop c h => some (c.toNat, h)
  | _ => none

/-- The opcode of a tile command (R302). -/
def opcodeOf : Instr → Nat
  | .fload .. => 0x01
  | .fire .. => 0x02
  | .firet .. => 0x03
  | .acminit .. => 0x04
  | .acmout .. => 0x05
  | .refmm .. => 0x06
  | .refew .. => 0x07
  | .reduce .. => 0x08
  | .transit .. => 0x09
  | .movePlain .. | .moveTile .. | .moveTranspose .. | .moveCompress .. | .moveExpand .. => 0x0A
  | .gatherEmb .. | .gatherSpt .. => 0x0B
  | .update .. => 0x0C
  | .syncAdd .. | .syncSet .. | .syncMax .. | .syncMin .. | .syncOr .. | .syncAnd .. | .syncCas .. | .syncPost .. => 0x0D
  | .claimNext .. | .claimExplicit .. => 0x0E
  | .wait .. => 0x0F
  | .expoSave .. | .expoRestore .. | .expoClear .. => 0x10
  | .phase .. => 0x11
  | .ballastFixed .. | .ballastUntil .. => 0x12
  | .fence .. => 0x13
  | .task .. => 0x14
  | .windowOpen .. | .windowClose .. => 0x15
  | .nop .. => 0x16
  | _ => 0

/-- The path by which a command reaches the accumulator memory: the facet drain, the write port of the refractor and the
sparse engine, the transit port, the ACMINIT and ACMOUT port (R85, R86); 0: none. -/
def acmPath (i : Instr) : Nat :=
  match opcodeOf i with
  | 0x02 => 1
  | 0x03 => 1
  | 0x06 => 2
  | 0x08 => 2
  | 0x0B => 2
  | 0x09 => 3
  | 0x04 => 4
  | 0x05 => 4
  | _ => 0

/-- Whether a waiting command belongs to one of the cores. -/
def heldOn (cs : List Nat) (i : Instr) : Bool := (tileOf i).elim false fun p => cs.contains p.1

/-- A command put aside until the next tick. -/
def State.hold (s : State) (i : Instr) : State := { s with held := s.held ++ [i] }

/-! ### Accumulator pairs and the journal -/

/-- The jobs that hold pair p of a core dirty (R67, R70). -/
def Core.holders (k : Core) (p : Nat) : List Nat := Sparse.get [] k.dirty p

/-- The pairs of a core that a job holds dirty and that q covers. -/
def Core.dirtyPairs (k : Core) (num : Nat) (q : Nat → Bool) : List Nat :=
  (k.dirty.filter fun e => e.2.contains num && q e.1).map (·.1)

/-- Drops the dirty marks of a job's pairs under q on core c, and counts them (R69). -/
def State.discard (s : State) (c num : Nat) (q : Nat → Bool) : State :=
  let k := s.core c
  let ps := k.dirtyPairs num q
  (s.setCore c { k with dirty := k.dirty.filter fun e => !ps.contains e.1 }).count (Reg.ACM_DISCARDS c) ps.length

/-- Inverts the live bits of a job's dirty pairs under q on core c, clears their marks and counts them (R68). -/
def State.commit (s : State) (c num : Nat) (q : Nat → Bool) : State :=
  let k := s.core c
  let ps := k.dirtyPairs num q
  let live := ps.foldl (fun l p => l ^^^ (BitVec.ofNat 256 (2 ^ p))) k.live
  (s.setCore c { k with live := live, dirty := k.dirty.filter fun e => !ps.contains e.1 }).count
    (Reg.ACM_COMMITS c) ps.length

/-- Records of the job log that a record takes (R323). -/
def JRec.size : JRec → Nat
  | .open_ => 2
  | .exposure l => ceilDiv l.length 8
  | .commit _ _ _ => 1
  | .transit _ _ _ rows => 1 + ceilDiv (260 * rows.length) 64
  | .sync _ _ _ => 1
  | .claim _ _ _ _ _ => 1
  | .post _ _ _ => 1
  | .expo _ _ => 1
  | .update _ _ rows => 1 + ceilDiv ((rows.map (·.2.length)).sum) 64

/-- Records that a job holds. -/
def Job.records (j : Job) : Nat := (j.journal.map JRec.size).sum

/-- Records that stand in bank 60. -/
def State.journalUsed (s : State) : Nat := (s.jobs.map Job.records).sum

/-- Whether a contained fault of the job leads to a replay (R321, R325, R326). -/
def Job.replayable (j : Job) : Bool := j.desc.replay && j.journalOk

/-- The fields of a REPLAY event (R340). -/
def replayEvent (j : Job) (cls detail core seq info : Nat) : Event :=
  { source := 0x15, cls := cls, detail := detail, job := j.num, core := core, ring := j.ring, info0 := seq % 65536
    info1 := info, info2 := j.records }

/-- A job's records are freed, and it is no longer replayable (R325, R326). -/
def Job.unjournalled (j : Job) : Job := { j with journal := [], journalOk := false }

/-- Ends the journalling of a job: its records are freed first, so that the record posted then names 0 records held
(R325, R340, R367). -/
def State.stopJournal (s : State) (j : Job) : State :=
  let s := s.modJob j.num Job.unjournalled
  (s.postEvent (replayEvent j.unjournalled 0 (2 ^ 8) 0 0 0)).count Reg.GLB_JNL_OVERFLOW 1

/-- A double-bit error strikes a record that a job holds in bank 60 (R326, R340): the job is no longer replayable, and a replay
of it that is in progress is to end with LOST (the flag of the answer). -/
def State.loseJournal (s : State) (j : Job) : Bool × State :=
  let ends := decide (j.replays ≠ 0) && j.status.isNone && j.contained.isNone
  let s := s.modJob j.num Job.unjournalled
  (ends, s.postEvent (replayEvent j.unjournalled clsJobFailed (j.replays * 2 ^ 4 + 2 ^ 9 + ends.toNat * 2 ^ 10) 0 0 0))

/-- Writes a record of a replayable job to its log. A record that does not fit ends the journalling of the job (R325). -/
def State.journal (s : State) (num : Nat) (r : JRec) : State :=
  match s.findJob num with
  | none => s
  | some j =>
    if !j.replayable then s
    else if j.records + r.size ≤ s.fld Reg.GLB_JNL_CTRL 0 17 ∧ s.journalUsed + r.size ≤ 65536 then
      s.modJob num fun j => { j with journal := j.journal ++ [r] }
    else s.stopJournal j

/-- A commit point of a command: the COMMIT record, unless a replay finds it already written, then the flips (R68, R329). -/
def State.commitPoint (s : State) (num c seq : Nat) (q : Nat → Bool) : State :=
  let done := (s.findJob num).elim true fun j =>
    j.journal.any fun r => match r with
      | .commit c' q' _ => decide (c' = c ∧ q' = seq)
      | _ => false
  let s := if done then s else s.journal num (.commit c seq ((s.core c).dirtyPairs num q))
  s.commit c num q

/-! ### How a job stops -/

/-- WAIT, and BALLAST UNTIL (R307). -/
def waits : Instr → Bool
  | .wait .. => true
  | .ballastUntil .. => true
  | _ => false

/-- Whether a command of a job that stops runs to its end: it has started and has work left, it is not the one that the
stop abandons, and it is no wait on a counter (R204, R227, R321). -/
def Issued.drains (abandoned : Option Nat) (r : Issued) : Bool :=
  r.started && !r.done && !waits r.cmd && decide (abandoned ≠ some r.seq)

/-- A core whose job stops at its next command boundary (R204, R321): of its issued commands those stay that have started,
but for the abandoned one. Waits, ballast and the rescale group end. A pending check goes on (R153). -/
def Core.stop (k : Core) (abandoned : Option Nat) : Core :=
  { k with issued := k.issued.filter (·.drains abandoned), buffer := [], waitOn := none, ballast := none, group := none
           skip := 0, seqState := .idle }

/-- A core that stops at once, with every command it has issued (R339). -/
def Core.halt (k : Core) : Core :=
  { k with buffer := [], issued := [], waitOn := none, ballast := none, group := none, skip := 0, seqState := .idle }

/-- The cores that a job holds now: none while it waits or is pre-empted. -/
def State.coresOf (s : State) (j : Job) : List Nat := j.cores.filter fun c => decide ((s.core c).job = j.num ∧ j.num ≠ 0)

/-- A booking of a bank is released now (R237, R238). -/
def State.touchBank (s : State) (b : Nat) : State := { s with bankIdle := Sparse.set 0 s.bankIdle b s.ticks }

/-- The bookings that a command holds are released (R238). -/
def State.release (s : State) (r : Issued) : State := (r.banks.map (·.1) ++ r.hot).foldl State.touchBank s

/-- What the anchors of core c from sequence number seq on have observed is dropped with their pass (R81, R117). -/
def Job.unobserve (j : Job) (core seq : Nat) : Job :=
  { j with observed := j.observed.filter fun o => !decide (o.core = core ∧ seq ≤ o.seq) }

/-- A pass of a rescale group that its job's stop leaves uncommitted is dropped with what its anchors have observed (R117). -/
def Job.dropPass (j : Job) (c : Nat) (k : Core) : Job := k.group.elim j fun g => j.unobserve c g.anchor.seq

/-- Stops every core of a job at its next command boundary (R204, R321). The command on core c with sequence number q, which
met the fault, is abandoned; bookings of the commands that go are released (R238). -/
def State.stopCores (s : State) (j : Job) (c q : Nat) : State :=
  let cs := s.coresOf j
  let s := s.modJob j.num fun j => j.saved.foldl (fun j e => j.dropPass e.1 e.2) (cs.foldl (fun j d => j.dropPass d (s.core d)) j)
  let s := cs.foldl (fun s d =>
    let a := if d = c then some q else none
    (((s.core d).issued.filter fun r => !r.drains a).foldl State.release s).modCore d (·.stop a)) s
  { s with held := s.held.filter fun i => !heldOn cs i || cs.any fun d => (s.core d).issued.any fun r => decide (r.cmd = i) }

/-- Whether every core of a job has stopped: no command that had started is still at work (R204, R321). -/
def State.drained (s : State) (j : Job) : Bool := (s.coresOf j).all fun c => (s.core c).issued.isEmpty

/-- Closes the windows of a job (R246). -/
def State.closeWindows (s : State) (num : Nat) : State :=
  { s with windows := s.windows.filter fun w => w.2.job ≠ num }

/-- Abandons the outstanding page requests of a job (R321). -/
def State.dropPages (s : State) (num : Nat) : State :=
  { s with pageReqs := s.pageReqs.filter fun r => r.job ≠ num }

/-- Drops every dirty pair of a job, on each of its cores, or in its saved contexts (R69, R203, R277). -/
def State.discardJob (s : State) (j : Job) : State :=
  let s := (s.coresOf j).foldl (fun s c => s.discard c j.num fun _ => true) s
  j.saved.foldl (fun s e => s.count (Reg.ACM_DISCARDS e.1) (e.2.dirtyPairs j.num fun _ => true).length) s

/-- Ends a job with a status other than OK, for the command on core c with sequence number q: its cores stop, its dirty
pairs are discarded, its page requests are abandoned. Its windows close once its cores have stopped; the completion record
follows with JOB_COMPLETE. The first cause stands (R203, R204, R279, R301). -/
def State.endJob (s : State) (num : Nat) (st : Status) (core seq : Nat) : State :=
  match s.findJob num with
  | none => s
  | some j =>
    if j.status.isSome then s
    else
      let s := s.stopCores j core seq
      let s := (s.discardJob j).dropPages num
      s.modJob num fun j =>
        { j with status := some st, faultCore := core, faultSeq := seq, phase := .stopped, contained := none
                 saved := [], savedCmds := [] }

/-- A detector fires for a job (R320, R321): the fault is noted in GLB_FAULT_STAT (R341), its cores stop, its dirty pairs are
discarded, its page requests are abandoned, and the job waits for REPLAY_START. A fault of a job that has already stopped is
absorbed. vector is the vector that a parallax check covered (R150). -/
def State.contain (s : State) (num det core seq info vector : Nat) : State :=
  match s.findJob num with
  | none => s
  | some j =>
    if j.status.isSome || j.contained.isSome then s
    else
      let s := (s.noteDetector det).noteClass clsContained
      let s := s.stopCores j core seq
      let s := (s.discardJob j).dropPages num
      s.modJob num fun j =>
        { j with phase := .stopped, contained := some ⟨det, seq, info, vector⟩, faultCore := core
                 saved := [], savedCmds := [] }

/-- Where a command stands, as logs and event records name it. -/
structure Site where
  job : Nat
  ring : Nat
  core : Nat
  seq : Nat
  op : Nat
deriving DecidableEq, Repr

/-- Whether a job can go on: it executes, or is pre-empted. -/
def JobPhase.alive (p : JobPhase) : Bool := p.executes || decide (p = .preempted)

/-- Whether a job has stopped: what its started commands still meet is not reported (R204). -/
def State.jobStopped (s : State) (num : Nat) : Bool := (s.findJob num).elim true fun j => !j.phase.alive || j.status.isSome

/-- A resource fault (R202 to R205): counted; the first one of a job ends it, loads the log and posts its record. -/
def State.resFault (s : State) (x : Site) (code off lim : Nat) (below : Bool) (st : Status) : State :=
  let s := s.count Reg.GLB_RES_FAULTS 1
  if s.jobStopped x.job then s
  else
    let valid := s.fld Reg.GLB_RES_LOG0 4 1
    let again := max valid (s.fld Reg.GLB_RES_LOG0 5 1)
    let s := s.setReg Reg.GLB_RES_LOG0 (BitVec.ofNat 64 (place code 0 4 + 2 ^ 4 + again * 2 ^ 5 + below.toNat * 2 ^ 6
      + place x.op 8 8 + place x.seq 16 16))
    let s := s.setReg Reg.GLB_RES_LOG1 (BitVec.ofNat 64 (place x.core 0 11 + place x.ring 16 6))
    let s := s.setReg Reg.GLB_RES_LOG2 (BitVec.ofNat 64 (place x.job 0 24))
    let s := s.setReg Reg.GLB_RES_OFFSET (BitVec.ofNat 64 off)
    let s := s.setReg Reg.GLB_RES_LIMIT (BitVec.ofNat 64 lim)
    let s := s.raise { source := 0x06, cls := clsJobFailed, detail := place code 0 4 + below.toNat * 2 ^ 4 + place x.op 8 8
                       job := x.job, core := x.core, ring := x.ring, info0 := x.seq, info1 := off, info2 := lim }
    s.endJob x.job st x.core x.seq

/-- A command refused at dispatch (R301): the log, the counter, the job ends with BAD_CMD; no fault, no event record. -/
def State.refuse (s : State) (x : Site) (cause : Nat) : State :=
  let valid := s.fld Reg.GLB_CMD_LOG0 6 1
  let again := max valid (s.fld Reg.GLB_CMD_LOG0 7 1)
  let s := s.setReg Reg.GLB_CMD_LOG0 (BitVec.ofNat 64 (place cause 0 6 + 2 ^ 6 + again * 2 ^ 7 + place x.op 8 8
    + place x.seq 16 16))
  let s := s.setReg Reg.GLB_CMD_LOG1 (BitVec.ofNat 64 (place x.core 0 11 + place x.ring 16 6))
  let s := s.setReg Reg.GLB_CMD_LOG2 (BitVec.ofNat 64 (place x.job 0 24))
  (s.count Reg.GLB_CMD_REFUSALS 1).endJob x.job .badCmd x.core x.seq

/-- A completion flag of a job set. -/
def State.flagJob (s : State) (num : Nat) (f : JobFlags → JobFlags) : State :=
  s.modJob num fun j => { j with flags := f j.flags }

/-! ### Sync counters -/

/-- Counter n. -/
def State.ctr (s : State) (n : Nat) : Word64 := Sparse.get (0 : Word64) s.sync n

/-- Whether the condition of a WAIT holds of a counter value (R302). -/
def waitHolds (w : WaitArgs) (v : Word64) : Bool :=
  match w.cond.toNat with
  | 0 => decide (w.value ≤ v)
  | 1 => decide (v = w.value)
  | 2 => decide (v ≠ w.value)
  | _ => decide (v &&& w.value ≠ 0)

/-- A core whose WAIT (or BALLAST UNTIL) has completed: the command leaves the issued ones. -/
def Core.endWait (k : Core) : Core :=
  { k with waitOn := none, ballast := none, seqState := .running
           issued := k.issued.filter fun i => match i.cmd with
             | .wait .. => false
             | .ballastUntil .. => false
             | _ => true }

/-- The waits on counter n are evaluated again after a change (R307). -/
def Core.wake (n : Nat) (v : Word64) (k : Core) : Core :=
  match k.waitOn with
  | some w => if w.counter.toNat = n ∧ waitHolds w v then k.endWait else k
  | none => k

/-- Every core that waits on counter n is evaluated. -/
def wakeCores (n : Nat) (v : Word64) (m : Sparse Core) : Sparse Core :=
  (m.map fun e => (e.1, e.2.wake n v)).filter fun e => decide (e.2 ≠ Core.reset)

/-- Counter n set to v: one operation, after which the WAITs on n are evaluated (R305, R307). -/
def State.setCtr (s : State) (n : Nat) (v : Word64) : State :=
  { s with sync := Sparse.set (0 : Word64) s.sync n v, cores := wakeCores n v s.cores }

/-- The operations of the counters (R306). -/
inductive CtrOp where
  | add | set | max | min | or | and | cas
deriving DecidableEq, Repr

/-- The new value of a counter (R306). -/
def CtrOp.apply (op : CtrOp) (v a cmp : Word64) : Word64 :=
  match op with
  | .add => v + a
  | .set => a
  | .max => if v < a then a else v
  | .min => if a < v then a else v
  | .or => v ||| a
  | .and => v &&& a
  | .cas => if v = cmp then a else v

/-- One counter operation, counted in SYN_OPS. -/
def State.ctrOp (s : State) (op : CtrOp) (n : Nat) (a cmp : Word64) : State :=
  (s.setCtr n (op.apply (s.ctr n) a cmp)).count Reg.SYN_OPS 1

/-! ### The mailbox -/

/-- A post to the mailbox of ring n: the oldest of 8 entries is dropped (R284). -/
def State.postMbox (s : State) (n : Nat) (v : Word64) : State :=
  let r := s.ring n
  if r.mbox.length < 8 then s.setRing n { r with mbox := r.mbox ++ [v] }
  else s.setRing n { r with mbox := r.mbox.drop 1 ++ [v], overflow := true }

/-! ### Time -/

/-- Device time one ns of the local time base later: at half rate while it is ahead, else at the trimmed rate (R373). -/
def TimeBase.advance (t : TimeBase) : TimeBase :=
  if t.half = 0 then
    let a := t.trimAcc + t.trimNum
    let inc := a / (t.trimDen : Int)
    { t with now := t.now + (256 + inc).toNat, trimAcc := a - inc * (t.trimDen : Int) }
  else { t with now := t.now + (256 - min 128 t.half), half := t.half - min 128 t.half }

end Sys2Proof.Machine
end

