-- ==== Sys2Proof/Machine/Mem.lean ====
section
/-!
DEFINITION. The memories beneath the commands: code checks of core, shared and stacked memory (R252, R253), reads and
writes that pass through them, translation of STACKED addresses (R331, R332), the power of shared-memory banks (R237 to
R242) and export ranges (R248). Each operation answers what it read, or whether it was made, with the state it leaves.
-/

namespace Sys2Proof.Machine

/-- On whose behalf an access is made, for event records: job 0 is no job. mute: an uncorrectable error posts no MEMORY
event of its own (R50). -/
structure Who where
  job : Nat
  core : Nat
  ring : Nat
  mute : Bool
deriving DecidableEq, Repr

/-- No job: a host access, a refill, a remote access. -/
def Who.none : Who := ⟨0, 0, 0, false⟩

/-- A byte to be written with the mask of the bits to be written. -/
abbrev Masked := Byte × Byte

/-- All bits of a byte. -/
def whole (b : Byte) : Masked := (b, 0xFF)

/-- An old byte with the masked bits replaced. -/
def merge (old : Byte) (x : Masked) : Byte := (old &&& ~~~x.2) ||| (x.1 &&& x.2)

/-- A list cut at multiples of unit, its first element standing at off: (offset, piece) in ascending order. -/
def pieces {α : Type} (unit : Nat) : Nat → Nat → List α → List (Nat × List α)
  | 0, _, _ => []
  | _, _, [] => []
  | fuel + 1, off, x :: l =>
    let n := unit - off % unit
    (off, (x :: l).take n) :: pieces unit fuel (off + n) ((x :: l).drop n)

/-- The pieces of a list that starts at off. -/
def cut {α : Type} (unit off : Nat) (l : List α) : List (Nat × List α) := pieces unit (l.length + 1) off l

/-- Runs checks in order until one fails. -/
def allOk {α : Type} (f : α → State → Bool × State) : List α → State → Bool × State
  | [], s => (true, s)
  | a :: l, s =>
    match f a s with
    | (true, s) => allOk f l s
    | (false, s) => (false, s)

/-- A MEMORY event (R288): level 0 core, 1 shared, 2 stacked. -/
def State.memEvent (s : State) (who : Who) (cls level addr : Nat) (poisoned : Bool) : State :=
  if who.mute && decide (cls ≠ clsCorrected) then s
  else s.raise { source := 0x07, cls := cls
                 detail := if cls = clsCorrected then level else level + 2 ^ 8 + poisoned.toNat * 2 ^ 9
                 job := who.job, core := who.core, ring := who.ring, info0 := addr }

/-! ### Core memory -/

/-- Checks word w of the memory of core c (R253). -/
def checkCoreWord (who : Who) (c w : Nat) (s : State) : Bool × State :=
  match Sparse.get Ecc.good (s.core c).ecc w with
  | .single =>
    let s := s.modCore c fun k => { k with ecc := Sparse.set Ecc.good k.ecc w .good }
    (true, (s.count (Reg.MEM_ECC_CORR c) 1).memEvent who clsCorrected 0 (8 * w) false)
  | .double => (false, s.memEvent who clsJobFailed 0 (8 * w) false)
  | _ => (true, s)

/-- The words that n bytes from off on touch. -/
def wordsOf (off n : Nat) : List Nat := if n = 0 then [] else (List.range ((off + n - 1) / 8 - off / 8 + 1)).map (· + off / 8)

/-- The words of the 64-byte slots that cover n bytes from off on: what a command reads of them (R193). -/
def slotWords (off n : Nat) : List Nat :=
  if n = 0 then [] else wordsOf (off / 64 * 64) (64 * ((off + n - 1) / 64 - off / 64 + 1))

/-- n bytes of the memory of core c for a command: the covering slots are read and checked (R193, R253); none on a
double-bit error. -/
def readCore (who : Who) (c off n : Nat) (s : State) : Option (List Byte) × State :=
  match allOk (checkCoreWord who c) (slotWords off n) s with
  | (true, s) => (some (Sparse.getList 0 (s.core c).mem off n), s)
  | (false, s) => (none, s)

/-- Whether a piece replaces all 64 bits of its word. -/
def fullWord (l : List Masked) : Bool := decide (l.length = 8) && l.all fun x => decide (x.2 = 0xFF)

/-- One word of a write to core memory: a write of part of a word reads it first (R253). -/
def writeCoreWord (who : Who) (c : Nat) (p : Nat × List Masked) (s : State) : Bool × State :=
  let w := p.1 / 8
  let (ok, s) := if fullWord p.2 then (true, s) else checkCoreWord who c w s
  if ok then
    (true, s.modCore c fun k =>
      let old := Sparse.getList 0 k.mem p.1 p.2.length
      { k with mem := Sparse.setList 0 k.mem p.1 (old.zipWith merge p.2), ecc := Sparse.set Ecc.good k.ecc w .good })
  else (false, s)

/-- A write to the memory of core c, word by word; false when a double-bit error stopped it. -/
def writeCore (who : Who) (c off : Nat) (l : List Masked) (s : State) : Bool × State :=
  allOk (writeCoreWord who c) (cut 8 off l) s

/-- The tag of slot t of a core. -/
def Core.isFull (k : Core) (t : Nat) : Bool := Sparse.get false k.full t

/-- The tag of a slot set. -/
def State.setFull (s : State) (c t : Nat) (b : Bool) : State :=
  s.modCore c fun k => { k with full := Sparse.set false k.full t b }

/-! ### Shared memory and its banks -/

/-- Bank of a shared-memory offset (R231). -/
def bankOf (off : Nat) : Nat := off / 2 ^ 22

/-- Power of a bank. -/
def State.bank (s : State) (b : Nat) : BankPower := Sparse.get BankPower.on s.banks b

/-- Power of a bank set. -/
def State.setBank (s : State) (b : Nat) (p : BankPower) : State := { s with banks := Sparse.set BankPower.on s.banks b p }

/-- The power mode of a bank (R237): 0 ON, 1 AUTO, 2 OFF; 3 is treated as ON. -/
def State.bankMode (s : State) (b : Nat) : Nat :=
  let m := s.fld (Reg.SHM_PWR_MODE (b / 16)) (2 * (b % 16)) 2
  if m = 3 then 0 else m

/-- Starts the wake of a bank that is off or powering down (R241). -/
def State.wakeBank (s : State) (b : Nat) : State := s.setBank b (.waking s.ticks)

/-- Whether a bank takes accesses now. -/
def State.bankReady (s : State) (b : Nat) : Bool := decide (s.bank b = .on)

/-- Whether a bank's off decision stands. -/
def State.bankOff (s : State) (b : Nat) : Bool :=  decide (s.bank b = .off)

/-- The contents of a bank discarded, or cleared (R239, R241). -/
def State.clearBank (s : State) (b : Nat) : State :=
  { s with shared := Sparse.drop (fun a => decide (bankOf a = b)) s.shared
           sharedEcc := Sparse.drop (fun w => decide (bankOf (8 * w) = b)) s.sharedEcc }

/-- Checks word w of shared memory (R253). -/
def checkSharedWord (who : Who) (w : Nat) (s : State) : Bool × State :=
  match Sparse.get Ecc.good s.sharedEcc w with
  | .single =>
    let s := { s with sharedEcc := Sparse.set Ecc.good s.sharedEcc w .good }
    (true, (s.count Reg.SHM_ECC_CORR 1).memEvent who clsCorrected 1 (8 * w) false)
  | .double => (false, (s.count Reg.SHM_ECC_UNCORR 1).memEvent who clsJobFailed 1 (8 * w) false)
  | _ => (true, s)

/-- The banks of a shared-memory range. -/
def banksOf (addr n : Nat) : List Nat :=
  if n = 0 then [] else (List.range (bankOf (addr + n - 1) - bankOf addr + 1)).map (· + bankOf addr)

/-- An access to n bytes of shared memory books the banks that it covers and releases them (R238). -/
def State.touchBanks (s : State) (off n : Nat) : State := (banksOf off n).foldl State.touchBank s

/-- n bytes of shared memory, with the given words checked; none on a double-bit error. -/
def readSharedWith (who : Who) (words : List Nat) (off n : Nat) (s : State) : Option (List Byte) × State :=
  match allOk (checkSharedWord who) words (s.touchBanks off n) with
  | (true, s) => (some (Sparse.getList 0 s.shared off n), s)
  | (false, s) => (none, s)

/-- n bytes of shared memory for a master that reads words; none on a double-bit error. -/
def readShared (who : Who) (off n : Nat) (s : State) : Option (List Byte) × State :=
  readSharedWith who (wordsOf off n) off n s

/-- n bytes of shared memory for a command, which reads the covering slots (R193); none on a double-bit error. -/
def readSharedSlots (who : Who) (off n : Nat) (s : State) : Option (List Byte) × State :=
  readSharedWith who (slotWords off n) off n s

/-- One word of a write to shared memory. -/
def writeSharedWord (who : Who) (p : Nat × List Masked) (s : State) : Bool × State :=
  let w := p.1 / 8
  let (ok, s) := if fullWord p.2 then (true, s) else checkSharedWord who w s
  if ok then
    let old := Sparse.getList 0 s.shared p.1 p.2.length
    (true, { s with shared := Sparse.setList 0 s.shared p.1 (old.zipWith merge p.2)
                    sharedEcc := Sparse.set Ecc.good s.sharedEcc w .good })
  else (false, s)

/-- A write to shared memory, word by word; false when a double-bit error stopped it. -/
def writeShared (who : Who) (off : Nat) (l : List Masked) (s : State) : Bool × State :=
  allOk (writeSharedWord who) (cut 8 off l) (s.touchBanks off l.length)

/-! ### Stacked memory -/

/-- Bytes of stacked memory that physical addresses reach (R250). -/
def stackedBytes : Nat := 287997689856

/-- Stack of a physical address (R250). -/
def stackOf (pa : Nat) : Nat := pa / 256 % 6

/-- The end-to-end code of a slot (R252): CRC-32C over its 64 bytes and its physical address. -/
def slotCode (data : List Byte) (pa : Nat) : Nat := crc32c (data ++ toBytes 8 pa)

/-- Checks the slot of a physical address on a read (R252). -/
def checkSlot (who : Who) (pa : Nat) (s : State) : Bool × State :=
  let t := pa / 64
  let set (s : State) (e : Ecc) : State := { s with stackedEcc := Sparse.set Ecc.good s.stackedEcc t e }
  let poison (kind : Nat) : Bool × State :=
    let s := ((set s .poisoned).count Reg.SMC_UNCORR 1).memEvent who clsJobFailed 2 (64 * t) false
    let s := s.setReg Reg.SMC_ECC_LOG (BitVec.ofNat 64 (stackOf pa + kind * 8 + 16))
    (false, s.setReg Reg.SMC_ECC_ADDR (BitVec.ofNat 64 (64 * t)))
  match Sparse.get Ecc.good s.stackedEcc t with
  | .corrected => (true, ((set s .good).count Reg.SMC_CORRECTED 1).memEvent who clsCorrected 2 (64 * t) false)
  | .retry => (true, ((set s .good).count Reg.SMC_E2E_RETRY 1).memEvent who clsCorrected 2 (64 * t) false)
  | .codeBad => poison 0
  | .reportBad => poison 1
  | .poisoned => (false, s.memEvent who clsJobFailed 2 (64 * t) true)
  | _ => (true, s)

/-- n bytes at a physical address, all in one slot, checked; none when uncorrectable. -/
def readPhys (who : Who) (pa n : Nat) (s : State) : Option (List Byte) × State :=
  match checkSlot who pa s with
  | (true, s) => (some (Sparse.getList 0 s.stacked pa n), s)
  | (false, s) => (none, s)

/-- A write at a physical address, all in one slot: a write of the whole slot gives it a fresh code, a write of a part
reads and checks the slot first (R252). -/
def writePhys (who : Who) (pa : Nat) (l : List Masked) (s : State) : Bool × State :=
  let all := decide (l.length = 64) && l.all fun x => decide (x.2 = 0xFF)
  let (ok, s) := if all then (true, s) else checkSlot who pa s
  if ok then
    let old := Sparse.getList 0 s.stacked pa l.length
    (true, { s with stacked := Sparse.setList 0 s.stacked pa (old.zipWith merge l)
                    stackedEcc := Sparse.set Ecc.good s.stackedEcc (pa / 64) .good })
  else (false, s)

/-- A translation: a physical address, not valid (or without the permission), or a table entry that cannot be read. -/
inductive Xlat where
  | ok (pa : Nat)
  | invalid
  | uncorr
deriving DecidableEq, Repr

/-- One entry of a translation table; a table outside the physical addresses holds no valid entry (DEDUCED). -/
def readEntry (who : Who) (pa : Nat) (s : State) : Option Nat × State :=
  if pa + 8 ≤ stackedBytes then
    match readPhys who pa 8 s with
    | (some bs, s) => (some (ofBytes bs), s)
    | (none, s) => (none, s)
  else (some 0, s)

/-- The page and permission that the tables give a page number (R331); none inside: not valid. -/
def walk (who : Who) (vpn : Nat) (s : State) : Option (Option (Nat × Bool)) × State :=
  match readEntry who ((s.reg Reg.SMC_PT_BASE).toNat + 8 * (vpn / 2 ^ 14 % 2 ^ 13)) s with
  | (none, s) => (none, s)
  | (some e1, s) =>
    if e1 % 2 = 0 ∨ e1 / 2 % 2 ^ 16 ≠ 0 ∨ e1 / 2 ^ 39 ≠ 0 then (some none, s)
    else
      match readEntry who (e1 / 2 ^ 17 * 2 ^ 17 + 8 * (vpn % 2 ^ 14)) s with
      | (none, s) => (none, s)
      | (some e2, s) =>
        if e2 % 2 = 0 ∨ e2 / 4 % 2 ^ 19 ≠ 0 ∨ e2 / 2 ^ 39 ≠ 0 ∨ 137328 ≤ e2 / 2 ^ 21 then (some none, s)
        else (some (some (e2 / 2 ^ 21, decide (e2 / 2 % 2 = 1))), s)

/-- What a page with its permission gives an access. -/
def useEntry (write : Bool) (va : Nat) (p : Nat × Bool) : Xlat :=
  if write && !p.2 then .invalid else .ok (p.1 * 2 ^ 21 + va % 2 ^ 21)

/-- Translates a STACKED device virtual address; valid entries are cached (R331, R332). -/
def translate (who : Who) (write : Bool) (va : Nat) (s : State) : Xlat × State :=
  let vpn := va / 2 ^ 21
  match Sparse.get none s.tlb vpn with
  | some p => (useEntry write va p, s)
  | none =>
    match walk who vpn s with
    | (none, s) => (.uncorr, s)
    | (some none, s) => (.invalid, s)
    | (some (some p), s) => (useEntry write va p, { s with tlb := Sparse.set none s.tlb vpn (some p) })

/-- Whether a host page of an I/O virtual address can be reached (R333). -/
def State.hostReach (s : State) (write : Bool) (va : Nat) : Bool :=
  match Sparse.get 0 s.hostPages (va / 4096) with
  | 0 => true
  | 1 => !write
  | _ => false

/-! ### Export ranges -/

/-- The value that an epoch gives a register; else d. -/
def Epoch.value (e : Epoch) (off : Nat) (d : Word64) : Word64 := ((e.values.find? fun v => decide (v.1 = off)).map (·.2)).getD d

/-- The value of an epoch register for a request with a tag: a job's of the retiring epoch, by that epoch's tag, or the
current one (R383, R389). -/
def State.tagReg (s : State) (tag : Word32) (off : Nat) : Word64 :=
  match s.cfg.retiring with
  | some e => if e.tag = tag ∧ s.cfg.tag ≠ tag then e.value off (s.reg off) else s.reg off
  | none => s.reg off

/-- Whether a remote access of n bytes with a tag lies within the export range (R248). -/
def State.exported (s : State) (tag : Word32) (stacked : Bool) (addr n : Nat) : Bool :=
  if stacked then
    decide ((s.tagReg tag Reg.SMC_EXPORT_BASE).toNat ≤ addr)
      && decide (addr + n ≤ (s.tagReg tag Reg.SMC_EXPORT_LIMIT).toNat)
  else
    decide ((s.tagReg tag Reg.SHM_EXPORT_BASE).toNat ≤ addr)
      && decide (addr + n ≤ (s.tagReg tag Reg.SHM_EXPORT_LIMIT).toNat)

end Sys2Proof.Machine
end

