-- ==== Sys2Proof/Machine/Wire.lean ====
section
/-!
DEFINITION. What stands on the wires of the fabric: the bytes of messages (R354 to R356, R372, R376) and of flits (R347,
R348), written and read. The commands of a receiver carry what is read here; what a port sends (Out) has these bytes.
-/

namespace Sys2Proof.Machine

/-- The field [lo + n - 1 : lo] of a number. -/
def natField (v lo n : Nat) : Nat := (v >>> lo) % 2 ^ n

/-! ### Writing messages -/

/-- Length of a message in 4-byte words (R354 to R356). -/
def payloadWords : Payload → Nat
  | .wr _ _ data => 8 + ceilDiv data.length 4
  | .rd _ _ _ => 8
  | .sync _ => 12
  | .transit m => 8 + 65 * m.rows.length
  | .jobend _ => 4
  | .mgmt b => 4 + ceilDiv b.length 4
  | .rsp _ data => 4 + ceilDiv data.length 4
  | .bad _ _ => 4

/-- Types of messages (R355). -/
def payloadType : Payload → Nat
  | .wr _ _ _ => 1
  | .rd _ _ _ => 2
  | .sync _ => 3
  | .transit _ => 4
  | .jobend _ => 5
  | .mgmt _ => 6
  | .rsp _ _ => 8
  | .bad t _ => t.toNat

/-- The field spec of a message (R356). -/
def payloadSpec : Payload → Nat
  | .sync m =>
    place m.op.toNat 0 4 + place m.counter.toNat 4 13 + place m.fetch.toNat 17 1 + place m.replayable.toNat 18 1
      + place m.replays.toNat 19 2
  | .transit m => place m.chain.toNat 0 16 + place m.core.toNat 16 11 + place (m.rows.length - 1) 27 4
  | .jobend job => place job.toNat 0 24
  | .rsp st _ => place st.toNat 0 4
  | _ => 0

/-- Bytes padded with zeros to a whole number of words. -/
def padWord (bs : List Byte) : List Byte := bs ++ List.replicate ((4 - bs.length % 4) % 4) 0

/-- The extension of a WR or RD (R356). -/
def accessBytes (stacked : Bool) (addr count : Nat) : List Byte :=
  toBytes 16 (place addr 0 48 + place stacked.toNat 48 1 + place (count - 1) 49 12)

/-- One tile row of a TRANSIT message (R356). -/
def tileRowBytes (r : TileRow) : List Byte := toBytes 4 r.word.toNat ++ r.entries.flatMap fun e => toBytes 4 e.toNat

/-- What follows the header of a message: its extension and its data (R355, R356). -/
def payloadBytes : Payload → List Byte
  | .wr st a data => accessBytes st a.toNat data.length ++ padWord data
  | .rd st a n => accessBytes st a.toNat n.toNat
  | .sync m =>
    toBytes 32 (place m.operand.toNat 0 64 + place m.compare.toNat 64 64 + place m.job.toNat 128 24 + place m.core.toNat 152 11
      + place m.seq.toNat 163 16)
  | .transit m => toBytes 16 (place m.tseq.toNat 0 32) ++ m.rows.flatMap tileRowBytes
  | .mgmt body => padWord body
  | .rsp _ data => padWord data
  | _ => []

/-- A message header (R354). -/
def headerBytes (type len spec : Nat) (dl : Bool) (dst src : DevNum) (txn : BitVec 16) (tag : Word32) : List Byte :=
  toBytes 16 (place type 0 4 + place 1 4 4 + place dl.toNat 8 1 + place dst.toNat 11 12 + place src.toNat 23 12 + place len 35 13
    + place txn.toNat 48 16 + place tag.toNat 64 32 + place spec 96 32)

/-- The bytes of a routed message. -/
def messageBytes (h : MsgHdr) (p : Payload) : List Byte :=
  headerBytes (payloadType p) (payloadWords p) (payloadSpec p) h.dl h.dst h.src h.txn h.tag ++ payloadBytes p

/-- The bytes of a link-local message without extension: LINK of a kind (R356). -/
def linkBytes (src : DevNum) (tag : Word32) (kind : Nat) (lanes : BitVec 4) (lastSeq : BitVec 16) : List Byte :=
  headerBytes 0xE 4 (place kind 0 4 + place lanes.toNat 4 4 + place lastSeq.toNat 8 16) false 0 src 0 tag

/-- The bytes of a TIME message of a kind (R372). -/
def timeBytes (src : DevNum) (tag : Word32) (kind : Nat) (m : TimeMsg) : List Byte :=
  headerBytes 0xD 10 (place kind 0 2 + place m.depth.toNat 2 5 + place m.locked.toNat 7 1 + place m.bound.toNat 8 8
      + place m.exchange.toNat 16 16) false 0 src 0 tag
    ++ toBytes 24 (place m.a.toNat 0 72)

/-- A member's entry of a BEAT (R376). -/
def entryBits (e : PoolEntry) : Nat :=
  place e.demand.toNat 0 12 + place e.grant.toNat 12 12 + place e.lateness.toNat 24 8 + place e.age.toNat 32 8
    + place e.valid.toNat 40 1

/-- The extension of a BEAT (R376). -/
def beatBits (m : BeatMsg) : Nat :=
  place m.number.toNat 0 32 + place m.period.toNat 32 14 + place m.timeState.toNat 46 2 + place m.depth.toNat 48 5
    + place m.bound.toNat 53 8 + place m.time.toNat 64 64 + place m.epoch.toNat 128 32 + place m.staged.toNat 160 32
    + place m.armTime.toNat 192 64 + place m.digest.toNat 256 256 + place m.stagedTag.toNat 512 32 + place m.pool.toNat 544 16
    + place m.member.toNat 560 4 + place m.membersM1.toNat 564 4 + place m.onFloor.toNat 568 1
    + (m.entries.zipIdx.map fun e => place (entryBits e.1) (576 + 48 * e.2) 48).sum + place m.budget.toNat 1344 16

/-- The bytes of a BEAT (R376). -/
def beatBytes (src : DevNum) (tag : Word32) (m : BeatMsg) : List Byte :=
  headerBytes 0xC 52 0 false 0 src 0 tag ++ toBytes 192 (beatBits m)

/-! ### Reading messages -/

/-- Lengths in words that a type admits (R355, R356). -/
def lengthOk (type len : Nat) (n : Nat) : Bool :=
  match type with
  | 1 => decide (len = 8 + ceilDiv n 4)
  | 2 => decide (len = 8)
  | 3 => decide (len = 12)
  | 4 => decide (len = 8 + 65 * n)
  | 5 => decide (len = 4)
  | 6 => decide (4 ≤ len ∧ len ≤ 260)
  | 8 => decide (4 ≤ len ∧ len ≤ 1028)
  | 0xC => decide (len = 52)
  | 0xD => decide (len = 10)
  | 0xE => decide (len = 4)
  | _ => false

/-- A tile row from the 260 bytes of a TRANSIT message. -/
def tileRowOf (bs : List Byte) : TileRow :=
  { word := BitVec.ofNat 32 (ofBytes (bs.take 4))
    entries := (List.range 64).map fun i => BitVec.ofNat 32 (ofBytes ((bs.drop (4 + 4 * i)).take 4)) }

/-- The payload of a routed message of an admitted type and length: type, spec, and the bytes after the header. -/
def payloadOf (type spec : Nat) (bs : List Byte) : Payload :=
  let x := ofBytes (bs.take 32)
  match type with
  | 1 =>
    .wr (natField x 48 1 = 1) (BitVec.ofNat 48 x) ((bs.drop 16).take (natField x 49 12 + 1))
  | 2 => .rd (natField x 48 1 = 1) (BitVec.ofNat 48 x) (BitVec.ofNat 13 (natField x 49 12 + 1))
  | 3 =>
    .sync { op := BitVec.ofNat 4 spec, counter := BitVec.ofNat 13 (spec >>> 4), fetch := natField spec 17 1 = 1
            replayable := natField spec 18 1 = 1, replays := BitVec.ofNat 2 (spec >>> 19), operand := BitVec.ofNat 64 x
            compare := BitVec.ofNat 64 (x >>> 64), job := BitVec.ofNat 24 (x >>> 128), core := BitVec.ofNat 11 (x >>> 152)
            seq := BitVec.ofNat 16 (x >>> 163) }
  | 4 =>
    .transit { chain := BitVec.ofNat 16 spec, core := BitVec.ofNat 12 (natField spec 16 11), tseq := BitVec.ofNat 32 x
               rows := (List.range (natField spec 27 4 + 1)).map fun i => tileRowOf ((bs.drop (16 + 260 * i)).take 260) }
  | 5 => .jobend (BitVec.ofNat 24 spec)
  | 6 => .mgmt bs
  | 8 => .rsp (BitVec.ofNat 4 spec) bs
  | t => .bad (BitVec.ofNat 4 t) (decide (1 ≤ t ∧ t ≤ 6))

/-- The header number of a message. -/
def headerOf (bs : List Byte) : Nat := ofBytes (bs.take 16)

/-- The count that the length of a message depends on: bytes of a WR, tile rows of a TRANSIT. -/
def countOf (type spec : Nat) (bs : List Byte) : Nat :=
  if type = 1 then natField (ofBytes ((bs.drop 16).take 8)) 49 12 + 1 else natField spec 27 4 + 1

/-- Whether a message is of an assigned type, of version 1, and of a length that its type admits (R355). -/
def wellSent (bs : List Byte) : Bool :=
  let h := headerOf bs
  decide (natField h 4 4 = 1) && lengthOk (natField h 0 4) (natField h 35 13) (countOf (natField h 0 4) (natField h 96 32) bs)

/-- The routed part of a header that came in by a port. -/
def routedOf (port : PortId) (h : Nat) : MsgHdr :=
  { inPort := some port, dl := natField h 8 1 = 1, dst := BitVec.ofNat 12 (h >>> 11), src := BitVec.ofNat 12 (h >>> 23)
    txn := BitVec.ofNat 16 (h >>> 48), tag := BitVec.ofNat 32 (h >>> 64) }

/-- The payload of a routed message; one that R355 discards is bad. -/
def readPayload (bs : List Byte) : Payload :=
  let h := headerOf bs
  let type := natField h 0 4
  if wellSent bs then payloadOf type (natField h 96 32) (bs.drop 16) else .bad (BitVec.ofNat 4 type) (decide (1 ≤ type ∧ type ≤ 6))

/-- A member's entry of a BEAT. -/
def entryOf (v : Nat) : PoolEntry :=
  { demand := BitVec.ofNat 12 v, grant := BitVec.ofNat 12 (v >>> 12), lateness := BitVec.ofNat 8 (v >>> 24)
    age := BitVec.ofNat 8 (v >>> 32), valid := natField v 40 1 = 1 }

/-- The extension of a BEAT. -/
def beatOf (v : Nat) : BeatMsg :=
  { number := BitVec.ofNat 32 v, period := BitVec.ofNat 14 (v >>> 32), timeState := BitVec.ofNat 2 (v >>> 46)
    depth := BitVec.ofNat 5 (v >>> 48), bound := BitVec.ofNat 8 (v >>> 53), time := BitVec.ofNat 64 (v >>> 64)
    epoch := BitVec.ofNat 32 (v >>> 128), staged := BitVec.ofNat 32 (v >>> 160), armTime := BitVec.ofNat 64 (v >>> 192)
    digest := BitVec.ofNat 256 (v >>> 256), stagedTag := BitVec.ofNat 32 (v >>> 512), pool := BitVec.ofNat 16 (v >>> 544)
    member := BitVec.ofNat 4 (v >>> 560), membersM1 := BitVec.ofNat 4 (v >>> 564), onFloor := natField v 568 1 = 1
    entries := (List.range 16).map fun i => entryOf (natField v (576 + 48 * i) 48), budget := BitVec.ofNat 16 (v >>> 1344) }

/-- A TIME message from its spec field and its extension. -/
def timeOf (spec ext : Nat) : TimeMsg :=
  { a := BitVec.ofNat 72 ext, depth := BitVec.ofNat 5 (spec >>> 2), locked := natField spec 7 1 = 1
    bound := BitVec.ofNat 8 (spec >>> 8), exchange := BitVec.ofNat 16 (spec >>> 16) }

/-- The command of a routed message of len words for this device. -/
def routedCommand (h : MsgHdr) (len : Nat) : Payload → Instr
  | .wr st a data => .msgWr h st a data
  | .rd st a n => .msgRd h st a n
  | .sync m => .msgSync h m
  | .transit m => .msgTransit h m
  | .jobend job => .msgJobend h job
  | .mgmt body => .msgMgmt h body
  | .rsp st data => .msgRsp h st data
  | .bad t r => .messageForward h (BitVec.ofNat 13 len) (.bad t r)

/-- The command of a link-local message (R355); none for kinds that are not defined. -/
def linkCommand (port : PortId) (type spec : Nat) (src : DevNum) (ext : Nat) : Option Instr :=
  match type, natField spec 0 (if type = 0xD then 2 else 4) with
  | 0xC, _ => some (.msgBeat port (beatOf ext))
  | 0xD, 0 => some (.timeSync port (timeOf spec ext))
  | 0xD, 1 => some (.timeDelayReq port (timeOf spec ext))
  | 0xD, 2 => some (.timeDelayRsp port (timeOf spec ext))
  | 0xE, 0 => some (.linkHello port { dev := src, lanes := BitVec.ofNat 4 (spec >>> 4), lastSeq := BitVec.ofNat 16 (spec >>> 8) })
  | 0xE, 1 => some (.linkSlow port)
  | 0xE, 2 => some (.linkFast port)
  | 0xE, 3 => some (.linkWidth port (BitVec.ofNat 4 (spec >>> 4)))
  | _, _ => none

/-- The command that the bytes of a message received by a port are, for the device of number self (R354, R355, R360). -/
def readMessage (self : DevNum) (port : PortId) (bs : List Byte) : Option Instr :=
  let h := headerOf bs
  let type := natField h 0 4
  let spec := natField h 96 32
  let m := routedOf port h
  if 0xC ≤ type ∧ type ≤ 0xE ∧ wellSent bs then linkCommand port type spec m.src (ofBytes (bs.drop 16))
  else if m.dst = self then some (routedCommand m (natField h 35 13) (readPayload bs))
  else some (.messageForward m (BitVec.ofNat 13 (natField h 35 13)) (readPayload bs))

/-! ### Messages in the payload of flits -/

/-- Payload bytes of a data flit (R347). -/
def flitPayload : Nat := 244

/-- A payload filled up with pad words (R354). -/
def padFlit (bs : List Byte) : List Byte := bs ++ List.replicate (flitPayload - bs.length) 0

/-- The whole messages at the front of received bytes, with what is left (R354): words of zeros in place of a header are
skipped; a length below 4 counts as 4 (DEDUCED: a header is 4 words). -/
def splitMessages : Nat → List Byte → List (List Byte) × List Byte
  | 0, bs => ([], bs)
  | n + 1, bs =>
    let len := 4 * max 4 (natField (headerOf bs) 35 13)
    if 4 ≤ bs.length ∧ ofBytes (bs.take 4) = 0 then splitMessages n (bs.drop 4)
    else if bs.length < 16 ∨ bs.length < len then ([], bs)
    else
      let (ms, rest) := splitMessages n (bs.drop len)
      (bs.take len :: ms, rest)

/-! ### Flits -/

/-- The first 248 bytes of a flit (R347): its header and 244 bytes of payload. -/
def flitBody (seq ack : BitVec 10) (nak ctl : Bool) (cvc : BitVec 2) (ccount : BitVec 6) (payload : List Byte) : List Byte :=
  toBytes 4 (place seq.toNat 0 10 + place ack.toNat 10 10 + place nak.toNat 20 1 + place ctl.toNat 21 1 + place cvc.toNat 22 2
    + place ccount.toNat 24 6) ++ padFlit payload

/-- The 256 bytes of a flit: its check follows its body (R347, R348). -/
def flitBytes (body : List Byte) : List Byte := body ++ toBytes 8 (crc64 body)

/-- The 256 bytes of a data flit that a port sends. -/
def Flit.bytes (f : Flit) : List Byte :=
  flitBytes (flitBody (BitVec.ofNat 10 f.seq) (BitVec.ofNat 10 f.ack) false false (BitVec.ofNat 2 f.cvc) (BitVec.ofNat 6 f.ccount)
    f.payload)

/-- The 256 bytes of a control flit: ack and nak alone (R347). -/
def controlBytes (ack : Nat) (nak : Bool) : List Byte := flitBytes (flitBody 0 (BitVec.ofNat 10 ack) nak true 0 0 [])

/-- The 256 bytes of a flit that leaves a port; none for what is no flit. -/
def outBytes : Out → Option (List Byte)
  | .flit _ _ f => some f.bytes
  | .control _ ack nak => some (controlBytes ack nak)
  | _ => none

/-- The lane on which data flit k goes (R346): of the active lanes, ascending, the one of rank k mod n. -/
def laneOf (active : BitVec 4) (k : Nat) : Nat :=
  let lanes := (List.range 4).filter active.getLsbD
  lanes.getD (k % lanes.length) 0

/-- A 40-bit lane marker (R346). -/
def laneMarker (lane count : Nat) : Nat := place lane 0 4 + place count 4 32

/-- The 1,285 bytes of a codeword pair on a lane (R346): its marker, then five flits. -/
def codewordPair (lane count : Nat) (flits : List (List Byte)) : List Byte :=
  toBytes 5 (laneMarker lane count) ++ (flits.take 5).flatten

/-- The command that a received flit is (R347, R348); fecOk says whether its codewords were good (R343). Of a flit
whose check fails no field can be trusted: it counts as a data flit that failed (DEDUCED). -/
def readFlit (port : PortId) (fecOk : Bool) (bs : List Byte) : Instr :=
  let v := ofBytes (bs.take 4)
  let crcOk := decide (ofBytes (bs.drop 248) = crc64 (bs.take 248))
  let ack := BitVec.ofNat 10 (v >>> 10)
  let nak := decide (natField v 20 1 = 1)
  if natField v 21 1 = 1 ∧ crcOk then .controlFlit port ack nak
  else
    .dataFlitReceive port { seq := BitVec.ofNat 10 v, ack := ack, nak := nak, cvc := BitVec.ofNat 2 (v >>> 22)
                            ccount := BitVec.ofNat 6 (v >>> 24), payload := (bs.drop 4).take flitPayload
                            crcOk := crcOk, fecOk := fecOk }

end Sys2Proof.Machine
end

