-- ==== Sys2Proof/Machine/Remote.lean ====
section
/-!
DEFINITION. Messages between devices as the commands use them: routing (R360 to R363), the queues and credits of a port
(R357 to R359, R364), what a target does with a request (R355, R356, R366 to R368, R390), and what a source does with the
response (R365, R366, R391).
-/

namespace Sys2Proof.Machine

/-! ### Routing -/

/-- Size of an axis (R360). -/
def State.axisSize (s : State) (a : Nat) : Nat := s.fld Reg.NRN_TOPO (4 * a) 4 + 1

/-- The coordinate of a device number on an axis (R6). -/
def coord (dev a : Nat) : Nat := dev / 16 ^ a % 16

/-- Whether every coordinate of a device lies within the torus (R363). -/
def State.inTorus (s : State) (dev : Nat) : Bool := (List.range 3).all fun a => decide (coord dev a < s.axisSize a)

/-- The port and dateline class by which a message to another device leaves (R360, R361). -/
def State.route (s : State) (inPort : Option Nat) (dl : Bool) (dst : Nat) : Option (Nat × Bool) :=
  ((List.range 3).find? fun a => decide (coord dst a % s.axisSize a ≠ coord s.selfDev a % s.axisSize a)).map fun a =>
    let n := s.axisSize a
    let c := coord s.selfDev a
    let d := (coord dst a + n - c % n) % n
    let plus := decide (d ≤ n - d)
    let crossing := if plus then decide (c = n - 1) else decide (c = 0)
    let stay := inPort.elim false fun p => decide (p / 2 = a)
    (2 * a + (!plus).toNat, crossing || (stay && dl))

/-! ### Ports -/

/-- Whether a payload is a response. -/
def isResponse : Payload → Bool
  | .rsp _ _ => true
  | .bad _ request => !request
  | _ => false

/-- The virtual channel of a message (R357). -/
def QMsg.vc (m : QMsg) : Nat := (if isResponse m.payload then 2 else 0) + m.hdr.dl.toNat

/-- Whether a port carries messages. -/
def Port.open_ (q : Port) : Bool := decide (q.state = .up ∨ q.state = .low)

/-- Credits that a message takes (R358): none for one that is link-local by its type. -/
def QMsg.credits (m : QMsg) : Nat :=
  match m.payload with
  | .bad t _ => if 0xC ≤ t.toNat then 0 else ceilDiv (4 * m.len) 16
  | _ => ceilDiv (4 * m.len) 16

/-- The source of a message in an output queue (R359): the input port, or 6 for the device itself. -/
def QMsg.source (m : QMsg) : Nat := m.hdr.inPort.elim 6 (·.val)

/-- Whether n more bytes of messages can go into the flits of a port now: it is open, and keeps at most 512 data flits
unacknowledged (R349). -/
def Port.hasRoom (q : Port) (n : Nat) : Bool := q.open_ && decide (q.txNext - q.txAcked + ceilDiv n flitPayload ≤ 512)

/-- Whether a port can start a message now, with n bytes of others before it in the same flits (R349, R358). -/
def Port.canSend (q : Port) (n : Nat) (m : QMsg) : Bool :=
  q.hasRoom (n + 4 * m.len) && decide (m.credits ≤ q.credits.getD m.vc 0)

/-- The next message of a channel: that of the source after the one served last that has one (R359). -/
def Port.nextOf (q : Port) (vc : Nat) : Option QMsg :=
  (List.range 7).findSome? fun i =>
    q.queue.find? fun m => decide (m.vc = vc ∧ m.source = (q.lastIn.getD vc 6 + 1 + i) % 7)

/-- The message that a port sends next (R359): responses before requests, the two channels of a class in rotation. -/
def Port.pick (q : Port) (n : Nat) : Option QMsg :=
  let r := q.turn % 2
  let u := q.turn / 2 % 2
  [2 + r, 3 - r, u, 1 - u].findSome? fun vc => (q.nextOf vc).filter (q.canSend n ·)

/-- A message leaves the buffer of its input port: its credits wait to go back (R358). -/
def State.creditBack (s : State) (m : QMsg) : State :=
  match m.hdr.inPort with
  | none => s
  | some p => s.modPort p.val fun q => { q with returns := q.returns.set m.inVc (q.returns.getD m.inVc 0 + m.credits) }

/-- A picked message enters the flits of port p: credits are spent, the rotations move on, and a forwarded one is counted and
leaves its input buffer (R358 to R360). -/
def State.sendOn (s : State) (p : Nat) (m : QMsg) : State :=
  let q := s.port p
  let vc := m.vc
  let turn := if 2 ≤ vc then q.turn / 2 * 2 + (vc + 1) % 2 else q.turn % 2 + 2 * ((vc + 1) % 2)
  let q := { q with queue := q.queue.erase m, turn := turn, lastIn := q.lastIn.set vc m.source
                    credits := q.credits.set vc (q.credits.getD vc 0 - m.credits) }
  let s := (s.setPort p q).emit (.msg (some p) vc m)
  if m.hdr.inPort.isSome then (s.count Reg.NRN_FWD 1).creditBack m else s

/-- The last data flit that a port has accepted (R347). -/
def Port.accepted (q : Port) : Nat := (q.rxExpected + 1023) % 1024

/-- The data flit that a port sends next with a payload, and the port after it: it carries an ack, and credits of the first
channel that has some to return (R347, R349, R358). -/
def Port.nextFlit (q : Port) (now : Nat) (payload : List Byte) : Flit × Port :=
  let vc := ((List.range 4).find? fun v => decide (q.returns.getD v 0 ≠ 0)).getD 0
  let n := min 63 (q.returns.getD vc 0)
  let f : Flit := { seq := q.txNext % 1024, ack := q.accepted, cvc := vc, ccount := n, payload := padFlit payload }
  (f, { q with returns := q.returns.set vc (q.returns.getD vc 0 - n), txNext := q.txNext + 1, unacked := q.unacked ++ [f]
               lastProgress := if q.txNext = q.txAcked then now else q.lastProgress })

/-- Link flits that the Heliostat counts (R409). -/
def State.flitsSent (s : State) (n : Nat) : State := { s with power := { s.power with flits := s.power.flits + n } }

/-- Port p sends a data flit (R346, R347). -/
def State.sendFlit (s : State) (p : Nat) (payload : List Byte) : State :=
  let q := s.port p
  let (f, q') := q.nextFlit s.ticks payload
  (((s.setPort p q').count (Reg.NRN_TX_FLITS p) 1).flitsSent 1).emit (.flit p (laneOf q.active q.txNext) f)

/-- Words of a link-local message (R355). -/
def LinkMsg.words : LinkMsg → Nat
  | .link _ => 4
  | .time _ _ => 10
  | .beat _ => 52

/-- A timestamp written into a TIME message as the port sends it (R372): a SYNC and a DELAY_REQ carry the time of their
sending. -/
def LinkMsg.stamped (now : Nat) : LinkMsg → LinkMsg
  | .time k m => .time k (if k ≤ 1 then { m with a := BitVec.ofNat 72 now } else m)
  | m => m

/-- What leaves by port p as a link-local message. -/
def LinkMsg.out (m : LinkMsg) (s : State) (p : Nat) : Out :=
  match m with
  | .link kind => .linkMsg p kind (BitVec.ofNat 12 s.selfDev) (s.port p).healthy (s.port p).accepted
  | .time kind m => .time p kind m
  | .beat m => .beat p m

/-- The bytes of a link-local message by port p, with the sender's configuration tag (R354). -/
def LinkMsg.bytes (m : LinkMsg) (s : State) (p : Nat) : List Byte :=
  let self : DevNum := BitVec.ofNat 12 s.selfDev
  match m with
  | .link kind => linkBytes self s.cfg.tag kind (s.port p).healthy (BitVec.ofNat 16 (s.port p).accepted)
  | .time kind m => timeBytes self s.cfg.tag kind m
  | .beat m => beatBytes self s.cfg.tag m

/-- What a DELAY_REQ's sending notes: its time is t3 (R372). -/
def State.noteSent (s : State) (p : Nat) : LinkMsg → State
  | .time 1 _ =>
    { s with time := { s.time with exchange := s.time.exchange.map fun x => if x.port = p then { x with t3 := s.time.now } else x } }
  | _ => s

/-- The first link-local message of port p enters its flits. -/
def State.sendLocalMsg (s : State) (p : Nat) (m : LinkMsg) (rest : List LinkMsg) : State :=
  ((s.modPort p fun q => { q with linkQueue := rest }).noteSent p m).emit (m.out s p)

/-- Gathers the bytes of the messages that port p can send now, at most n of them, after the bytes bs (R359). -/
def State.gather (p : Nat) : Nat → List Byte → State → List Byte × State
  | 0, bs, s => (bs, s)
  | n + 1, bs, s =>
    match (s.port p).linkQueue with
    | m :: l =>
      let m := m.stamped s.time.now
      if (s.port p).hasRoom (bs.length + 4 * m.words) then State.gather p n (bs ++ m.bytes s p) (s.sendLocalMsg p m l)
      else (bs, s)
    | [] =>
      match (s.port p).pick bs.length with
      | some m => State.gather p n (bs ++ messageBytes m.hdr m.payload) (s.sendOn p m)
      | none => (bs, s)

/-- Sends every message of port p that can go now: their bytes follow one another in its data flits (R354). -/
def State.drainPort (s : State) (p : Nat) : State :=
  let q := s.port p
  let (bs, s) := State.gather p (q.linkQueue.length + q.queue.length) [] s
  (chunks flitPayload bs).foldl (fun s b => s.sendFlit p b) s

/-- Credits of port p that wait and that no message's flits took go back in data flits of pad words, at most n of them (R349,
R358). -/
def State.flushCredits (p : Nat) : Nat → State → State
  | 0, s => s
  | n + 1, s =>
    if (s.port p).returns.any (fun r => decide (r ≠ 0)) && (s.port p).hasRoom flitPayload then
      State.flushCredits p n (s.sendFlit p [])
    else s

/-- Data flits that the waiting credits of a port fill. -/
def Port.creditFlits (q : Port) : Nat := (q.returns.map fun n => ceilDiv n 63).sum

/-- Everything that port p can send now: messages, then the credits of every port whose buffer they have left (R349, R358,
R359). -/
def State.pump (s : State) (p : Nat) : State :=
  (List.range 6).foldl (fun s i => State.flushCredits i (s.port i).creditFlits s) (s.drainPort p)

/-- A message has left the buffer of its input port: its credits go back (R358). -/
def State.giveBack (s : State) (m : QMsg) : State :=
  m.hdr.inPort.elim s fun p => (s.creditBack m).pump p.val

/-- A link-local message to the peer of port p. -/
def State.sendLink (s : State) (p : Nat) (m : LinkMsg) : State :=
  (s.modPort p fun q => { q with linkQueue := q.linkQueue ++ [m] }).pump p

/-- Whether a port has been down for down_limit_us without a break (R364). -/
def State.downLong (s : State) (p : Nat) : Bool :=
  let q := s.port p
  !q.open_ && decide (1000 * atLeastOne (s.fld Reg.NRN_ROUTE_CTRL 0 15) ≤ s.ticks - q.downSince)

/-- A message put into the queue of its port, and sent as far as the port can. -/
def State.enqueue (s : State) (p : Nat) (m : QMsg) : State :=
  (s.modPort p fun q => { q with queue := q.queue ++ [m] }).pump p

/-- Sends a message to another device, or discards it where its port has been down too long: a request is then answered
UNREACH (the flag of the answer). A discarded message leaves its input buffer. -/
def State.sendMsg (s : State) (m : QMsg) : Bool × State :=
  match s.route (m.hdr.inPort.map (·.val)) m.hdr.dl m.hdr.dst.toNat with
  | none => (false, s.giveBack m)
  | some (p, dl) =>
    if s.downLong p then
      (!(isResponse m.payload), (if isResponse m.payload then s else s.count Reg.NRN_UNREACH 1).giveBack m)
    else (false, s.enqueue p { m with hdr := { m.hdr with dl := dl } })

/-! ### Tags -/

/-- The configuration tag of a job's epoch (R389). -/
def State.jobTag (s : State) (j : Job) : Word32 :=
  match s.cfg.retiring with
  | some e => if e.num.toNat = j.epoch ∧ s.cfg.cur.toNat ≠ j.epoch then e.tag else s.cfg.tag
  | none => s.cfg.tag

/-- Whether a checked request carries the current or the retiring tag (R390). -/
def State.tagOk (s : State) (t : Word32) : Bool :=
  decide (t = s.cfg.tag) || s.cfg.retiring.elim false fun e => decide (t = e.tag)

/-- The value of an epoch register for a job: that of the job's epoch (R383). -/
def State.epochReg (s : State) (j : Job) (off : Nat) : Word64 :=
  match s.cfg.retiring with
  | some e =>
    if e.num.toNat = j.epoch ∧ s.cfg.cur.toNat ≠ j.epoch then
      e.value off (s.reg off)
    else s.reg off
  | none => s.reg off

/-! ### The source: what a response does -/

/-- Response statuses (R366). -/
def rspOk : Nat := 0
def rspRefused : Nat := 1
def rspTagMismatch : Nat := 2
def rspUnreach : Nat := 3
def rspBusy : Nat := 4
def rspError : Nat := 5
def rspDup : Nat := 6

/-- The outstanding request of a transaction. -/
def State.findReq (s : State) (txn : Nat) : Option Request :=
  s.requests.find? fun r => decide (r.txn = txn) && r.answer.isNone

/-- A request taken out. -/
def State.dropReq (s : State) (txn : Nat) : State := { s with requests := s.requests.filter fun r => r.txn ≠ txn }

/-- A request changed. -/
def State.modReq (s : State) (txn : Nat) (f : Request → Request) : State :=
  { s with requests := s.requests.map fun r => if r.txn = txn then f r else r }

/-- The site of a request. -/
def State.reqSite (s : State) (r : Request) : Site :=
  ⟨r.job, (s.findJob r.job).elim 0 (·.ring), r.core, r.seq, r.op⟩

/-- The fault that a refused request is: the offset of its first byte, or 8·counter (R366). -/
def Request.faultOff (r : Request) : Nat :=
  match r.payload with
  | .sync m => 8 * m.counter.toNat
  | _ => r.offset

/-- Whether a request's answer is kept for its command: a read, a SYNC and a TRANSIT wait for it. -/
def Request.kept (r : Request) : Bool :=
  match r.payload with
  | .rd _ _ _ => true
  | .sync _ => true
  | .transit _ => true
  | _ => false

/-- The source's action on a good response (R366, R315): the SYNC record of a replayable job precedes the acknowledge. -/
def State.rspGood (s : State) (r : Request) (data : List Byte) : State :=
  let s := match r.payload with
    | .sync _ => s.journal r.job (.sync r.core r.seq (BitVec.ofNat 64 (ofBytes data)))
    | _ => s
  if r.kept then s.modReq r.txn fun r => { r with answer := some (rspOk, data) } else s.dropReq r.txn

/-- The command that waits for a request's answer is abandoned, with its bookings: its job has stopped. -/
def State.abandonCmd (s : State) (c q : Nat) : State :=
  (((s.core c).issued.filter fun i => decide (i.seq = q)).foldl State.release s).modCore c fun k =>
    { k with issued := k.issued.filter fun i => i.seq ≠ q }

/-- What a response that refuses a request does for a job that runs (R326, R365, R366, R391). A refused SYNC that carries a
replay count ends the job with LOST and posts a REPLAY record with the journal error bit (R326; DEDUCED, log entry 129: the
sender cannot tell the two reasons of a REFUSED apart). -/
def State.rspBad (s : State) (j : Job) (r : Request) (status : Nat) (tag : Word32) : State :=
  let t := s.dropReq r.txn
  if status = rspRefused then
    match r.payload with
    | .sync m =>
      if m.replays = 0 then t.resFault (s.reqSite r) 6 r.faultOff 0 false .resource
      else
        (t.raise (replayEvent j clsJobFailed (j.replays * 2 ^ 4 + 2 ^ 9 + 2 ^ 10) r.core r.seq 0)).endJob r.job .lost
          r.core r.seq
    | _ => t.resFault (s.reqSite r) 6 r.faultOff 0 false .resource
  else if status = rspTagMismatch then
    (t.contain r.job 2 r.core r.seq 0 0).modJob r.job fun j =>
      if j.contained = some ⟨2, r.seq, 0, 0⟩ then { j with tagWait := some (tag.toNat, 0) } else j
  else if status = rspUnreach then t.contain r.job 6 r.core r.seq r.dst.toNat 0
  else if status = rspError then
    (t.memEvent ⟨r.job, r.core, j.ring, false⟩ clsJobFailed 2 r.offset false).endJob r.job .memUncorr r.core r.seq
  else t

/-- The source's action on a response, or on the UNREACH that stands for a missing one (R365, R366, R391). A response to
no outstanding request is late. For a job that has stopped, a good answer serves the command that still runs to its end
(R204, R321); any other answer ends that command. -/
def State.respond (s : State) (txn status : Nat) (data : List Byte) (tag : Word32) : State :=
  match s.findReq txn with
  | none => s.count Reg.NRN_LATE_RSP 1
  | some r =>
    match r.payload with
    | .jobend _ =>
      let s := s.dropReq txn
      if status = rspUnreach then s.count Reg.NRN_JOBEND_LOST 1 else s
    | _ =>
      if status = rspOk ∨ status = rspDup then
        if (s.findJob r.job).isSome then s.rspGood r data else s.dropReq txn
      else if status = rspBusy then s.modReq txn fun r => { r with busy := true, sent := s.ticks }
      else
        match s.findJob r.job with
        | none => s.dropReq txn
        | some j =>
          if j.phase.alive then s.rspBad j r status tag
          else (s.dropReq txn).abandonCmd r.core r.seq

/-! ### The target: what a request does -/

/-- Whether tile sequence number n is newer than the kept number m (R93). -/
def newerSeq (n m : Nat) : Bool :=
  let d := (n + 2 ^ 32 - m % 2 ^ 32) % 2 ^ 32
  decide (1 ≤ d) && decide (d ≤ 2 ^ 31 - 1)

/-- Whether core c has not yet merged this tile sequence number on this chain (R93). -/
def Core.accepts (k : Core) (chain tseq : Nat) : Bool :=
  match k.chains.find? fun e => decide (e.1 = chain) with
  | some e => newerSeq tseq e.2
  | none => true

/-- The answer of a target: a status and data; none while it must wait (for a bank's wake, for room in bank 61). -/
abbrev Served := Option (Nat × List Byte) × State

/-- Makes the pieces of a remote write, each within one slot. -/
def serveWrite (stacked : Bool) (p : Nat × List Byte) (s : State) : Bool × State :=
  if stacked then
    match translate Who.none true p.1 s with
    | (.ok pa, s) => writePhys Who.none pa (p.2.map whole) s
    | (_, s) => (false, s)
  else writeShared Who.none p.1 (p.2.map whole) s

/-- Reads the pieces of a remote read in order. -/
def serveRead (stacked : Bool) : List (Nat × List Unit) → State → Option (List Byte) × State
  | [], s => (some [], s)
  | p :: l, s =>
    let (d, s) := if stacked then
        match translate Who.none false p.1 s with
        | (.ok pa, s) => readPhys Who.none pa p.2.length s
        | (_, s) => (none, s)
      else readShared Who.none p.1 p.2.length s
    match d with
    | none => (none, s)
    | some bs =>
      match serveRead stacked l s with
      | (some rest, s) => (some (bs ++ rest), s)
      | (none, s) => (none, s)

/-- Wakes the banks of a range that are off, as for a BAR4 access (R242, R353); true when all are ready. -/
def State.rouse (s : State) (bs : List Nat) : Bool × State :=
  (bs.all s.bankReady, (bs.filter s.bankOff).foldl (fun s b => (s.wakeBank b).count Reg.SHM_WAKES 1) s)

/-- Whether every page of a remote STACKED range is mapped with the needed permission: 0 yes, 1 no, 2 not readable. -/
def pagesOk (write : Bool) : List Nat → State → Nat × State
  | [], s => (0, s)
  | va :: l, s =>
    match translate Who.none write va s with
    | (.ok _, s) => pagesOk write l s
    | (.invalid, s) => (1, s)
    | (.uncorr, s) => (2, s)

/-- A checked WR or RD at its target (R248, R356, R366). -/
def serveAccess (tag : Word32) (write stacked : Bool) (addr : Nat) (data : List Byte) (n : Nat) (s : State) : Served :=
  if !s.exported tag stacked addr n then (some (rspRefused, []), s)
  else
    let ps := cut 64 addr (List.replicate n ())
    let (ready, s) := if stacked then (decide (s.power.state ≠ .dormant), s) else s.rouse (banksOf addr n)
    if !ready then (none, s)
    else
      let (bad, s) := if stacked then pagesOk write (ps.map (·.1)) s else (0, s)
      if bad = 1 then (some (rspRefused, []), s)
      else if bad = 2 then (some (rspError, []), s)
      else if write then
        match allOk (serveWrite stacked) (cut 64 addr data) s with
        | (true, s) => (some (rspOk, []), s)
        | (false, s) => (some (rspError, []), s)
      else
        match serveRead stacked ps s with
        | (some bs, s) => (some (rspOk, bs), s)
        | (none, s) => (some (rspError, []), s)

/-- The counter operation of a SYNC message's op field; POST is not carried. -/
def ctrOpOf (op : Nat) : Option CtrOp :=
  match op with
  | 0 => some .add
  | 1 => some .set
  | 2 => some .max
  | 3 => some .min
  | 4 => some .or
  | 5 => some .and
  | 6 => some .cas
  | _ => none

/-- Whether a counter is open to remote SYNCs with a tag (R313). -/
def State.openCtr (s : State) (tag : Word32) (n : Nat) : Bool :=
  let f := bits (s.tagReg tag Reg.SYN_REMOTE_FIRST) 0 13
  decide (f ≤ n) && decide (n < min (f + bits (s.tagReg tag Reg.SYN_REMOTE_COUNT) 0 14) 8192)

/-- A remote SYNC at its target (R313, R316, R326). -/
def serveSync (tag : Word32) (src : DevNum) (m : SyncMsg) (s : State) : Served :=
  let n := m.counter.toNat
  match ctrOpOf m.op.toNat with
  | none => (some (rspRefused, []), s.count Reg.SYN_REMOTE_REFUSED 1)
  | some op =>
    let old := s.ctr n
    let known := s.identities.find? fun i =>
      decide (i.dev = src ∧ i.job = m.job.toNat ∧ i.core = m.core.toNat ∧ i.seq = m.seq.toNat)
    if !s.openCtr tag n ∨ (m.replays ≠ 0 ∧ s.identityBroken ≠ []) then
      (some (rspRefused, []), s.count Reg.SYN_REMOTE_REFUSED 1)
    else if !m.replayable then
      (some (rspOk, toBytes 8 old.toNat), (s.ctrOp op n m.operand m.compare).count Reg.SYN_REMOTE_IN 1)
    else
      match known with
      | some i => (some (rspOk, toBytes 8 i.old.toNat), s.count Reg.SYN_DEDUP 1)
      | none =>
        if 262144 ≤ s.identities.length then (none, s)
        else
          let s := (s.ctrOp op n m.operand m.compare).count Reg.SYN_REMOTE_IN 1
          (some (rspOk, toBytes 8 old.toNat),
            { s with identities := s.identities ++ [⟨src, m.job.toNat, m.core.toNat, m.seq.toNat, old⟩] })

/-- A remote TRANSIT at its target (R366, R368). -/
def serveTransit (m : TransitMsg) (s : State) : Served :=
  let c := m.core.toNat
  if 2047 < c then (some (rspRefused, []), s)
  else if 64 ≤ s.staging.length then (some (rspBusy, []), s.count Reg.NRN_XT_BUSY 1)
  else if !(s.core c).accepts m.chain.toNat m.tseq.toNat then (some (rspDup, []), s.count (Reg.ACM_TRANSIT_DUP c) 1)
  else (some (rspOk, []), { s with staging := s.staging ++ [⟨c, m.chain.toNat, m.tseq.toNat, m.rows⟩] })

/-- JOBEND at its target: the identities of that job from that sender are freed (R367). -/
def serveJobend (src : DevNum) (job : Nat) (s : State) : Served :=
  (some (rspOk, []),
    { s with identities := s.identities.filter fun i => !decide (i.dev = src ∧ i.job = job)
             identityBroken := s.identityBroken.filter fun k => k ≠ src.toNat * 2 ^ 24 + job })

/-- A request at its target: the tag check (R355, R390), then the request itself. -/
def serve (h : MsgHdr) (p : Payload) (s : State) : Served :=
  let checked (f : State → Served) : Served :=
    if s.tagOk h.tag then f s
    else
      (some (rspTagMismatch, []),
        (s.count Reg.CFG_TAG_REFUSED 1).setReg Reg.CFG_TAG_LOG (BitVec.ofNat 64 (place h.src.toNat 0 12 + 2 ^ 12)))
  match p with
  | .wr stacked addr data => checked (serveAccess h.tag true stacked addr.toNat data data.length)
  | .rd stacked addr count => checked (serveAccess h.tag false stacked addr.toNat [] count.toNat)
  | .sync m => checked (serveSync h.tag h.src m)
  | .transit m => checked (serveTransit m)
  | .jobend job => serveJobend h.src job.toNat s
  | .bad _ true => (some (rspRefused, []), s)
  | _ => (some (rspOk, []), s)

/-- Sends the response to a request: to another device by a port, to the device itself at once (R363, R389). -/
def State.answerReq (s : State) (h : MsgHdr) (status : Nat) (data : List Byte) : State :=
  let st : BitVec 4 := BitVec.ofNat 4 status
  if h.src.toNat = s.selfDev then s.respond h.txn.toNat status data s.cfg.tag
  else
    let p := Payload.rsp st data
    (s.sendMsg { hdr := { inPort := none, dl := false, dst := h.src, src := BitVec.ofNat 12 s.selfDev
                          txn := h.txn, tag := s.cfg.tag }, len := payloadWords p, payload := p }).2

/-! ### Sending requests -/

/-- The first of n numbers from k on, modulo 2^16, that is not used. -/
def firstFree (used : List Nat) (k : Nat) : Nat → Option Nat
  | 0 => none
  | n + 1 => if used.contains (k % 65536) then firstFree used (k + 1) n else some (k % 65536)

/-- A transaction number that no outstanding request uses, from nextTxn on; with every number in use, none. -/
def State.freshTxn (s : State) : Option Nat := firstFree (s.requests.map (·.txn)) s.nextTxn 65536

/-- Sends the message of a request (again), with the tag now in force for its job (R381, R389). A destination outside the
torus, or behind a port that has been down too long, is answered UNREACH (R363, R364); a request to the device itself is
served at once. false: it must wait, for a bank that the request woke or for room. -/
def State.launch (s : State) (r : Request) : Bool × State :=
  let tag := (s.findJob r.job).elim s.cfg.tag (s.jobTag ·)
  let h : MsgHdr := { inPort := none, dl := false, dst := r.dst, src := BitVec.ofNat 12 s.selfDev
                      txn := BitVec.ofNat 16 r.txn, tag := tag }
  if !s.inTorus r.dst.toNat then (true, s.respond r.txn rspUnreach [] 0)
  else if r.dst.toNat = s.selfDev then
    match serve h r.payload s with
    | (some (st, data), s) => (true, s.respond r.txn st data s.cfg.tag)
    | (none, s) => (false, s)
  else
    match s.sendMsg { hdr := h, len := payloadWords r.payload, payload := r.payload } with
    | (true, s) => (true, s.respond r.txn rspUnreach [] 0)
    | (false, s) => (true, s)

/-- Issues a request of a job and sends it: its record reserves the space for its response (R359). false: no number is free, or the
target is the device itself and must wait; no request stands. -/
def State.request (s : State) (x : Site) (dst : DevNum) (off : Nat) (p : Payload) : Bool × State :=
  match s.freshTxn with
  | none => (false, s)
  | some txn =>
    let r : Request := { txn := txn, dst := dst, job := x.job, core := x.core, seq := x.seq, offset := off, sent := s.ticks
                         payload := p, op := x.op, busy := false, answer := none }
    match State.launch { s with requests := s.requests ++ [r], nextTxn := (txn + 1) % 65536 } r with
    | (true, t) => (true, t)
    | (false, t) => (false, { t.dropReq txn with nextTxn := s.nextTxn })

end Sys2Proof.Machine
end

