-- ==== Sys2Proof/Machine/Operands.lean ====
section
/-!
DEFINITION. Operands of tile commands: operand addresses (R217), the claim offset (R299), task bounds and ring limits
(R218 to R220, R257), remote windows (R246 to R249), full/empty tags (R225 to R227), bank bookings (R238, R240), page
requests (R334, R335), and the reads and writes of an operand, byte by byte in the access order of R203.
-/

namespace Sys2Proof.Machine

/-- Why the work of a command stops before its end: it must wait for what comes about without its job (hold), it waits on a
tag, a page request, a counter or a TRANSIT, which ends with its job (waits), or its job has ended (the state holds the
effect). -/
inductive Stop where
  | hold | waits | ended
deriving DecidableEq, Repr

/-- A piece of a command's work: it may stop, and the state it has reached stays. -/
abbrev Act (α : Type) := EStateM Stop State α

/-- A step of the state inside a command. -/
def act (f : State → State) : Act Unit := EStateM.modifyGet fun s => ((), f s)

/-- What a command knows of itself: where it stands, its header, its record of issue, and its job's flags. -/
structure Cx where
  site : Site
  h : Hdr
  iss : Issued
  replay : Bool
  wake : Bool
deriving DecidableEq, Repr

/-- The core of a command. -/
def Cx.c (x : Cx) : Nat := x.site.core

/-- On whose behalf a command accesses memory. -/
def Cx.who (x : Cx) : Who := ⟨x.site.job, x.site.core, x.site.ring, false⟩

/-- Ends the job with a status, if it still runs; the command stops. -/
def endWith {α : Type} (x : Cx) (st : Status) : Act α := do
  act fun s => if s.jobStopped x.site.job then s else s.endJob x.site.job st x.site.core x.site.seq
  throw .ended

/-- A resource fault of the command (R202). -/
def resourceFault {α : Type} (x : Cx) (code off lim : Nat) (below : Bool) (st : Status) : Act α := do
  act fun s => s.resFault x.site code off lim below st
  throw .ended

/-- A refusal whose cause shows only once the command's descriptor has been read (R124, R301). -/
def refuseIf (x : Cx) (cause : Nat) (b : Bool) : Act Unit := do
  if b then
    act fun s => s.refuse x.site cause
    throw .ended

/-! ### What a command has done so far

A command that must wait is tried again later from its start. Every access that it makes, and everything it does to the
state, goes through once: what was done is not done again, and gives what it gave (R334, R335). -/

/-- Commands of core k issued before the command with this sequence number. -/
def Core.earlier (k : Core) (seq : Nat) : List Issued := k.issued.takeWhile fun i => decide (i.seq ≠ seq)

/-- The issued record of the command with a sequence number on core c. -/
def State.issuedOf (s : State) (c seq : Nat) : Option Issued := (s.core c).issued.find? fun i => decide (i.seq = seq)

/-- The issued record of the command changed. -/
def State.modIssued (s : State) (c seq : Nat) (f : Issued → Issued) : State :=
  s.modCore c fun k => { k with issued := k.issued.map fun i => if i.seq = seq then f i else i }

/-- The command's own record changed. -/
def Cx.mod (x : Cx) (f : Issued → Issued) (s : State) : State := s.modIssued x.c x.site.seq f

/-- Does f, unless an earlier run of the command has done it: then gives what it gave. -/
def once (x : Cx) (f : Act (List Nat)) : Act (List Nat) := do
  let s ← get
  match s.issuedOf x.c x.site.seq with
  | none => f
  | some r =>
    match r.log[r.cursor]? with
    | some v =>
      act (x.mod fun r => { r with cursor := r.cursor + 1 })
      pure v
    | none =>
      let v ← f
      act fun s => x.mod (fun r => { r with log := r.log ++ [v], cursor := r.cursor + 1, since := s.ticks }) s
      pure v

/-- A piece of work that gives nothing, done once. -/
def onceDo (x : Cx) (f : Act Unit) : Act Unit := do
  let _ ← once x (do
    f
    pure [])

/-- A change of the state, made once. -/
def note (x : Cx) (f : State → State) : Act Unit := onceDo x (act f)

/-- What the command sees of the state, seen once. -/
def see (x : Cx) (f : State → List Nat) : Act (List Nat) := once x (do
  let s ← get
  pure (f s))

/-- A number that the command sees of the state, seen once. -/
def seeNat (x : Cx) (f : State → Nat) : Act Nat := do
  let l ← see x fun s => [f s]
  pure (l.getD 0 0)

/-- Bytes that an access gives, made once. -/
def onceBytes (x : Cx) (f : Act (List Byte)) : Act (List Byte) := do
  let l ← once x (do
    let bs ← f
    pure (bs.map (·.toNat)))
  pure (l.map (BitVec.ofNat 8))

/-- One more free value, drawn once. -/
def freeOnce (x : Cx) : Act (BitVec 256) := do
  let l ← once x (do
    let b ← EStateM.modifyGet State.free
    pure [b.toNat])
  pure (BitVec.ofNat 256 (l.getD 0 0))

/-! ### Addresses -/

/-- An operand address taken apart (R217): space, local core or window, offset. -/
structure Opnd where
  space : Nat
  win : Nat
  off : Nat
deriving DecidableEq, Repr

/-- Offset bits of a space (R217). -/
def spaceBits (sp : Nat) : Nat :=
  match sp with
  | 0 => 19
  | 1 => 19
  | 2 => 28
  | 3 => 48
  | 4 => 57
  | _ => 48

/-- The operand that an address names; none where it breaks R217. -/
def operandOf (a : Word64) : Option Opnd :=
  let sp := bits a 60 4
  let low := bits a 0 60
  let used := if sp = 1 then 25 else if sp = 5 then 54 else spaceBits sp
  if 5 < sp ∨ 2 ^ used ≤ low then none
  else
    some { space := sp, win := if sp = 1 ∨ sp = 5 then low / 2 ^ spaceBits sp else 0, off := low % 2 ^ spaceBits sp }

/-- The operand with the claim offset added (R299); none where it carries beyond the bits of its space. -/
def Opnd.shifted (o : Opnd) (indexed : Bool) (by_ : Nat) : Option Opnd :=
  if indexed ∧ 2 ≤ o.space then
    (if o.off + by_ < 2 ^ spaceBits o.space then some { o with off := o.off + by_ } else none)
  else some o

/-- An operand and a direction as one number, the key of its progress. -/
def Opnd.key (o : Opnd) (write : Bool) : Nat := 2 * (o.off + 2 ^ 57 * (o.win + 64 * o.space)) + write.toNat

/-- The operand of an address of a command, its claim offset added: X·s_rd for a read, X·s_wr for a write (R299). -/
def Cx.opnd (x : Cx) (write : Bool) (a : Word64) : Option Opnd :=
  (operandOf a).bind fun o => o.shifted x.h.indexed (x.iss.x * (if write then x.iss.sWr else x.iss.sRd))

/-- Base and bound of a space in a task record (R218). -/
def TaskRec.entry (t : TaskRec) (sp : Nat) : Nat × Nat :=
  match sp with
  | 0 => (t.coreBase, t.coreBound)
  | 1 => (t.shBase, t.shBound)
  | 2 => (t.stBase, t.stBound)
  | _ => (t.hoBase, t.hoBound)

/-- Where a byte lies after relocation. -/
inductive Place where
  | core (c off : Nat)
  | shared (off : Nat)
  | stacked (va : Nat)
  | host (va : Nat)
  | window (w off : Nat)
deriving DecidableEq, Repr

/-- What the checks of one byte say: its place, or the resource fault (R202, R220, R247, R257). -/
inductive Look where
  | at_ (p : Place)
  | fault (code off lim : Nat) (below : Bool)
deriving DecidableEq, Repr

/-- The check of an offset against its task entry and the ring's limits (R220, R257). -/
def boundCheck (base bound lo hi off : Nat) (p : Nat → Place) : Look :=
  if bound ≤ off then .fault 5 off bound false
  else if hi ≤ base + off then .fault 5 off (hi - base) false
  else if base + off < lo then .fault 5 off (lo - base) true
  else .at_ (p (base + off))

/-- The check of byte i of an operand. -/
def lookup (s : State) (x : Cx) (write : Bool) (o : Opnd) (i : Nat) : Look :=
  let off := o.off + i
  let check (sp : Nat) (p : Nat → Place) : Look :=
    let e := x.iss.task.entry sp
    boundCheck e.1 e.2 (s.reg (Reg.HQ_LIM_BASE x.site.ring sp)).toNat (s.reg (Reg.HQ_LIM_END x.site.ring sp)).toNat off p
  match o.space with
  | 0 => check 0 (.core x.c)
  | 1 => check 0 (.core (x.c / 64 * 64 + o.win))
  | 2 => check 1 .shared
  | 3 => check 2 .stacked
  | 4 => check 3 .host
  | _ =>
    match s.windows.find? fun w => decide (w.1 = o.win ∧ w.2.job = x.site.job) with
    | none => .fault 6 off 0 false
    | some (_, w) =>
      if !(if write then w.wr else w.rd) then .fault 6 o.off 0 false
      else if w.size ≤ off then .fault 6 off w.size false
      else .at_ (.window o.win off)

/-! ### Page requests -/

/-- Bytes completed of an operand (R334). -/
def State.progress (s : State) (x : Cx) (o : Opnd) (write : Bool) : Nat :=
  (s.issuedOf x.c x.site.seq).elim 0 fun r => Sparse.get 0 r.bytes (o.key write)

/-- The least free page request group (R334). -/
def State.freeGroup (s : State) : Option Nat :=
  (List.range 64).find? fun g => s.pageReqs.all fun r => r.answered || decide (r.group ≠ g)

/-- The fields of a PAGE event (R340). -/
def pageEvent (cls : Nat) (r : PageReq) (ring : Nat) (failed timeout : Bool) : Event :=
  { source := 0x16, cls := cls
    detail := r.host.toNat + r.write.toNat * 2 + place r.group 2 6 + failed.toNat * 2 ^ 8 + timeout.toNat * 2 ^ 9
    job := r.job, core := r.core, ring := ring, info0 := r.va, info1 := r.bytes, info2 := r.seq }

/-- A page request that failed ends its job (R335). -/
def State.failPage (s : State) (r : PageReq) (timeout : Bool) : State :=
  let s := { s with pageReqs := s.pageReqs.erase r }
  let ring := (s.findJob r.job).elim 0 (·.ring)
  let s := (s.raise (pageEvent clsJobFailed r ring (!timeout) timeout)).count Reg.GLB_PAGE_FAILS 1
  s.endJob r.job .pageFault r.core r.seq

/-- Raises a page request with the bytes completed so far: the group is allocated, the request is sent or posted, and
counted (R334). -/
def State.raisePage (s : State) (x : Cx) (bytes : Nat) (host write : Bool) (va tries : Nat) : State :=
  match s.freeGroup with
  | none => s
  | some g =>
    let r : PageReq := { group := g, host := host, va := va, write := write, job := x.site.job, core := x.c
                         seq := x.site.seq, bytes := bytes, tries := tries, raised := s.ticks, answered := false }
    let s := { s with pageReqs := s.pageReqs ++ [r] }
    let s := if host then s.emit (.pageRequest g va write) else s.postEvent (pageEvent 0 r x.site.ring false false)
    let s := s.count Reg.GLB_PAGE_REQS 1
    if host && s.module.priFailed then s.failPage r false else s

/-- Bytes of a page of a space: 2 MiB pages of stacked memory, 4 KiB pages of host memory. -/
def pageBytes (host : Bool) : Nat := if host then 4096 else 2 ^ 21

/-- An access to an operand meets a translation that is not valid or lacks a permission (R334, R335): it waits for the
answer to a page request; after three successive success answers that left the page untranslated, the request counts as
failed. A command whose job has stopped raises no request and is abandoned (R321). -/
def pageFault {α : Type} (x : Cx) (o : Opnd) (host write : Bool) (va : Nat) : Act α := do
  let s ← get
  let same (r : PageReq) : Bool :=
    decide (r.job = x.site.job ∧ r.core = x.c ∧ r.seq = x.site.seq ∧ r.host = host
      ∧ r.va / pageBytes host = va / pageBytes host)
  if s.jobStopped x.site.job then throw .waits
  else match s.pageReqs.find? same with
  | none =>
    act fun s => s.raisePage x (s.progress x o write) host write va 0
    let t ← get
    if t.jobStopped x.site.job then throw .ended else throw .waits
  | some r =>
    if !r.answered then throw .waits
    else if 3 ≤ r.tries then
      act fun s => s.failPage r false
      throw .ended
    else if s.freeGroup.isNone then throw .waits
    else
      act fun s => State.raisePage { s with pageReqs := s.pageReqs.erase r } x r.bytes host write va r.tries
      let t ← get
      if t.jobStopped x.site.job then throw .ended else throw .waits

/-! ### Bank bookings -/

/-- A refused booking (R240): the counter and SHM_OFF_LOG. -/
def State.refuseBank (s : State) (b : Nat) (woken : Bool) (job : Nat) : State :=
  (s.count Reg.SHM_REFUSED 1).setReg Reg.SHM_OFF_LOG
    (BitVec.ofNat 64 (place b 0 6 + woken.toNat * 2 ^ 6 + 2 ^ 7 + place job 8 24))

/-- The record of a refused booking that fails its job (R240, R319): a MEMORY record of level 1 that is not uncorrectable,
with the first address of the bank. R288 names no source for this fault (DESIGN CHOICE, log entry 116). -/
def State.bankEvent (s : State) (x : Site) (b : Nat) : State :=
  s.raise { source := 0x07, cls := clsJobFailed, detail := 1, job := x.job, core := x.core, ring := x.ring
            info0 := b * 2 ^ 22 }

/-- Books bank b for a command (R238, R240): a bank whose off decision has committed is woken where the job carries WAKE,
and else ends the job; a bank that is waking is waited for. -/
def book (x : Cx) (b : Nat) : Act Unit := do
  let s ← get
  if s.bankReady b then pure ()
  else if s.bankOff b then
    act fun s => s.refuseBank b x.wake x.site.job
    if x.wake then
      act fun s => (s.wakeBank b).count Reg.SHM_WAKES 1
      throw .hold
    else
      act fun s => if s.jobStopped x.site.job then s else s.bankEvent x.site b
      endWith x .bankOff
  else throw .hold

/-! ### Reads -/

/-- The result of an operation that answers none when the data was uncorrectable: the job then ends (R252, R253). -/
def need {α : Type} (x : Cx) (f : State → Option α × State) : Act α := do
  let r ← EStateM.modifyGet f
  match r with
  | some v => pure v
  | none => endWith x .memUncorr

/-- As need, for writes. -/
def need' (x : Cx) (f : State → Bool × State) : Act Unit := do
  let ok ← EStateM.modifyGet f
  if ok then pure () else endWith x .memUncorr

/-- The physical address of a STACKED address of an operand; a translation that is not valid raises a page request. -/
def physical (x : Cx) (o : Opnd) (write : Bool) (va : Nat) : Act Nat := do
  let r ← EStateM.modifyGet (translate x.who write va)
  match r with
  | .ok pa => pure pa
  | .invalid => pageFault x o false write va
  | .uncorr => endWith x .memUncorr

/-- The answered read of this command at an offset of a window. -/
def State.windowData (s : State) (x : Cx) (w : Window) (off n : Nat) : Option Request :=
  s.requests.find? fun r => decide (r.job = x.site.job ∧ r.core = x.c ∧ r.seq = x.site.seq ∧ r.offset = off
    ∧ r.dst = w.dev ∧ r.payload = .rd w.stacked (BitVec.ofNat 48 (w.base + off)) (BitVec.ofNat 13 n))

/-- After a request that may have been answered at once: a command whose job the answer stopped, or which the answer
abandoned, stops. -/
def alive (x : Cx) (before : State) : Act Unit := do
  let s ← get
  if s.jobStopped x.site.job && !before.jobStopped x.site.job then throw .ended
  else if (before.issuedOf x.c x.site.seq).isSome && (s.issuedOf x.c x.site.seq).isNone then throw .ended
  else pure ()

/-- Sends a request of the command; it waits where the request cannot be taken yet (R242, R353). -/
def sendRequest (x : Cx) (dev : DevNum) (off : Nat) (p : Payload) : Act Unit := do
  let s ← get
  let sent ← EStateM.modifyGet fun s => s.request x.site dev off p
  if sent then alive x s else throw .hold

/-- The answer to a read through a window, taken from the request that it answers. -/
def takeAnswer (r : Request) (n : Nat) : Act (List Byte) :=
  match r.answer with
  | some (_, bs) => do
    act (·.dropReq r.txn)
    pure (bs.take n)
  | none => throw .hold

/-- Reads through a window: the request is sent once, and its answer is waited for (R247, R366). -/
def readWindow (x : Cx) (win off n : Nat) : Act (List Byte) := do
  let s ← get
  match s.windows.find? fun w => decide (w.1 = win) with
  | none => throw .hold
  | some (_, w) =>
    match s.windowData x w off n with
    | some r => takeAnswer r n
    | none =>
      sendRequest x w.dev off (.rd w.stacked (BitVec.ofNat 48 (w.base + off)) (BitVec.ofNat 13 n))
      let t ← get
      match t.windowData x w off n with
      | some r => takeAnswer r n
      | none => throw .hold

/-- Writes through a window: one WR message, acknowledged later (R366). -/
def writeWindow (x : Cx) (win off : Nat) (bs : List Byte) : Act Unit := do
  let s ← get
  match s.windows.find? fun w => decide (w.1 = win) with
  | none => throw .hold
  | some (_, w) => sendRequest x w.dev off (.wr w.stacked (BitVec.ofNat 48 (w.base + off)) bs)

/-- The outstanding or answered request of the command. -/
def State.myRequest (s : State) (x : Cx) : Option Request :=
  s.requests.find? fun r => decide (r.job = x.site.job ∧ r.core = x.c ∧ r.seq = x.site.seq)

/-- The data that answers the command's one request; it is sent if it has not been, and its answer is waited for (R366). -/
def askOnce (x : Cx) (dev : DevNum) (off : Nat) (p : State → Payload) : Act (List Byte) := onceBytes x do
  let s ← get
  if (s.myRequest x).isNone then sendRequest x dev off (p s)
  let s ← get
  match (s.myRequest x).bind (·.answer) with
  | some (_, bs) => pure bs
  | none => throw .hold

/-! ### Order of accesses to core memory -/

/-- A slot of the memory of core c as one number. -/
def slotKey (c t : Nat) : Nat := 8192 * c + t

/-- Whether the issue scoreboard holds an access (R230): a FREE read or a write of a slot of the own core that an earlier
command has still to write, and a write of one that an earlier command has still to read. -/
def State.boardHolds (s : State) (x : Cx) (write : Bool) (mode c t : Nat) : Bool :=
  decide (c = x.c) && ((s.core c).earlier x.site.seq).any fun e =>
    !e.done && (((write || decide (mode = 2)) && decide (Sparse.get 0 e.writes (slotKey c t) ≠ 0))
      || (write && decide (Sparse.get 0 e.reads (slotKey c t) ≠ 0)))

/-- Counts a command that the scoreboard holds, once (R230). -/
def State.countBoard (s : State) (x : Cx) : State :=
  if (s.issuedOf x.c x.site.seq).elim true (·.sbHeld) then s
  else (x.mod (fun r => { r with sbHeld := true }) s).count (Reg.MEM_SB_HOLDS x.c) 1

/-- Whether the tag of a slot lets an access be made (R226): PEEK and TAKE wait for FULL, FILL for EMPTY, unless the command
itself takes the slot or has filled it. -/
def State.tagReady (s : State) (x : Cx) (write : Bool) (mode c t : Nat) : Bool :=
  let full := (s.core c).isFull t
  if write then
    decide (mode ≠ 1) || !full || (s.issuedOf x.c x.site.seq).elim false fun r =>
      r.takes.contains (slotKey c t) || r.filled.contains (slotKey c t)
  else decide (mode = 2) || full

/-- An access to a slot waits for the scoreboard and for the slot's tag (R226, R227, R230). -/
def passSlot (x : Cx) (write : Bool) (mode c t : Nat) : Act Unit := do
  let s ← get
  if s.boardHolds x write mode c t then
    act fun s => s.countBoard x
    throw .hold
  else if !s.tagReady x write mode c t then
    act (x.mod fun r => { r with onTag := true })
    throw .waits
  else pure ()

/-- n fewer bytes to come at a key. -/
def lessBytes (m : Sparse Nat) (k n : Nat) : Sparse Nat := Sparse.set 0 m k (Sparse.get 0 m k - n)

/-- n more bytes at a key. -/
def moreBytes (m : Sparse Nat) (k n : Nat) : Sparse Nat := Sparse.set 0 m k (Sparse.get 0 m k + n)

/-- A write of n bytes of a slot has been made: after its last write to the slot the command sets it FULL, in modes OVER (0)
and FILL (1) (R226). -/
def State.wroteSlot (s : State) (x : Cx) (mode c t n : Nat) : State :=
  let k := slotKey c t
  let left := (s.issuedOf x.c x.site.seq).elim 0 fun r => Sparse.get 0 r.writes k - n
  let s := x.mod (fun r => { r with writes := lessBytes r.writes k n
                                    filled := if mode ≤ 1 ∧ !r.filled.contains k then r.filled ++ [k] else r.filled }) s
  if mode ≤ 1 ∧ left = 0 then s.setFull c t true else s

/-- n bytes of an operand at a place, all in one slot. -/
def readPlace (x : Cx) (mode : Nat) (o : Opnd) (p : Place) (n : Nat) : Act (List Byte) := do
  match p with
  | .core c off =>
    passSlot x false mode c (off / 64)
    let bs ← need x (readCore x.who c off n)
    act (x.mod fun r => { r with reads := lessBytes r.reads (slotKey c (off / 64)) n })
    pure bs
  | .shared off =>
    book x (bankOf off)
    let bs ← need x (readSharedSlots x.who off n)
    act (x.mod fun r => { r with banks := lessBytes r.banks (bankOf off) n })
    pure bs
  | .stacked va =>
    let pa ← physical x o false va
    need x (readPhys x.who pa n)
  | .host va =>
    let s ← get
    if s.hostReach false va then pure (s.getHost va n) else pageFault x o true false va
  | .window w off => readWindow x w off n

/-- The first byte of a run that fails its check, with the fault. -/
def firstFault (s : State) (x : Cx) (write : Bool) (o : Opnd) (i : Nat) : Nat → Option (Nat × Look)
  | 0 => none
  | n + 1 =>
    match firstFault s x write o i n with
    | some f => some f
    | none =>
      match lookup s x write o (i + n) with
      | .at_ _ => none
      | l => some (n, l)

/-- The resource fault that a check reported. -/
def raiseLook {α : Type} (x : Cx) (l : Look) : Act α :=
  match l with
  | .fault code off lim below => resourceFault x code off lim below .resource
  | .at_ _ => throw .hold

/-- Bytes of an operand in one slot are completed (R334), an access of a memory slot (R409). -/
def Cx.moved (x : Cx) (o : Opnd) (write : Bool) (n : Nat) (s : State) : State :=
  (x.mod (fun r => { r with bytes := moreBytes r.bytes (o.key write) n }) s).active x.c 5 1

/-- n bytes of an operand from byte i on, all in one slot: the bytes before a failing one are read (R203). -/
def readPiece (x : Cx) (mode : Nat) (o : Opnd) (i n : Nat) : Act (List Byte) := onceBytes x do
  let s ← get
  match firstFault s x false o i n, lookup s x false o i with
  | none, .at_ p =>
    let bs ← readPlace x mode o p n
    act (x.moved o false n)
    pure bs
  | some (k, l), .at_ p =>
    let _ ← readPlace x mode o p k
    raiseLook x l
  | _, l => raiseLook x l

/-- Runs a read of each piece in order and joins what they give. -/
def joinReads (f : Nat × List Unit → Act (List Byte)) : List (Nat × List Unit) → Act (List Byte)
  | [] => pure []
  | p :: l => do
    let a ← f p
    let b ← joinReads f l
    pure (a ++ b)

/-- n bytes of an operand from byte i on, read with a tag mode: slots in ascending address (R203). -/
def readRun (x : Cx) (mode : Nat) (o : Opnd) (i n : Nat) : Act (List Byte) :=
  joinReads (fun p => readPiece x mode o (p.1 - o.off) p.2.length) (cut 64 (o.off + i) (List.replicate n ()))

/-! ### Writes -/

/-- A write of an operand at a place, all in one slot. -/
def writePlace (x : Cx) (mode : Nat) (o : Opnd) (p : Place) (l : List Masked) : Act Unit := do
  match p with
  | .core c off =>
    passSlot x true mode c (off / 64)
    need' x (writeCore x.who c off l)
    act fun s => s.wroteSlot x mode c (off / 64) l.length
  | .shared off =>
    book x (bankOf off)
    need' x (writeShared x.who off l)
    act (x.mod fun r => { r with banks := lessBytes r.banks (bankOf off) l.length })
  | .stacked va =>
    let pa ← physical x o true va
    need' x (writePhys x.who pa l)
  | .host va =>
    let s ← get
    if s.hostReach true va then
      act fun s => s.putHost va ((s.getHost va l.length).zipWith merge l)
    else pageFault x o true true va
  | .window w off =>
    if l.all fun b => decide (b.2 = 0xFF) then writeWindow x w off (l.map (·.1))
    else
      let old ← readWindow x w off l.length
      writeWindow x w off (old.zipWith merge l)

/-- A write of an operand from byte i on, all in one slot: the bytes before a failing one are written (R203). -/
def writePiece (x : Cx) (mode : Nat) (o : Opnd) (i : Nat) (l : List Masked) : Act Unit := onceDo x do
  let s ← get
  match firstFault s x true o i l.length, lookup s x true o i with
  | none, .at_ p =>
    writePlace x mode o p l
    act (x.moved o true l.length)
  | some (k, f), .at_ p =>
    writePlace x mode o p (l.take k)
    raiseLook x f
  | _, f => raiseLook x f

/-- Runs a write of each piece in order. -/
def eachPiece {α : Type} (f : Nat × List α → Act Unit) : List (Nat × List α) → Act Unit
  | [] => pure ()
  | p :: l => do
    f p
    eachPiece f l

/-- A masked write of an operand from byte i on. -/
def writeMasked (x : Cx) (mode : Nat) (o : Opnd) (i : Nat) (l : List Masked) : Act Unit :=
  eachPiece (fun p => writePiece x mode o (p.1 - o.off) p.2) (cut 64 (o.off + i) l)

/-- A write of bytes of an operand from byte i on. -/
def writeRun (x : Cx) (mode : Nat) (o : Opnd) (i : Nat) (bs : List Byte) : Act Unit :=
  writeMasked x mode o i (bs.map whole)

/-- The masked bytes that hold elements of w bits from bit bitOff of a byte on; bits outside them keep their value (R199). -/
def maskedElems (w bitOff : Nat) (xs : List Nat) : List Masked :=
  let n := ceilDiv (bitOff + w * xs.length) 8
  let v := xs.foldr (fun x a => x % 2 ^ w + 2 ^ w * a) 0 <<< bitOff
  let m := (2 ^ (w * xs.length) - 1) <<< bitOff
  (toBytes n v).zip (toBytes n m)

/-- Elements of w bits written at bit position bit of an operand. -/
def writeElems (x : Cx) (mode : Nat) (o : Opnd) (bit w : Nat) (xs : List Nat) : Act Unit :=
  writeMasked x mode o (bit / 8) (maskedElems w (bit % 8) xs)

/-- n elements of w bits read with a tag mode from bit position bit of an operand on (R96). -/
def readElems (x : Cx) (mode : Nat) (o : Opnd) (bit w n : Nat) : Act (List Nat) := do
  if n = 0 then pure []
  else
    let bs ← readRun x mode o (bit / 8) ((bit % 8 + w * n + 7) / 8)
    let v := ofBytes bs >>> (bit % 8)
    pure ((List.range n).map fun k => v >>> (w * k) % 2 ^ w)

/-! ### Footprints -/

/-- One memory operand of a command: direction, address, tag mode, and the runs of bytes it names. -/
structure Oper where
  write : Bool
  addr : Word64
  mode : Nat
  runs : List (Nat × Nat)
deriving DecidableEq, Repr

/-- What the extent of an operand covers: the pieces of it that lie in one slot each, at their places, with their lengths. -/
def Oper.pieces (s : State) (x : Cx) (p : Oper) : List (Place × Nat) :=
  match x.opnd p.write p.addr with
  | none => []
  | some o =>
    p.runs.flatMap fun r => (cut 64 (o.off + r.1) (List.replicate r.2 ())).filterMap fun q =>
      match lookup s x p.write o (q.1 - o.off) with
      | .at_ pl => some (pl, q.2.length)
      | _ => none

/-- The bytes that the pieces of an operand have in each core-memory slot. -/
def placeBytes (l : List (Place × Nat)) (m : Sparse Nat) : Sparse Nat :=
  l.foldl (fun m p => match p.1 with
    | .core c off => moreBytes m (slotKey c (off / 64)) p.2
    | _ => m) m

/-- The bytes that the pieces of an operand have in each shared-memory bank (R238). -/
def bankBytes (l : List (Place × Nat)) (m : Sparse Nat) : Sparse Nat :=
  l.foldl (fun m p => match p.1 with
    | .shared off => moreBytes m (bankOf off) p.2
    | _ => m) m

/-- The footprint of an operand put into the command's record (R226, R230, R238). -/
def Issued.covers (r : Issued) (s : State) (x : Cx) (p : Oper) : Issued :=
  let l := p.pieces s x
  { r with
    reads := if p.write then r.reads else placeBytes l r.reads
    writes := if p.write then placeBytes l r.writes else r.writes
    takes := if !p.write ∧ p.mode = 1 then ((placeBytes l []).map (·.1)) ++ r.takes else r.takes
    banks := bankBytes l r.banks }

/-- The footprints of operands put into the record of the command: at its issue, or when a descriptor that gives their extents
has been read. -/
def State.footprint (s : State) (x : Cx) (ops : List Oper) : State :=
  x.mod (fun r => ops.foldl (fun r p => r.covers s x p) r) s

/-- What a map gains from another: the keys that it lacks. -/
def addMissing (old new : Sparse Nat) : Sparse Nat :=
  new.foldl (fun m e => if Sparse.get 0 m e.1 = 0 then Sparse.set 0 m e.1 e.2 else m) old

/-- The record of a command that learns the extents of operands from a descriptor it has read: what its record did not yet
cover is added. -/
def Issued.learns (r : Issued) (s : State) (x : Cx) (ops : List Oper) : Issued :=
  let n := ops.foldl (fun n p => n.covers s x p) { r with reads := [], writes := [], takes := [], banks := [] }
  { r with reads := addMissing r.reads n.reads, writes := addMissing r.writes n.writes
           takes := r.takes ++ n.takes.filter (fun t => !r.takes.contains t), banks := addMissing r.banks n.banks }

/-- The footprint of operands whose extents a descriptor has just given, with the bookings of their banks (R238). -/
def extend (x : Cx) (ops : List Oper) : Act Unit := note x fun s => x.mod (·.learns s x ops) s

/-- Books banks for a command (R238, R240): one that is refused ends the job or is woken; none is waited for here. -/
def bookBanks (x : Cx) : List Nat → Act Unit
  | [] => pure ()
  | b :: l => do
    tryCatch (book x b) fun e => if e = .ended then throw e else pure ()
    bookBanks x l

/-! ### Bytes as the sequencer sees them -/

/-- The byte at an offset of a window, where an answered read of the command holds it. -/
def State.windowByte (s : State) (x : Cx) (w : Window) (off : Nat) : Option Byte :=
  s.requests.findSome? fun r =>
    if decide (r.job = x.site.job ∧ r.core = x.c ∧ r.seq = x.site.seq ∧ r.dst = w.dev ∧ r.offset ≤ off) then
      match r.payload with
      | .rd st _ _ => if st = w.stacked then r.answer.bind fun a => a.2[off - r.offset]? else none
      | _ => none
    else none

/-- The byte at a place, where the device holds it: of stacked memory through a cached translation, of a window what has
been read through it. -/
def State.peekByte (s : State) (x : Cx) : Place → Option Byte
  | .core c off => some (Sparse.get 0 (s.core c).mem off)
  | .shared off => some (Sparse.get 0 s.shared off)
  | .stacked va => (Sparse.get none s.tlb (va / 2 ^ 21)).map fun p => Sparse.get 0 s.stacked (p.1 * 2 ^ 21 + va % 2 ^ 21)
  | .host va => some (Sparse.get 0 s.host va)
  | .window n off => (s.windows.find? fun w => decide (w.1 = n)).bind fun w => s.windowByte x w.2 off

/-- n bytes of a read operand from byte i on, where the device holds them all. -/
def State.peek (s : State) (x : Cx) (a : Word64) (i n : Nat) : Option (List Byte) :=
  (x.opnd false a).bind fun o => (List.range n).mapM fun k =>
    match lookup s x false o (i + k) with
    | .at_ p => s.peekByte x p
    | _ => none

end Sys2Proof.Machine
end

