-- ==== Sys2Proof/Machine/Acm.lean ====
section
/-!
DEFINITION. Access to the accumulator memory by commands: the mapping of tile rows to live and shadow rows (R66, R67,
R70), the range and mode checks (R63, R202), the parity checks (R511), and one contribution event with its overflow
policy, flags, counters and log (R75, R78, R79, R81, R82).
-/

namespace Sys2Proof.Machine

/-! ### Physical rows -/

/-- The live physical row of logical row t (R66). -/
def Core.liveRow (k : Core) (t : Nat) : Nat := t ^^^ (256 * (bit k.live (t % 256)).toNat)

/-- The physical row that a job's access to logical row t uses: a replayable job writes the shadow, and reads it once it
holds the pair dirty; a pair that another replayable job holds dirty is shared when it is written (R66, R67, R70). -/
def Core.readRowNo (k : Core) (num : Nat) (replay : Bool) (t : Nat) : Nat :=
  if replay && (k.holders (t % 256)).contains num then k.liveRow t ^^^ 256 else k.liveRow t

/-- The physical row whose contents a write of logical row t starts from. -/
def Core.baseRowNo (k : Core) (replay : Bool) (t : Nat) : Nat :=
  if replay && !(k.holders (t % 256)).isEmpty then k.liveRow t ^^^ 256 else k.liveRow t

/-- The physical row that a write of logical row t goes to. -/
def Core.writeRowNo (k : Core) (replay : Bool) (t : Nat) : Nat := if replay then k.liveRow t ^^^ 256 else k.liveRow t

/-- A physical row. -/
def Core.physRow (k : Core) (r : Nat) : TileRow :=
  { word := Sparse.get 0 k.acmWord r, entries := Sparse.getList 0 k.acm (64 * r) 64 }

/-- Whether an entry of a physical row (64: its state word) has a parity error. -/
def Core.parityBad (k : Core) (r e : Nat) : Bool := Sparse.get false k.acmParity (65 * r + e)

/-- Writes the state word and the entries es of a physical row, with their parity. -/
def Core.putRow (k : Core) (r : Nat) (es : List Nat) (row : TileRow) : Core :=
  { k with
    acmWord := Sparse.set 0 k.acmWord r row.word
    acm := es.foldl (fun m e => Sparse.set 0 m (64 * r + e) (row.entries.getD e 0)) k.acm
    acmParity := (64 :: es).foldl (fun m e => Sparse.set false m (65 * r + e) false) k.acmParity }

/-- A bit of an entry (64: the state word) of a physical row flips, and its parity then fails (R320). -/
def Core.strikeRow (k : Core) (r e b : Nat) : Core :=
  let bad := Sparse.set false k.acmParity (65 * r + e) (!k.parityBad r e)
  let flip (w : Word32) : Word32 := w ^^^ BitVec.ofNat 32 (2 ^ (b % 32))
  if e = 64 then { k with acmWord := Sparse.set 0 k.acmWord r (flip (Sparse.get 0 k.acmWord r)), acmParity := bad }
  else { k with acm := Sparse.set 0 k.acm (64 * r + e) (flip (Sparse.get 0 k.acm (64 * r + e))), acmParity := bad }

/-- Every entry of a row. -/
def allEntries : List Nat := List.range 64

/-- Marks the pair of logical row t dirty for a job (R67, R70). -/
def Core.markDirty (k : Core) (num t : Nat) : Core :=
  let h := k.holders (t % 256)
  if h.contains num then k else { k with dirty := Sparse.set [] k.dirty (t % 256) (h ++ [num]) }

/-! ### Access by commands -/

/-- The mode that row t will have for a command that issues now: that of the last earlier incomplete ACMINIT that covers it,
else that of the row (R86). -/
def Core.modeOf (k : Core) (replay : Bool) (seq t : Nat) : Nat :=
  let inits := (k.earlier seq).filterMap fun e => match e.cmd with
    | .acminit _ _ f =>
      if !e.done && decide (f.acmRow.toNat ≤ t ∧ t < f.acmRow.toNat + f.count.toNat) then some f.mode.toNat else none
    | _ => none
  inits.getLast?.getD (wordMode (k.physRow (k.baseRowNo replay t)).word)

/-- The range check of a tile row (R63, R202). -/
def rangeCheck (x : Cx) (t : Nat) : Act Unit :=
  let lim := if x.replay then 255 else 511
  if t ≤ lim then pure () else resourceFault x 3 t lim false .acmRange

/-- Counts a command that a tile row holds, once (R86). -/
def State.countConflict (s : State) (x : Cx) : State :=
  if (s.issuedOf x.c x.site.seq).elim true (·.rowHeld) then s
  else (x.mod (fun r => { r with rowHeld := true }) s).count (Reg.ACM_CONFLICTS x.c) 1

/-- The earlier commands of the core that still have to read or write tile row t (R86). -/
def Core.rowUsers (k : Core) (seq t : Nat) : List Issued :=
  (k.earlier seq).filter fun e => !e.done && e.rows.contains t && !e.rowsDone.contains t

/-- An access to a tile row waits until every earlier command has made its last access of it (R85, R86); a hold by a
command on another path is counted. -/
def passRow (x : Cx) (t : Nat) : Act Unit := do
  let s ← get
  let es := (s.core x.c).rowUsers x.site.seq t
  if es.isEmpty then pure ()
  else
    let path := (s.issuedOf x.c x.site.seq).elim 0 fun r => acmPath r.cmd
    if es.any fun e => acmPath e.cmd ≠ path then act fun s => s.countConflict x
    throw .hold

/-- The command has made its last access of these tile rows (R86). -/
def rowsDone (x : Cx) (ts : List Nat) : Act Unit := act (x.mod fun r => { r with rowsDone := ts ++ r.rowsDone })

/-- The parity check of the state word and of the entries that a command reads in a physical row (R511, R320). A command
of a job that has stopped only ends. -/
def parityCheck (x : Cx) (r t : Nat) (es : List Nat) : Act Unit := do
  let s ← get
  if (64 :: es).any ((s.core x.c).parityBad r) then
    act fun s => if s.jobStopped x.site.job then s else s.contain x.site.job 4 x.c x.site.seq t 0
    throw .ended
  else pure ()

/-- A mode fault on a tile row (R63, R202): the limit reported is the mode of the row. -/
def modeFault {α : Type} (x : Cx) (t : Nat) (row : TileRow) : Act α :=
  resourceFault x 4 t (wordMode row.word) false .acmMode

/-- A tile row as numbers, and back. -/
def rowNums (r : TileRow) : List Nat := r.word.toNat :: allEntries.map fun e => (r.entries.getD e 0).toNat
def rowOfNums (l : List Nat) : TileRow :=
  { word := BitVec.ofNat 32 (l.getD 0 0), entries := (l.drop 1).map (BitVec.ofNat 32) }

/-- A row that an access gives, made once. -/
def onceRow (x : Cx) (f : Act TileRow) : Act TileRow := do
  let l ← once x (do
    let r ← f
    pure (rowNums r))
  pure (rowOfNums l)

/-- Logical row t as found in the physical row that sel picks; the command takes its state word and the entries es. -/
def takeRow (x : Cx) (t : Nat) (es : List Nat) (sel : Core → Nat) : Act TileRow := onceRow x do
  rangeCheck x t
  passRow x t
  let s ← get
  let r := sel (s.core x.c)
  parityCheck x r t es
  pure ((s.core x.c).physRow r)

/-- Reads logical row t, of which the command takes the entries es. -/
def readRow (x : Cx) (t : Nat) (es : List Nat) : Act TileRow :=
  takeRow x t es fun k => k.readRowNo x.site.job x.replay t

/-- The row as a command that would write it finds it, with its state word taken: for mode checks and placement. -/
def peekRow (x : Cx) (t : Nat) : Act TileRow := takeRow x t [] fun k => k.baseRowNo x.replay t

/-- Whether the writes of the core's rescale group are dropped (R81). -/
def Core.dropping (k : Core) : Bool := k.group.elim false (·.overflow)

/-- Whether a write of logical row t is the first write of its pair for a replayable job (R67). -/
def Core.firstWrite (k : Core) (replay : Bool) (t : Nat) : Bool := replay && (k.holders (t % 256)).isEmpty

/-- Core k with a row stored at logical row t: a replayable job's first write fills the whole shadow and marks the pair
dirty; a later write replaces the state word and the entries es (R67, R511). -/
def Core.store (k : Core) (num : Nat) (replay : Bool) (t : Nat) (es : List Nat) (row : TileRow) : Core :=
  let k' := k.putRow (k.writeRowNo replay t) (if k.firstWrite replay t then allEntries else es) row
  if replay then k'.markDirty num t else k'

/-- Stores a row at logical row t. Writes of a rescale group that has overflowed are dropped (R81). -/
def storeRow (x : Cx) (t : Nat) (es : List Nat) (row : TileRow) : Act Unit :=
  act fun s => s.modCore x.c fun k => if k.dropping then k else k.store x.site.job x.replay t es row

/-- Writes all of row t without reading it: once, and when no earlier command still uses it. -/
def writeRow (x : Cx) (t : Nat) (row : TileRow) : Act Unit := onceDo x do
  rangeCheck x t
  passRow x t
  storeRow x t allEntries row

/-- Reads row t, changes the entries es and the state word, and stores it, once. A first write of a replayable job copies,
and so reads, every entry (R67, R511). -/
def modRow (x : Cx) (t : Nat) (es : List Nat) (f : TileRow → Act TileRow) : Act Unit := onceDo x do
  rangeCheck x t
  passRow x t
  let s ← get
  let k := s.core x.c
  let r := k.baseRowNo x.replay t
  if k.dropping then pure ()
  else
    parityCheck x r t (if k.firstWrite x.replay t then allEntries else es)
    let row' ← f (k.physRow r)
    storeRow x t es row'

/-! ### Contribution events -/

/-- Whether an overflow in a row of policy RESCALE is taken up by a retry: a rescale group is open and has been re-run
fewer than three times (R79, R81). Outside a group no retry is possible, and the row saturates (DEDUCED, log entry 21). -/
def Core.retryLeft (k : Core) (policy : Nat) : Bool :=
  decide (policy = 1) && k.group.elim false fun g => decide (g.rho < 3)

/-- What R79 and R82 require of an event at one entry of row t: the flag SAT, the counter and the log; a retry marks the
group. -/
def State.noteEvent (s : State) (x : Cx) (t entry mode : Nat) (e : Event79) : State :=
  match e with
  | .quiet => s
  | .retry => s.modCore x.c fun k => { k with group := k.group.map fun g => { g with overflow := true } }
  | e =>
    let s := s.flagJob x.site.job fun f => { f with sat := true }
    if e.counted then
      (s.count (Reg.ACM_SAT_EVENTS x.c) 1).setReg (Reg.ACM_SAT_LOG x.c)
        (BitVec.ofNat 64 (place t 0 9 + place entry 9 6 + place mode 15 2 + (decide (e = .nonfinite)).toNat * 2 ^ 17 + 2 ^ 18))
    else s

/-- What R78 and R82 require when an event counts past the bound. -/
def State.noteLapse (s : State) (x : Cx) (lapsed first : Bool) : State :=
  let s := if lapsed then s.flagJob x.site.job fun f => { f with lapsed := true } else s
  if first then s.count (Reg.ACM_LAPSES x.c) 1 else s

/-- Entries of a row replaced, with the event of each: (entry, new value, event). -/
abbrev Changes := List (Nat × Word32 × Event79)

/-- Applies changes to row t: entries, sat, flags, counters, log. -/
def applyChanges (x : Cx) (t : Nat) (row : TileRow) (cs : Changes) : Act TileRow := do
  act fun s => cs.foldl (fun s c => s.noteEvent x t c.1 (wordMode row.word) c.2.2) s
  pure { word := setSat row.word (cs.any fun c => c.2.2.sat)
         entries := cs.foldl (fun es c => es.set c.1 c.2.1) row.entries }

/-- One contribution event on row t that changes the entries of f: the changes, then the count (R75). -/
def contribute (x : Cx) (t : Nat) (es : List Nat) (f : Core → TileRow → Act Changes) : Act Unit :=
  modRow x t es fun row => do
    let s ← get
    let cs ← f (s.core x.c) row
    let row ← applyChanges x t row cs
    let (w, lapsed, first) := countEvent row.word
    act fun s => s.noteLapse x lapsed first
    pure { row with word := w }

/-- The pair of float accumulator a of a row. -/
def pairAt (row : TileRow) (a : Nat) : Pair := ⟨row.entries.getD (2 * a) 0, row.entries.getD (2 * a + 1) 0⟩

/-- The statistic a of a row (R88). -/
def statAt (row : TileRow) (a : Nat) : Stat :=
  ⟨row.entries.getD (4 * a) 0, row.entries.getD (4 * a + 1) 0, row.entries.getD (4 * a + 2) 0⟩

/-- The changes that put a pair into accumulator a. -/
def pairChanges (a : Nat) (r : Pair × Event79) : Changes := [(2 * a, r.1.total, r.2), (2 * a + 1, r.1.comp, .quiet)]

/-- The changes that put a statistic into a, with the events of its entries. -/
def statChanges (a : Nat) (old new : Stat) : Changes :=
  [(4 * a, new.n, .quiet), (4 * a + 1, new.mean, statEvent old.mean new.mean), (4 * a + 2, new.m2, statEvent old.m2 new.m2),
   (4 * a + 3, 0, .quiet)]

/-- Integer or float contributions into the accumulators of a row: (accumulator, exact value). An integer row takes the
unscaled integer, a float row the value of R73. -/
def addContributions (k : Core) (row : TileRow) (l : List (Nat × Int × Val)) : Changes :=
  let policy := wordPolicy row.word
  if wordMode row.word = 0 then
    l.map fun c =>
      let r := addInteger (k.retryLeft policy) (row.entries.getD c.1 0) c.2.1
      (c.1, r.1, r.2)
  else l.flatMap fun c => pairChanges c.1 (promote (decide (policy = 2)) (pairAt row c.1) c.2.2)

/-- The entries that accumulators of a row of a mode occupy. -/
def accEntries (mode : Nat) (accs : List Nat) : List Nat :=
  if mode = 0 then accs else accs.flatMap fun a => [2 * a, 2 * a + 1]

/-- Values that nothing in the spec gives, for entries of a row (each constrained by nothing). -/
def freeWords (s : State) : List Nat → Changes × State
  | [] => ([], s)
  | e :: l =>
    let (b, s) := s.free
    let (cs, s) := freeWords s l
    ((e, b.truncate 32, .quiet) :: cs, s)

/-- One row's part of a result: (accumulator, integer, value). A row that holds neither integers nor floats, or
integers under an FP4 facet, is a mode fault (R63). The row's own mode decides what is added (R62, R63, R74). Where the
vector takes a different number of rows in the two modes (wide), a row whose mode is not the one that placed the runs takes
free values (DESIGN CHOICE, log entry 22). -/
def deliver (x : Cx) (placed t : Nat) (floatOnly wide : Bool) (l : List (Nat × Int × Val)) : Act Unit := do
  let row ← peekRow x t
  let mode := wordMode row.word
  if 2 ≤ mode ∨ (floatOnly ∧ mode ≠ 1) then modeFault x t row
  else if mode ≠ placed ∧ wide then
    contribute x t allEntries fun _ _ => EStateM.modifyGet fun s => freeWords s allEntries
  else
    contribute x t (accEntries mode (l.map (·.1))) fun k row =>
      pure (addContributions k row l)

/-- Delivers the outputs of one vector, per accumulators to a row (R62, R134). -/
def deliverParts (x : Cx) (placed first per : Nat) (floatOnly : Bool) (runs : List (Int × Val)) :
    List Nat → Act Unit
  | [] => pure ()
  | q :: l => do
    deliver x placed (first + q) floatOnly (decide (32 < runs.length))
      ((((runs.drop (per * q)).take per).zipIdx).map fun r => (r.2, r.1.1, r.1.2))
    deliverParts x placed first per floatOnly runs l

/-- The operand of an address, which dispatch has checked. -/
def Cx.need (x : Cx) (write : Bool) (a : Word64) : Act Opnd :=
  match x.opnd write a with
  | some o => pure o
  | none => do
    act fun s => s.refuse x.site 6
    throw .ended

end Sys2Proof.Machine
end

