-- ==== Sys2Proof/Machine/Exposure.lean ====
section
/-!
DEFINITION. Exposure slots as commands use them: job and pass exposures (R113, R116), the freeze of a slot with its
journal record (R114, R115, R118), what anchors observe (R112, R117), the update at a job's completion (R117), and the
records of R120.
-/

namespace Sys2Proof.Machine

/-- Exposure slot n. -/
def State.expoSlot (s : State) (n : Nat) : ExpoSlot := Sparse.get ExpoSlot.reset s.expo n

/-- Exposure slot n replaced. -/
def State.setExpoSlot (s : State) (n : Nat) (e : ExpoSlot) : State :=
  { s with expo := Sparse.set ExpoSlot.reset s.expo n e }

/-- The valid entries of a history: those before head, counted backwards with wrap (R120). -/
def ExpoSlot.entries (e : ExpoSlot) : List Int :=
  (List.range e.valid).map fun i => e.hist.getD ((e.head + 16 - (i + 1)) % 16) 0

/-- A job exposure clamped (R113). -/
def clampExp (e : Int) : Int := max (-160) (min 127 e)

/-- The job exposure from a history that holds an entry (R113). -/
def ExpoSlot.warm (e : ExpoSlot) (p : Int) (carry : Bool) : Int :=
  clampExp (e.entries.foldl max (-150) - p + e.headroom + (if carry then (e.carry : Int) else 0))

/-- A free exponent in the range of a job exposure (R113 states no cold bound for a slot without an anchor's source). -/
def State.freeExp (s : State) : Int × State :=
  let (b, s) := s.free
  ((bits b 0 64 % 288 : Nat) - 160, s)

/-- The cold exposure (R113): cold_h, or for auto the bound of the anchor's source; with no anchor's source a free value. -/
def State.coldExp (s : State) (e : ExpoSlot) (p : Int) (auto : Option Int) : Int × State :=
  match e.coldH, auto with
  | some h, _ => (clampExp (h - p + e.headroom), s)
  | none, some h => (clampExp (h - p + e.headroom), s)
  | none, none => s.freeExp

/-- A freeze that is wanted: the slot, p of R113, the auto cold bound, and whether an anchor names it. -/
structure Freeze where
  slot : Nat
  p : Int
  auto : Option Int
  anchor : Bool
deriving DecidableEq, Repr

/-- The exposure that the journal of a replayed job holds for a slot (R118, R329). -/
def Job.journalled (j : Job) (slot : Nat) : Option Int :=
  j.journal.findSome? fun r => match r with
    | .exposure l => (l.find? fun e => decide (e.1 = slot)).map (·.2)
    | _ => none

/-- What the COLD flag, counter and event require of a cold freeze (R115). -/
def State.noteCold (s : State) (x : Cx) (slot : Nat) : State :=
  let s := (s.flagJob x.site.job fun f => { f with cold := true }).count Reg.GLB_EXP_COLD 1
  if (s.findJob x.site.job).elim false (fun j => bits (s.epochReg j Reg.GLB_EXP_CTRL) 1 1 = 1) then
    s.postEvent { source := 0x04, job := x.site.job, core := x.c, ring := x.site.ring, info0 := slot }
  else s

/-- The frozen exposure of a slot in a job. -/
def Job.frozenAt (j : Job) (slot : Nat) : Option Frozen := j.frozen.find? fun f => decide (f.slot = slot)

/-- A frozen slot of a job changed. -/
def State.modFrozen (s : State) (num slot : Nat) (f : Frozen → Frozen) : State :=
  s.modJob num fun j => { j with frozen := j.frozen.map fun e => if e.slot = slot then f e else e }

/-- Freezes one slot of job j (R114): its E_job, and whether the journal has still to record it. -/
def State.freezeNew (s : State) (x : Cx) (j : Job) (z : Freeze) : Int × Bool × State :=
  let put (e : Int) (cold : Bool) (s : State) : State := s.modJob j.num fun j =>
    { j with frozen := j.frozen ++ [⟨z.slot, e, cold, z.anchor, 0⟩] }
  match if 0 < j.replays then j.journalled z.slot else none with
  | some e => (e, false, put e false s)
  | none =>
    let slot := s.expoSlot z.slot
    if slot.valid = 0 then
      let (e, s) := s.coldExp slot z.p z.auto
      (e, true, (put e true s).noteCold x z.slot)
    else
      let e := slot.warm z.p (bits (s.epochReg j Reg.GLB_EXP_CTRL) 0 1 = 1)
      (e, true, put e false s)

/-- The job exposure of a slot for a command, frozen and journalled now where this is its first use (R114, R323). -/
def State.freeze (s : State) (x : Cx) (z : Freeze) : Int × State :=
  match s.findJob x.site.job with
  | none => (0, s)
  | some j =>
    match j.frozenAt z.slot with
    | some f => (f.eJob, if z.anchor then s.modFrozen j.num z.slot fun f => { f with anchored := true } else s)
    | none =>
      let (e, fresh, t) := s.freezeNew x j z
      (e, if fresh then t.journal j.num (.exposure [(z.slot, e)]) else t)

/-- How often the core's rescale group has been re-run (R81). -/
def Core.rho (k : Core) : Nat := k.group.elim 0 (·.rho)

/-- The pass exponent of an exposure on core c (R116). -/
def State.passExp (s : State) (c : Nat) (e : Int) : Int := min (e + ((s.core c).rho : Int)) 127

/-- A command that names a slot latches the slot's pass exponent as it issues (R110, R116). -/
def State.latchExp (s : State) (x : Cx) (z : Freeze) : State :=
  let (e, s) := s.freeze x z
  x.mod (fun r => { r with exp := some (s.passExp x.c e) }) s

/-- The pass exponent that the command latched; one that issued without (its facet was not usable then, R54) latches it
now. -/
def passExponent (x : Cx) (z : Freeze) : Act Int := do
  note x fun s => if ((s.issuedOf x.c x.site.seq).bind (·.exp)).isSome then s else s.latchExp x z
  let s ← get
  pure (((s.issuedOf x.c x.site.seq).bind (·.exp)).getD 0)

/-- What an anchor observes of a slot: one entry for the command and the slot, with the greatest h (R117). -/
def Job.observe (j : Job) (core seq slot : Nat) (h : Int) : Job :=
  let same (o : Observed) : Bool := decide (o.core = core ∧ o.seq = seq ∧ o.slot = slot)
  if j.observed.any same then { j with observed := j.observed.map fun o => if same o then { o with h := max o.h h } else o }
  else { j with observed := j.observed ++ [⟨core, seq, slot, h⟩] }

/-- An anchor has quantised source values under a slot (R112, R117). -/
def State.observe (s : State) (x : Cx) (slot : Nat) (vals : List Val) : State :=
  s.modJob x.site.job fun j => j.observe x.c x.site.seq slot (observedH vals)

/-- The observed h of a slot: over the passes that were not dropped (R117). -/
def Job.observedOf (j : Job) (slot : Nat) : Int :=
  ((j.observed.filter fun o => decide (o.slot = slot)).map (·.h)).foldl max (-150)

/-- The update of one slot (R117). -/
def ExpoSlot.update (e : ExpoSlot) (h : Int) (retries now : Nat) : ExpoSlot :=
  { e with hist := e.hist.set e.head h, head := (e.head + 1) % 16, valid := min (e.valid + 1) 16
           carry := if 0 < retries then min 3 retries else e.carry - 1, updated := now }

/-- The updates of a completed job (R117): every slot that an anchor of the job named. -/
def State.updateSlots (s : State) (j : Job) : State :=
  j.frozen.foldl (fun s f =>
    if f.anchored then s.setExpoSlot f.slot ((s.expoSlot f.slot).update (j.observedOf f.slot) f.retries s.deviceTime)
    else s) s

/-! ### Rescale groups -/

/-- A commit point of core c that covers pairs q: a group with a row among them ends, and its retries are noted on the
anchor's slot (R80, R117). -/
def State.closeGroup (s : State) (num c : Nat) (q : Nat → Bool) : State :=
  match (s.core c).group with
  | none => s
  | some g =>
    if g.rows.any fun t => q (t % 256) then
      let s := match g.anchor.slot with
        | some n => s.modFrozen num n fun f => { f with retries := max f.retries g.rho }
        | none => s
      s.modCore c fun k => { k with group := none }
    else s

/-! ### Records -/

/-- The 60 bytes that the check of an exposure record covers (R120). -/
def ExpoSlot.body (e : ExpoSlot) : List Byte :=
  e.hist.flatMap (fun h => toBytes 2 (unsigned 16 h))
    ++ toBytes 1 e.valid ++ toBytes 1 e.head ++ toBytes 2 (e.headroom % 4 + 4 * (e.carry % 4))
    ++ toBytes 2 (e.coldH.elim 0x7FFF (unsigned 16)) ++ toBytes 2 0 ++ toBytes 8 e.updated ++ toBytes 8 0
    ++ toBytes 1 1 ++ toBytes 3 0

/-- The 64 bytes of an exposure record (R120). -/
def ExpoSlot.record (e : ExpoSlot) : List Byte := e.body ++ toBytes 4 (crc32 e.body)

/-- The slot that a record gives, or the reason of the first test that it fails (R121): 0 check, 1 version, 2 range. -/
def readExpo (bs : List Byte) : Except Nat ExpoSlot :=
  let v := ofBytes bs
  let f (lo n : Nat) : Nat := (v >>> lo) % 2 ^ n
  let hist := (List.range 16).map fun i => signed 16 (f (16 * i) 16)
  let cold := f 288 16
  let coldV := signed 16 cold
  if f 480 32 ≠ crc32 (bs.take 60) then .error 0
  else if f 448 8 ≠ 1 then .error 1
  else if hist.any (fun h => decide (h ≠ -150 ∧ (h < -148 ∨ 128 < h))) ∨ 16 < f 256 8 ∨ 15 < f 264 8 ∨ f 276 12 ≠ 0
      ∨ (cold ≠ 0x7FFF ∧ (coldV < -148 ∨ 128 < coldV)) ∨ f 304 16 ≠ 0 ∨ f 384 64 ≠ 0 ∨ f 456 24 ≠ 0 then .error 2
  else .ok { hist := hist, valid := f 256 8, head := f 264 8, headroom := f 272 2, carry := f 274 2
             coldH := if cold = 0x7FFF then none else some coldV, updated := f 320 64 }

/-- A slot cleared (R119). -/
def ExpoSlot.cleared (e : ExpoSlot) : ExpoSlot := { e with valid := 0, head := 0, carry := 0 }

end Sys2Proof.Machine
end

