-- ==== Sys2Proof/Machine/Real.lean ====
section
/-!
DEFINITION. The functions of REFEW beyond sums and products (R137, R138). Each answers a value from which one rounding to
any format of R95 gives the correctly rounded result: an exact one, or one cut far below the last bit of any format with
a last bit 1 that stands for the rest (no result of these functions lies that near to a rounding boundary).
-/

namespace Sys2Proof.Machine

/-- The quotient a ÷ b of naturals as a value: the quotient at 2^-k with its rest, if any, in a last bit. -/
def cutDiv (a b : Nat) (k : Nat) : Dy :=
  let q := a * 2 ^ k / b
  ⟨2 * q + (if a * 2 ^ k % b = 0 then 0 else 1), -(k : Int) - 1⟩

/-- A natural number's square root scaled: √n at 2^0 with its rest in a last bit 2^-1. -/
def cutSqrt (n : Nat) : Dy :=
  let r := Nat.sqrt n
  ⟨2 * r + (if r * r = n then 0 else 1), -1⟩

/-- 1 ÷ x (R137). -/
def rcpV : Val → Val
  | .nan => .nan
  | .inf n => .fin ⟨0, 0⟩ n
  | .fin x nz =>
    if x.isZero then .inf nz
    else
      let d := (cutDiv 1 x.m.natAbs (Nat.log2 x.m.natAbs + 64)).scale (-x.e)
      .fin (if x.isNeg then d.neg else d) false

/-- √x. -/
def sqrtV : Val → Val
  | .nan => .nan
  | .inf n => if n then .nan else .inf false
  | .fin x nz =>
    if x.isZero then .fin x nz
    else if x.isNeg then .nan
    else
      -- x = m · 2^(2h) with an even exponent, widened by 128 bits
      let odd := x.e % 2 = 1
      let m := if odd then 2 * x.m.natAbs else x.m.natAbs
      let e := if odd then x.e - 1 else x.e
      .fin ((cutSqrt (m * 2 ^ 128)).scale (e / 2 - 64)) false

/-- 1 ÷ √x. -/
def rsqrtV : Val → Val
  | .nan => .nan
  | .inf n => if n then .nan else .fin ⟨0, 0⟩ false
  | .fin x nz =>
    if x.isZero then .inf nz
    else if x.isNeg then .nan
    else
      let odd := x.e % 2 = 1
      let m := if odd then 2 * x.m.natAbs else x.m.natAbs
      let e := if odd then x.e - 1 else x.e
      -- 1 ÷ √(m · 2^e) = √(2^(2w) ÷ m) · 2^(-w - e/2)
      let w := Nat.log2 m + 96
      let n := 2 ^ (2 * w) / m
      let r := Nat.sqrt n
      .fin ⟨2 * r + (if r * r * m = 2 ^ (2 * w) then 0 else 1), -(w : Int) - e / 2 - 1⟩ false

/-- ln 2 in units of 2^-256. -/
def ln2 : Nat := 80260960185991308862233904206310070533990667611589946606122867505419956976171

/-- The Taylor series of e^y at 2^-256, with n terms left: term is the last term. -/
def expSeries (y : Nat) : Nat → Nat → Nat → Nat
  | 0, _, _ => 0
  | n + 1, k, term => term + expSeries y n (k + 1) (term * y / 2 ^ 256 / (k + 1))

/-- 2^f for a fraction f in units of 2^-256, in the same units. -/
def exp2Frac (f : Nat) : Nat := expSeries (f * ln2 / 2 ^ 256) 64 0 (2 ^ 256)

/-- 2^x. -/
def exp2V : Val → Val
  | .nan => .nan
  | .inf n => if n then .fin ⟨0, 0⟩ false else .inf false
  | .fin x _ =>
    let n := x.floor
    let f := x.sub (.ofInt n)
    if 1000 < n then .fin ⟨1, 1000⟩ false
    else if n < -1000 then .fin ⟨1, -1000⟩ false
    else if f.isZero then .fin ⟨1, n⟩ false
    else .fin ⟨2 * exp2Frac (f.scale 256).floor.toNat + 1, n - 257⟩ false

/-- n bits of log2 of y in [1, 2), y in units of 2^-256, most significant first, as a number. -/
def log2Bits : Nat → Nat → Nat → Nat
  | 0, _, acc => acc
  | n + 1, y, acc =>
    let z := y * y / 2 ^ 256
    if 2 ^ 257 ≤ z then log2Bits n (z / 2) (2 * acc + 1) else log2Bits n z (2 * acc)

/-- log2 x. -/
def log2V : Val → Val
  | .nan => .nan
  | .inf n => if n then .nan else .inf false
  | .fin x _ =>
    if x.isZero then .inf true
    else if x.isNeg then .nan
    else
      let e := x.log2
      let y := (x.scale (256 - e)).floor.toNat
      if y = 2 ^ 256 then .fin (.ofInt e) false
      else .fin ((Dy.ofInt e).add ⟨2 * log2Bits 112 y 0 + 1, -113⟩) false

/-! ### Composites (R138) -/

/-- log2 e as R138 gives it. -/
def bigL : Val := f32 0x3FB8AA3B

/-- 1.702 as R138 gives it. -/
def bigG : Val := f32 0x3FD9DB23

/-- The last step of exp before its rounding. -/
def expV (a : Val) : Val := exp2V (a.mul bigL).rn32

/-- The last step of sigmoid before its rounding. -/
def sigmoidV (a : Val) : Val := rcpV (Val.sum [.of (.ofInt 1), (expV a.neg).rn32]).rn32

/-- The last step of tanh before its rounding. -/
def tanhV (a : Val) : Val :=
  Val.sum [.mul (.of (.ofInt 2)) (sigmoidV (a.scale 1).rn32).rn32, .of (.ofInt (-1))]

/-- The last step of silu before its rounding. -/
def siluV (a : Val) : Val := a.mul (sigmoidV a).rn32

/-- The last step of gelu_s before its rounding. -/
def geluV (a : Val) : Val := a.mul (sigmoidV (a.mul bigG).rn32).rn32

/-! ### Comparisons -/

/-- Whether a lies below b, -0 below +0 (R136, R141). -/
def below (a b : Val) : Bool :=
  match a, b with
  | .fin x nx, .fin y ny => x.lt y || (x.isZero && y.isZero && nx && !ny)
  | _, _ => a.lt b

/-- The larger of two values; NaN if either is NaN. -/
def maxV (a b : Val) : Val :=
  if a = .nan ∨ b = .nan then .nan else if below a b then b else a

/-- The smaller of two values; NaN if either is NaN. -/
def minV (a b : Val) : Val :=
  if a = .nan ∨ b = .nan then .nan else if below b a then b else a

/-- The value of a REFEW operation above RCP, exact; of the others, the last step before its rounding (R136 to R138). -/
def refewV (op : Nat) (imm : Int) (a b c : Val) : Val :=
  match op with
  | 0 => Val.sum [a, b]
  | 1 => Val.sum [a, b.neg]
  | 2 => a.mul b
  | 3 => Val.sum [a.mul b, c]
  | 4 => maxV a b
  | 5 => minV a b
  | 6 => a.abs
  | 7 => a.neg
  | 8 => maxV a (.of ⟨0, 0⟩)
  | 9 => a.scale imm
  | 12 => rcpV a
  | 13 => sqrtV a
  | 14 => rsqrtV a
  | 15 => exp2V a
  | 16 => log2V a
  | 17 => expV a
  | 18 => sigmoidV a
  | 19 => tanhV a
  | 20 => siluV a
  | 21 => geluV a
  | _ => a

end Sys2Proof.Machine
end

