-- ==== Sys2Proof/Machine/Refractor.lean ====
section
/-!
DEFINITION. The refractor: paths and trees (R128, R129), the operand buffers (R131), and the work of REFMM (R132 to
R135), REFEW (R136 to R139) and REDUCE (R87, R88, R140 to R142).
-/

namespace Sys2Proof.Machine

/-! ### Paths and trees -/

/-- The path of an operand format: 0 I, 1 F8, 2 F16, 3 F32 (R128). -/
def refPath (fmt : Nat) : Nat :=
  match fmt with
  | 0xD => 2
  | 0xE => 2
  | 0xF => 3
  | 0x6 => 3
  | 0x7 => 3
  | f => if f ≤ 5 then 0 else 1

/-- Tree size t of a path (R128). -/
def treeSize (path : Nat) : Nat :=
  match path with
  | 2 => 8
  | 3 => 4
  | _ => 16

/-- Trees per F-cycle of a path (R128). -/
def treeRate (path : Nat) : Nat := if path = 3 then 8 else 16

/-- A sum rounded to a 48-bit significand, nearest, ties to even, with an unbounded exponent (R129). -/
def rn48 (v : Val) : Val :=
  match v with
  | .fin x _ => if x.isZero then .of ⟨0, 0⟩ else .of ⟨x.rneAt (x.log2 - 47), x.log2 - 47⟩
  | v => v

/-- The sum of one tree (R129). -/
def treeSum (path : Nat) (ps : List Val) : Val := if path = 0 then Val.sum ps else rn48 (Val.sum ps)

/-- The integer of a value on path I. -/
def Val.int : Val → Int
  | .fin x _ => x.floor
  | _ => 0

/-- REF_BUSY and REF_TREES after a command (R156), with the activity of its path (R409). -/
def State.countRef (s : State) (c path cycles trees : Nat) : State :=
  let s := (s.count (Reg.REF_BUSY c) cycles).count (Reg.REF_TREES c) trees
  (s.modCore c fun k => { k with lastCycles := cycles }).active c (1 + path) trees

/-! ### REFMM -/

/-- Lines and elements of a line of an operand of r × c elements, transposed or not. -/
def matLines (trans : Bool) (r c : Nat) : Nat × Nat := if trans then (c, r) else (r, c)

/-- The byte runs of a matrix operand. -/
def matRuns (w pitch : Nat) (lc : Nat × Nat) : List (Nat × Nat) :=
  (List.range lc.1).map fun i => (pitch * i, ceilDiv (w * lc.2) 8)

/-- M, N and K of a REFMM. -/
def RefmmM (f : RefmmArgs) : Nat := f.mM1.toNat + 1
def RefmmN (f : RefmmArgs) : Nat := f.nM1.toNat + 1
def RefmmK (f : RefmmArgs) : Nat := f.kM1.toNat + 1

/-- The memory operands of REFMM. -/
def refmmOpers (f : RefmmArgs) : List Oper :=
  [{ write := false, addr := f.b, mode := f.btag.toNat
     runs := matRuns (fmtWidth f.bfmt.toNat) f.bpitch.toNat (matLines f.btrans (RefmmK f) (RefmmN f)) },
   { write := false, addr := f.a, mode := f.atag.toNat
     runs := matRuns (fmtWidth f.afmt.toNat) f.apitch.toNat (matLines f.atrans (RefmmM f) (RefmmK f)) }]

/-- Whether a REFMM whose first tile row has this mode adds integers (R134). -/
def refmmInteger (f : RefmmArgs) (mode : Nat) : Bool :=
  decide (mode = 0 ∧ refPath f.afmt.toNat = 0 ∧ refPath f.bfmt.toNat = 0 ∧ f.kRef = 0)

/-- Tile rows for one line of outputs of a REFMM (R134). -/
def refmmPer (f : RefmmArgs) (integer : Bool) : Nat := ceilDiv (RefmmN f) (if integer then 64 else 32)

/-- The tile rows that a REFMM names. -/
def refmmRows (s : State) (x : Cx) (f : RefmmArgs) : List Nat :=
  let mode := (s.core x.c).modeOf x.replay x.site.seq f.acmRow.toNat
  (List.range (RefmmM f * refmmPer f (refmmInteger f mode))).map (· + f.acmRow.toNat)

/-- Reads lines of n elements of w bits while the operand stays within room bits of its buffer; the line that exceeds it
is read to the buffer's end, and the overflow of R131 is raised with the buffer's code. -/
def readMatrix (x : Cx) (mode : Nat) (o : Opnd) (w pitch n code limit : Nat) : Nat → List Nat → Act (List (List Nat))
  | _, [] => pure []
  | room, i :: l => do
    let fit := min n (room / w)
    let es ← readElems x mode o (8 * (pitch * i)) w fit
    if fit < n then resourceFault x code limit limit false .resource
    else
      let r ← readMatrix x mode o w pitch n code limit (room - w * n) l
      pure (es :: r)

/-- Reads one operand: OB (code 2) holds all of B; OA (code 1) holds one slice of A at a time. -/
def readA (x : Cx) (o : Opnd) (f : RefmmArgs) : Act (List (List Nat)) := do
  let w := fmtWidth f.afmt.toNat
  let k := RefmmK f
  let tag := f.atag.toNat
  if 65536 < w * k then
    -- the first slice exceeds its half of OA
    if f.atrans then
      let _ ← readMatrix x tag o w f.apitch.toNat 1 1 8192 65536 (List.range k)
      resourceFault x 1 8192 8192 false .resource
    else readMatrix x tag o w f.apitch.toNat k 1 8192 65536 [0]
  else
    let lc := matLines f.atrans (RefmmM f) k
    readMatrix x tag o w f.apitch.toNat lc.2 1 8192 (w * lc.1 * lc.2) (List.range lc.1)

/-- Element (i, j) of a matrix read by lines. -/
def matAt (trans : Bool) (m : List (List Nat)) (i j : Nat) : Nat :=
  if trans then (m.getD j []).getD i 0 else (m.getD i []).getD j 0

/-- The trees of index i for one line m of outputs (R132). Every operand is decoded by its element format alone (DESIGN
CHOICE, log entry 132: R129 speaks of block-scaled operands, and the map of R302 gives REFMM no scale address). -/
def refmmTrees (f : RefmmArgs) (path : Nat) (a b : List (List Nat)) (m i : Nat) : List (Int × Val) :=
  let t := treeSize path
  let ks := (List.range t).map (· + t * i) |>.filter (· < RefmmK f)
  (List.range (RefmmN f)).map fun n =>
    let v := treeSum path (ks.map fun k =>
      (decodeVal f.afmt.toNat (matAt f.atrans a m k)).mul (decodeVal f.bfmt.toNat (matAt f.btrans b k n)))
    (v.int, v.scale f.kRef.toInt)

/-- Delivers the trees of one index line by line. -/
def refmmLines (x : Cx) (f : RefmmArgs) (integer : Bool) (path : Nat) (a b : List (List Nat)) (i : Nat) :
    List Nat → Act Unit
  | [] => pure ()
  | m :: l => do
    let per := refmmPer f integer
    deliverParts x (if integer then 0 else 1) (f.acmRow.toNat + m * per) (if integer then 64 else 32) (!integer)
      (refmmTrees f path a b m i) (List.range per)
    refmmLines x f integer path a b i l

/-- Delivers the trees, index by index (R133, R135). -/
def refmmIndices (x : Cx) (f : RefmmArgs) (integer : Bool) (path : Nat) (a b : List (List Nat)) :
    List Nat → Act Unit
  | [] => pure ()
  | i :: l => do
    refmmLines x f integer path a b i (List.range (RefmmM f))
    refmmIndices x f integer path a b l

/-- F-cycles of a REFMM with both operands in core memory (R135). -/
def refmmCycles (f : RefmmArgs) (path : Nat) : Nat :=
  10 + ceilDiv (RefmmK f * RefmmN f * fmtWidth f.bfmt.toNat) 512
    + ceilDiv (RefmmM f * RefmmN f) (treeRate path) * ceilDiv (RefmmK f) (treeSize path) + 4

/-- REFMM (R132 to R135): OB is filled before A is read. -/
def refmmBody (f : RefmmArgs) (x : Cx) : Act Unit := do
  let path := max (refPath f.afmt.toNat) (refPath f.bfmt.toNat)
  let bo ← x.need false f.b
  let ao ← x.need false f.a
  let lb := matLines f.btrans (RefmmK f) (RefmmN f)
  let b ← readMatrix x f.btag.toNat bo (fmtWidth f.bfmt.toNat) f.bpitch.toNat lb.2 2 16384 131072 (List.range lb.1)
  let a ← readA x ao f
  let row ← peekRow x f.acmRow.toNat
  let trees := ceilDiv (RefmmK f) (treeSize path)
  refmmIndices x f (refmmInteger f (wordMode row.word)) path a b (List.range trees)
  act fun s => s.countRef x.c path (refmmCycles f path) (RefmmM f * RefmmN f * trees)

/-! ### REFEW -/

/-- Elements of a REFEW. -/
def refewN (f : RefewArgs) : Nat := f.nM1.toNat + 1

/-- Whether an operation reads b, and c (R136). -/
def refewB (op : Nat) : Bool := decide (op ≤ 5)
def refewC (op : Nat) : Bool := decide (op = 3)

/-- Elements per F-cycle of an operation (R136). -/
def refewRate (op : Nat) : Nat := if op ≤ 11 then 64 else if op ≤ 16 then 16 else 8

/-- Elements of a source: one where it is broadcast. -/
def bcastN (b : Bool) (n : Nat) : Nat := if b then 1 else n

/-- The memory operands of REFEW. The elements of a source and of the output stand one after another (DESIGN CHOICE, log
entry 133: R136 speaks of a pitch, and the map of R302 gives REFEW none). -/
def refewOpers (f : RefewArgs) : List Oper :=
  let n := refewN f
  let op := f.op.toNat
  let run (fmt m : Nat) : List (Nat × Nat) := [(0, ceilDiv (fmtWidth fmt * m) 8)]
  [{ write := false, addr := f.a, mode := f.tagA.toNat, runs := run f.fmtA.toNat n }]
    ++ (if refewB op then [{ write := false, addr := f.b, mode := f.tagB.toNat, runs := run f.fmtB.toNat (bcastN f.bBcast n) }] else [])
    ++ (if refewC op then [{ write := false, addr := f.c, mode := f.tagC.toNat, runs := run f.fmtC.toNat (bcastN f.cBcast n) }] else [])
    ++ [{ write := true, addr := f.out, mode := f.tagO.toNat, runs := run f.fmtO.toNat n }]

/-- The auto cold bound of an anchor's source format (R113); the spec gives none for the other formats. -/
def autoCold (fmt : Nat) : Option Int :=
  match fmt with
  | 0xF => some 128
  | 0xD => some 128
  | 0xE => some 16
  | 0xC => some 16
  | 0xB => some 9
  | _ => none

/-- The conversion of one result to the output format (R137). -/
def refewOut (fmt op : Nat) (sat : Bool) (v : Val) : Conv :=
  if op ≤ 11 then convertVal fmt sat v else if fmt = 0xF then fp32.convert sat v else convertVal fmt sat v.rn32

/-- Reads n values of a source from element i on: one value repeated where it is broadcast. -/
def readVals (x : Cx) (mode : Nat) (o : Opnd) (fmt : Nat) (bcast : Bool) (i n : Nat) : Act (List Val) := do
  let w := fmtWidth fmt
  if bcast then
    let es ← readElems x mode o 0 w 1
    pure (List.replicate n (decodeVal fmt (es.getD 0 0)))
  else
    let es ← readElems x mode o (w * i) w n
    pure (es.map (decodeVal fmt))

/-- Adds what conversions count: overflows and NaN (R100, R101), or clips for an anchor (R109). -/
def State.countConv (s : State) (anchor : Bool) (cs : List Conv) : State :=
  (s.count (if anchor then Reg.GLB_EXP_CLIPS else Reg.GLB_CONV_OVF) (cs.map (·.ovf)).sum).count Reg.GLB_CONV_NAN
    (cs.map (·.nan)).sum

/-- One piece of a REFEW: reads, computes, writes. quant: the pass exponent of an anchor. -/
def refewPieces (x : Cx) (f : RefewArgs) (a b c out : Opnd) (quant : Option Int) : List (Nat × Nat) → Act Unit
  | [] => pure ()
  | (i, n) :: l => do
    let op := f.op.toNat
    let va ← readVals x f.tagA.toNat a f.fmtA.toNat false i n
    let vb ← if refewB op then readVals x f.tagB.toNat b f.fmtB.toNat f.bBcast i n else pure []
    let vc ← if refewC op then readVals x f.tagC.toNat c f.fmtC.toNat f.cBcast i n else pure []
    let fo := f.fmtO.toNat
    let cs := match quant with
      | some e => va.map (quantise fo f.zp.toNat e)
      | none => (List.range n).map fun j =>
          refewOut fo op x.h.satFp (refewV op f.imm.toInt (va.getD j .nan) (vb.getD j .nan) (vc.getD j .nan))
    writeElems x f.tagO.toNat out (fmtWidth fo * i) (fmtWidth fo) (cs.map (·.code))
    note x fun s => s.countConv quant.isSome cs
    if quant.isSome then note x fun s => s.observe x f.slot.toNat va
    refewPieces x f a b c out quant l

/-- REFEW (R136 to R139): streamed at the operation's rate. -/
def refewBody (f : RefewArgs) (x : Cx) : Act Unit := do
  let op := f.op.toNat
  let n := refewN f
  let a ← x.need false f.a
  let b ← if refewB op then x.need false f.b else pure a
  let c ← if refewC op then x.need false f.c else pure a
  let out ← x.need true f.out
  let quant ← if op = 11 then do
      let e ← passExponent x ⟨f.slot.toNat, (anchorBits f.fmtO.toNat).getD 0, autoCold f.fmtA.toNat, true⟩
      pure (some e)
    else pure none
  let r := refewRate op
  refewPieces x f a b c out quant ((List.range (ceilDiv n r)).map fun i => (r * i, min r (n - r * i)))
  act fun s => s.countRef x.c 0 (8 + ceilDiv n r + 4) 0

/-! ### REDUCE -/

/-- Lines and elements of a REDUCE. -/
def reduceR (f : ReduceArgs) : Nat := f.rM1.toNat + 1
def reduceN (f : ReduceArgs) : Nat := f.nM1.toNat + 1

/-- Width of one output of MAX to ARGMAX. -/
def reduceOutW (f : ReduceArgs) : Nat := if f.mode = 6 then 32 else fmtWidth f.ofmt.toNat

/-- The memory operands of REDUCE. -/
def reduceOpers (f : ReduceArgs) : List Oper :=
  let w := fmtWidth f.sfmt.toNat
  [{ write := false, addr := f.src, mode := f.stag.toNat
     runs := (List.range (reduceR f)).map fun i => (f.lpitch.toNat * i, ceilDiv (w * reduceN f) 8) }]
    ++ (if 3 ≤ f.mode.toNat then
      [{ write := true, addr := f.out, mode := f.otag.toNat, runs := [(0, ceilDiv (reduceOutW f * reduceR f) 8)] }]
    else [])

/-- The tile rows that a REDUCE names. -/
def reduceRows (f : ReduceArgs) : List Nat :=
  let n := match f.mode.toNat with
    | 0 => ceilDiv (reduceR f) 32
    | 1 => ceilDiv (reduceR f) 32
    | 2 => ceilDiv (reduceR f) 16
    | _ => 0
  (List.range n).map (· + f.acmRow.toNat)

/-- Adds the trees of line a to its float accumulator (R87, R140). -/
def reduceTrees (x : Cx) (f : ReduceArgs) (a : Nat) : List Val → Act Unit
  | [] => pure ()
  | v :: l => do
    let t := f.acmRow.toNat + a / 32
    let row ← peekRow x t
    if wordMode row.word ≠ 1 then modeFault x t row
    else
      contribute x t (accEntries 1 [a % 32]) fun k row => pure (addContributions k row [(a % 32, 0, v)])
      reduceTrees x f a l

/-- Combines the block statistics of line a into its statistic (R88, R89). -/
def reduceStats (x : Cx) (f : ReduceArgs) (a : Nat) : List Stat → Act Unit
  | [] => pure ()
  | b :: l => do
    let t := f.acmRow.toNat + a / 16
    let row ← peekRow x t
    if wordMode row.word ≠ 2 then modeFault x t row
    else
      let g := a % 16
      contribute x t [4 * g, 4 * g + 1, 4 * g + 2, 4 * g + 3] fun _ row =>
        pure (statChanges g (statAt row g) (combine (statAt row g) b))
      reduceStats x f a l

/-- Index of the first largest element, or of the first NaN (R141). -/
def argMax (vs : List Val) : Nat :=
  match vs.findIdx? (· = .nan) with
  | some i => i
  | none =>
    (vs.zipIdx.foldl (fun (b : Nat × Option Val) e => match b.2 with
      | none => (e.2, some e.1)
      | some m => if below m e.1 then (e.2, some e.1) else b) (0, none)).1

/-- The value that MAX, MIN and ABSMAX give a line (R140, R141). -/
def reduceValue (mode : Nat) (vs : List Val) : Val :=
  let ws := if mode = 5 then vs.map Val.abs else vs
  match ws with
  | [] => .nan
  | v :: l => l.foldl (if mode = 4 then minV else maxV) v

/-- One line of a REDUCE. -/
def reduceLine (x : Cx) (f : ReduceArgs) (src : Opnd) (out : Option Opnd) (a : Nat) : Act Unit := do
  let w := fmtWidth f.sfmt.toNat
  let es ← readElems x f.stag.toNat src (8 * (f.lpitch.toNat * a)) w (reduceN f)
  let vs := es.map (decodeVal f.sfmt.toNat)
  let path := refPath f.sfmt.toNat
  match f.mode.toNat with
  | 0 => reduceTrees x f a ((chunks (treeSize path) vs).map (treeSum path))
  | 1 => reduceTrees x f a ((chunks (treeSize path) (vs.map fun v => v.mul v)).map (treeSum path))
  | 2 => reduceStats x f a ((chunks 16 vs).map blockStat)
  | 6 =>
    match out with
    | some o => writeElems x f.otag.toNat o (32 * a) 32 [argMax vs]
    | none => pure ()
  | m =>
    match out with
    | some o => do
      let c := convertVal f.ofmt.toNat x.h.satFp (reduceValue m vs)
      writeElems x f.otag.toNat o (fmtWidth f.ofmt.toNat * a) (fmtWidth f.ofmt.toNat) [c.code]
      note x fun s => s.countConv false [c]
    | none => pure ()

/-- The lines of a REDUCE in order. -/
def reduceLines (x : Cx) (f : ReduceArgs) (src : Opnd) (out : Option Opnd) : List Nat → Act Unit
  | [] => pure ()
  | a :: l => do
    reduceLine x f src out a
    reduceLines x f src out l

/-- F-cycles of one line (R142). -/
def reduceCycles (f : ReduceArgs) : Nat :=
  let path := refPath f.sfmt.toNat
  match f.mode.toNat with
  | 0 => ceilDiv (ceilDiv (reduceN f) (treeSize path)) (treeRate path)
  | 1 => ceilDiv (ceilDiv (reduceN f) (treeSize path)) (treeRate path)
  | 2 => ceilDiv (ceilDiv (reduceN f) 16) 4
  | _ => ceilDiv (reduceN f) 64

/-- Trees or block statistics of one line. -/
def reduceTreeCount (f : ReduceArgs) : Nat :=
  match f.mode.toNat with
  | 0 => ceilDiv (reduceN f) (treeSize (refPath f.sfmt.toNat))
  | 1 => ceilDiv (reduceN f) (treeSize (refPath f.sfmt.toNat))
  | 2 => ceilDiv (reduceN f) 16
  | _ => 0

/-- REDUCE (R87, R88, R140 to R142). -/
def reduceBody (f : ReduceArgs) (x : Cx) : Act Unit := do
  let src ← x.need false f.src
  let out ← if 3 ≤ f.mode.toNat then do
      let o ← x.need true f.out
      pure (some o)
    else pure none
  reduceLines x f src out (List.range (reduceR f))
  act fun s => s.countRef x.c (refPath f.sfmt.toNat) (8 + reduceR f * reduceCycles f + 4) (reduceR f * reduceTreeCount f)

end Sys2Proof.Machine
end

