-- ==== Sys2Proof/Machine/AcmCommands.lean ====
section
/-!
DEFINITION. The work of the commands that own the tile rows: ACMINIT (R64, R80), ACMOUT with its anchors, block scales
and valid region (R76, R90, R99 to R106, R108, R199, R200, R214) and TRANSIT (R91 to R93, R329, R366, R368).
-/

namespace Sys2Proof.Machine

/-! ### ACMINIT -/

/-- The tile rows that an ACMINIT names. -/
def acminitRows (f : AcminitArgs) : List Nat := (List.range f.count.toNat).map (· + f.acmRow.toNat)

/-- The row that an ACMINIT writes (R64). -/
def acminitRow (f : AcminitArgs) : TileRow :=
  { word := stateWord f.mode.toNat f.policy.toNat false false 0
    entries := allEntries.map fun e => match f.mode.toNat with
      | 0 => f.init
      | 1 => if e % 2 = 0 then f.init else 0
      | _ => 0 }

/-- Writes rows in order. -/
def initRows (x : Cx) (row : TileRow) : List Nat → Act Unit
  | [] => pure ()
  | t :: l => do
    writeRow x t row
    rowsDone x [t]
    initRows x row l

/-- ACMINIT (R64): no row is read. -/
def acminitBody (f : AcminitArgs) (x : Cx) : Act Unit := do
  initRows x (acminitRow f) (acminitRows f)
  act fun s => s.modCore x.c fun k => { k with lastCycles := 4 + f.count.toNat }

/-! ### ACMOUT -/

/-- Block size of a bs code; 0: not block-scaled. -/
def blockSize (bs : Nat) : Nat := if bs = 0 then 0 else 8 * 2 ^ bs

/-- Outputs per vector of an ACMOUT. -/
def acmoutN (f : AcmoutArgs) : Nat := f.nValidM1.toNat + 1

/-- Outputs per line as written: rounded up to the block size along the innermost axis (R105, R199). -/
def acmoutLine (f : AcmoutArgs) : Nat :=
  let b := blockSize f.bs.toNat
  if b = 0 ∨ f.axis then acmoutN f else b * ceilDiv (acmoutN f) b

/-- Lines written: vectors, rounded up to the block size along the axis across vectors. -/
def acmoutLines (f : AcmoutArgs) : Nat :=
  let b := blockSize f.bs.toNat
  if b ≠ 0 ∧ f.axis then b * ceilDiv f.mValid.toNat b else f.mValid.toNat

/-- The byte runs of the scale rows of a region of lines × n elements (R105). -/
def scaleRuns (axis : Bool) (b lines n pitch : Nat) : List (Nat × Nat) :=
  if axis then (List.range n).map fun j => (pitch * j, ceilDiv lines b)
  else (List.range lines).map fun v => (pitch * v, ceilDiv n b)

/-- The memory operands of ACMOUT. -/
def acmoutOpers (f : AcmoutArgs) : List Oper :=
  let w := fmtWidth f.ofmt.toNat
  let b := blockSize f.bs.toNat
  [{ write := true, addr := f.dst, mode := f.dtag.toNat
     runs := (List.range (acmoutLines f)).map fun v => (f.opitch.toNat * v, ceilDiv (w * acmoutLine f) 8) }]
    ++ (if b = 0 then [] else
      [{ write := true, addr := f.scale, mode := f.dtag.toNat
         runs := scaleRuns f.axis b (acmoutLines f) (acmoutLine f) f.scalePitch.toNat }])

/-- The tile rows that an ACMOUT reads (R199). -/
def acmoutRows (f : AcmoutArgs) : List Nat :=
  (List.range ((f.rpvM1.toNat + 1) * f.mValid.toNat)).map (· + f.acmRow.toNat)

/-- Outputs that one row of a mode holds: entries, accumulators, or a mean and a variance for each statistic. -/
def rowOutputs (mode : Nat) : Nat := if mode = 0 then 64 else 32

/-- The entries that the first n outputs of a row occupy. -/
def outputEntries (mode n : Nat) : List Nat :=
  match mode with
  | 0 => List.range (min n 64)
  | 2 => (List.range 64).filter fun e => decide (e / 4 < ceilDiv n 2)
  | _ => List.range (2 * min n 32)

/-- The values that a row gives (R76, R90, R102). -/
def rowValues (var : Bool) (kIn : Int) (row : TileRow) : List Val :=
  match wordMode row.word with
  | 0 => row.entries.map fun e => .of ⟨e.toInt, kIn⟩
  | 2 => (List.range 16).flatMap fun a =>
      let o := statOut var (statAt row a)
      [o.1, o.2]
  | _ => (List.range 32).map fun a => (pairAt row a).value

/-- n free outputs: what a command wants beyond what its rows hold. -/
def freeVals (x : Cx) : Nat → Act (List Val)
  | 0 => pure []
  | n + 1 => do
    let b ← freeOnce x
    let l ← freeVals x n
    pure (f32 (b.truncate 32) :: l)

/-- The values of one vector's rows, n outputs wanted; outputs beyond what the rows hold are free values. -/
def vectorValues (x : Cx) (var : Bool) (kIn : Int) : Nat → List Nat → Act (List Val)
  | n, [] => freeVals x n
  | n, t :: l => do
    let row ← readRow x t []
    let mode := wordMode row.word
    let row ← readRow x t (outputEntries mode n)
    rowsDone x [t]
    let vs := (rowValues var kIn row).take n
    let r ← vectorValues x var kIn (n - vs.length) l
    pure (vs ++ r)

/-- The bits that are written of values, with what is counted: the anchor's quantisation, or a conversion. -/
def outCodes (f : AcmoutArgs) (sat : Bool) (anchor : Option Int) (vs : List Val) : List Conv :=
  match anchor with
  | some e => vs.map (quantise f.ofmt.toNat f.zp.toNat e)
  | none => vs.map (convertVal f.ofmt.toNat sat)

/-- A block of a block-scaled write: its valid values, padded with zero elements to the block size (R105). -/
def padBlock (fmt b : Nat) (fit : Bool) (vs : List Val) : Block :=
  let k := writeBlock fmt fit vs
  { k with elems := k.elems ++ List.replicate (b - vs.length) 0 }

/-- Writes lines of codes in order, from line v on. -/
def writeLines (x : Cx) (mode : Nat) (o : Opnd) (pitch w : Nat) : Nat → List (List Nat) → Act Unit
  | _, [] => pure ()
  | v, es :: l => do
    writeElems x mode o (8 * (pitch * v)) w es
    writeLines x mode o pitch w (v + 1) l

/-- What the blocks of a write add to the counters (R104, R106). -/
def State.countBlocks (s : State) (bs : List Block) : State :=
  (s.count Reg.GLB_CONV_OVF (bs.map (·.ovf)).sum).count Reg.GLB_BLK_NONFINITE (bs.countP (·.nonFin))

/-- Writes lines of values block-scaled along a line (R104, R105): elements, then the line's scale row (DESIGN CHOICE, log
entry 134: the spec gives no order between the two). -/
def writeScaled (x : Cx) (mode : Nat) (o so : Opnd) (fmt b pitch sPitch : Nat) (fit : Bool) :
    Nat → List (List Val) → Act Unit
  | _, [] => pure ()
  | v, vs :: l => do
    let bs := (chunks b vs).map (padBlock fmt b fit)
    writeElems x mode o (8 * (pitch * v)) (fmtWidth fmt) (bs.flatMap (·.elems))
    writeElems x mode so (8 * (sPitch * v)) 8 (bs.map (·.scale))
    note x fun s => s.countBlocks bs
    writeScaled x mode o so fmt b pitch sPitch fit (v + 1) l

/-- Column j of lines of values. -/
def column (lines : List (List Val)) (j : Nat) : List Val := lines.map fun l => l.getD j .nan

/-- Writes scale bytes of block t of each column. -/
def writeColScales (x : Cx) (mode : Nat) (so : Opnd) (sPitch t : Nat) : Nat → List Nat → Act Unit
  | _, [] => pure ()
  | j, b :: l => do
    writeElems x mode so (8 * (sPitch * j + t)) 8 [b]
    writeColScales x mode so sPitch t (j + 1) l

/-- Writes groups of b lines block-scaled across the lines: block t of column j has its scale at byte t of row j (R105);
the elements of a group before its scales (DESIGN CHOICE, log entry 134). -/
def writeAcross (x : Cx) (mode : Nat) (o so : Opnd) (fmt b n pitch sPitch : Nat) (fit : Bool) :
    Nat → List (List (List Val)) → Act Unit
  | _, [] => pure ()
  | t, g :: l => do
    let bs := (List.range n).map fun j => padBlock fmt b fit (column g j)
    writeLines x mode o pitch (fmtWidth fmt) (b * t) ((List.range b).map fun i => bs.map fun k => k.elems.getD i 0)
    writeColScales x mode so sPitch t 0 (bs.map (·.scale))
    note x fun s => s.countBlocks bs
    writeAcross x mode o so fmt b n pitch sPitch fit (t + 1) l

/-- The values of vectors v on. -/
def allValues (x : Cx) (f : AcmoutArgs) (kIn : Int) : List Nat → Act (List (List Val))
  | [] => pure []
  | v :: l => do
    let rpv := f.rpvM1.toNat + 1
    let vs ← vectorValues x f.var kIn (acmoutN f) ((List.range rpv).map (· + (f.acmRow.toNat + rpv * v)))
    let r ← allValues x f kIn l
    pure (vs :: r)

/-- The pass exponent of an input slot, where the job has frozen it (R102, R116). -/
def State.inputExp (s : State) (x : Cx) (f : AcmoutArgs) : Option Int :=
  if f.inSlotEn then ((s.findJob x.site.job).bind (·.frozenAt f.inSlot.toNat)).map fun z => s.passExp x.c z.eJob
  else some 0

/-- The exponent of an input slot (R102); where the job has not frozen the slot the spec states none: a free value. -/
def inputExp (x : Cx) (f : AcmoutArgs) : Act Int := do
  let l ← once x (do
    let s ← get
    match s.inputExp x f with
    | some e => pure [e.toNat, (-e).toNat]
    | none =>
      let e ← EStateM.modifyGet State.freeExp
      pure [e.toNat, (-e).toNat])
  pure ((l.getD 0 0 : Int) - (l.getD 1 0 : Int))

/-- The auto cold bound of an ACMOUT that is an anchor, by the mode of its first row (R113); none is stated for
statistics. -/
def rowCold (mode : Nat) (kIn : Int) : Option Int :=
  match mode with
  | 0 => some (31 + kIn)
  | 1 => some 128
  | _ => none

/-- The freeze that an ACMOUT which is an anchor asks for (R113, R114). -/
def acmoutFreeze (s : State) (x : Cx) (f : AcmoutArgs) : Freeze :=
  { slot := f.slot.toNat, p := (anchorBits f.ofmt.toNat).getD 0, anchor := true
    auto := (s.inputExp x f).bind fun e =>
      rowCold ((s.core x.c).modeOf x.replay x.site.seq f.acmRow.toNat) (f.kIn.toInt + e) }

/-- The values of vectors as block scaling takes them: those of an anchor after its quantisation (R108, R109), whose
observations, clips and NaN are noted. -/
def blockValues (x : Cx) (f : AcmoutArgs) (anchor : Option Int) (vss : List (List Val)) : Act (List (List Val)) :=
  match anchor with
  | none => pure vss
  | some _ => do
    let cs := vss.map (outCodes f false anchor)
    note x fun s => (s.observe x f.slot.toNat vss.flatten).countConv true cs.flatten
    pure (cs.map fun l => l.map fun c => .of (.ofInt (decodeInt f.ofmt.toNat c.code)))

/-- Writes the vectors' lines one by one, each read, converted and written in turn. -/
def plainLines (x : Cx) (f : AcmoutArgs) (kIn : Int) (anchor : Option Int) (o : Opnd) : List Nat → Act Unit
  | [] => pure ()
  | v :: l => do
    let vs ← allValues x f kIn [v]
    let vs := vs.flatten
    if anchor.isSome then note x fun s => s.observe x f.slot.toNat vs
    let cs := outCodes f x.h.satFp anchor vs
    writeElems x f.dtag.toNat o (8 * (f.opitch.toNat * v)) (fmtWidth f.ofmt.toNat) (cs.map (·.code))
    note x fun s => s.countConv anchor.isSome cs
    plainLines x f kIn anchor o l

/-- Writes the vectors block-scaled along each line, vector by vector (R104, R105). -/
def scaledLines (x : Cx) (f : AcmoutArgs) (kIn : Int) (anchor : Option Int) (o so : Opnd) (b : Nat) : List Nat → Act Unit
  | [] => pure ()
  | v :: l => do
    let vss ← allValues x f kIn [v]
    let vss ← blockValues x f anchor vss
    writeScaled x f.dtag.toNat o so f.ofmt.toNat b f.opitch.toNat f.scalePitch.toNat f.bsMode v vss
    scaledLines x f kIn anchor o so b l

/-- Writes the vectors block-scaled across the lines, b vectors at a time (R104, R105). -/
def scaledGroups (x : Cx) (f : AcmoutArgs) (kIn : Int) (anchor : Option Int) (o so : Opnd) (b : Nat) :
    Nat → List (List Nat) → Act Unit
  | _, [] => pure ()
  | t, vs :: l => do
    let vss ← allValues x f kIn vs
    let vss ← blockValues x f anchor vss
    writeAcross x f.dtag.toNat o so f.ofmt.toNat b (acmoutN f) f.opitch.toNat f.scalePitch.toNat f.bsMode t [vss]
    scaledGroups x f kIn anchor o so b (t + 1) l

/-- ACMOUT (R199, R203, R214): each vector, or each group of vectors that a block spans, is read, converted and written
before the next is read. Its commit point follows with the command's completion (R68). -/
def acmoutBody (f : AcmoutArgs) (x : Cx) : Act Unit := do
  let o ← x.need true f.dst
  let m := f.mValid.toNat
  let e ← inputExp x f
  let kIn := f.kIn.toInt + e
  let s ← get
  let anchor ← if f.slotEn then do
      let e ← passExponent x (acmoutFreeze s x f)
      pure (some e)
    else pure none
  let b := blockSize f.bs.toNat
  if b = 0 then plainLines x f kIn anchor o (List.range m)
  else
    let so ← x.need true f.scale
    if f.axis then scaledGroups x f kIn anchor o so b 0 (chunks b (List.range m))
    else scaledLines x f kIn anchor o so b (List.range m)
  act fun s => s.modCore x.c fun k => { k with lastCycles := 8 + m * (f.rpvM1.toNat + 1) }

/-! ### TRANSIT -/

/-- Tile rows of a TRANSIT. -/
def transitRows (f : TransitArgs) : List Nat := (List.range (f.rowsM1.toNat + 1)).map (· + f.acmRow.toNat)

/-- Whether a role receives, and sends. -/
def transitMerges (f : TransitArgs) : Bool := decide (f.role = 1 ∨ f.role = 2)
def transitSends (f : TransitArgs) : Bool := decide (f.role = 0 ∨ f.role = 2)

/-- Tile rows that stand in a core's transit receive buffer (R92). -/
def Core.rxRows (k : Core) : Nat := (k.rxBuf.map fun m => m.rows.length).sum

/-- The message that a TRANSIT takes: of those of its chain, in the buffer or staged, the one with the lowest tile
sequence number after the kept one (R93, R368). -/
def State.nextTransit (s : State) (c chain : Nat) : Option StagedTransit :=
  let k := s.core c
  let kept := (k.chains.find? fun e => decide (e.1 = chain)).elim 0 (·.2)
  let ms := (k.rxBuf ++ s.staging).filter fun m => decide (m.core = c ∧ m.chain = chain)
  ms.foldl (fun b m => match b with
    | none => some m
    | some q => if (m.tseq + 2 ^ 32 - kept) % 2 ^ 32 < (q.tseq + 2 ^ 32 - kept) % 2 ^ 32 then some m else b) none

/-- A message taken out of the buffer, or of the staging store. -/
def State.takeTransit (s : State) (c : Nat) (m : StagedTransit) : State :=
  if (s.core c).rxBuf.contains m then s.modCore c fun k => { k with rxBuf := k.rxBuf.erase m }
  else { s with staging := s.staging.erase m }

/-- The chain's last merged tile sequence number set (R93). -/
def Core.setChain (k : Core) (chain tseq : Nat) : Core :=
  { k with chains := (k.chains.filter fun e => e.1 ≠ chain) ++ [(chain, tseq)] }

/-- The changes of the merge of an incoming row into a local one (R91). -/
def mergeChanges (k : Core) (inc loc : TileRow) : Changes :=
  let policy := wordPolicy loc.word
  match wordMode loc.word with
  | 0 => allEntries.map fun e =>
      let r := addInteger (k.retryLeft policy) (inc.entries.getD e 0) (loc.entries.getD e 0).toInt
      (e, if r.2 = .retry then loc.entries.getD e 0 else r.1, r.2)
  | 1 => (List.range 32).flatMap fun a =>
      pairChanges a (mergePair (decide (policy = 2)) (pairAt inc a) (pairAt loc a))
  | _ => (List.range 16).flatMap fun a => statChanges a (statAt loc a) (combine (statAt inc a) (statAt loc a))

/-- Merges incoming rows into the local rows in order (R91); answers the merged rows. -/
def mergeRows (x : Cx) : List (Nat × TileRow) → Act Unit
  | [] => pure ()
  | (t, inc) :: l => do
    modRow x t allEntries fun row => do
      if wordMode inc.word ≠ wordMode row.word then modeFault x t row
      else
        let s ← get
        let cs := mergeChanges (s.core x.c) inc row
        let row' ← applyChanges x t row cs
        let (w, lapsed, first) := mergeWord inc.word row'.word
        act fun s => (s.flagJob x.site.job fun f => { f with sat := f.sat || wordSat inc.word
                                                             lapsed := f.lapsed || wordLapsed inc.word }).noteLapse x lapsed first
        pure { row' with word := w }
    mergeRows x l

/-- Reads whole rows in order. -/
def readRows (x : Cx) : List Nat → Act (List TileRow)
  | [] => pure []
  | t :: l => do
    let row ← readRow x t allEntries
    let r ← readRows x l
    pure (row :: r)

/-- Writes recorded rows into the tile rows of a replay (R329). -/
def restoreRows (x : Cx) : List (Nat × TileRow) → Act Unit
  | [] => pure ()
  | (t, row) :: l => do
    writeRow x t row
    restoreRows x l

/-- The merged rows that the journal holds for a TRANSIT (R329). -/
def Job.mergedRows (j : Job) (core chain tseq : Nat) : Option (List TileRow) :=
  if 0 < j.replays then
    j.journal.findSome? fun r => match r with
      | .transit c h q rows => if c = core ∧ h = chain ∧ q = tseq then some rows else none
      | _ => none
  else none

/-- Sends rows to a core of this device: held until its buffer has room; a message that is not newer than the last one
merged is discarded and counted (R92, R93). -/
def sendLocal (x : Cx) (f : TransitArgs) (rows : List TileRow) : Act Unit := onceDo x do
  let d := f.succCore.toNat
  let s ← get
  if !(s.core d).accepts f.chain.toNat f.tseq.toNat then act fun s => s.count (Reg.ACM_TRANSIT_DUP d) 1
  else if 16 < (s.core d).rxRows + rows.length then throw .waits
  else act fun s => s.modCore d fun k => { k with rxBuf := k.rxBuf ++ [⟨d, f.chain.toNat, f.tseq.toNat, rows⟩] }

/-- Sends rows to a core of another device; complete with the answer OK or DUP (R366, R368). -/
def sendRemote (x : Cx) (f : TransitArgs) (rows : List TileRow) : Act Unit := do
  let p := Payload.transit { chain := f.chain, core := BitVec.ofNat 12 f.succCore.toNat, tseq := f.tseq, rows := rows }
  let _ ← askOnce x f.succDev 0 fun _ => p

/-- Takes the next message of the chain out of the buffer, or waits for it (R91, R93): its number and its rows. One that is
not newer than the last merged is discarded and counted. -/
def takeMessage (x : Cx) (chain : Nat) : Act (Nat × List TileRow) := do
  let l ← once x (do
    let s ← get
    match s.nextTransit x.c chain with
    | none => throw .waits
    | some m =>
      act fun s => s.takeTransit x.c m
      if !(s.core x.c).accepts m.chain m.tseq then
        act fun s => s.count (Reg.ACM_TRANSIT_DUP x.c) 1
        throw .waits
      else pure (m.tseq :: m.rows.flatMap rowNums))
  pure (l.getD 0 0, (chunks 65 (l.drop 1)).map rowOfNums)

/-- The merge part of a TRANSIT: from the journal in a replay, else from the message that has come in. The message's own
number is kept for the chain, whatever number the command carries (DESIGN CHOICE, log entry 136), and of a message with
another number of rows the common first rows are merged and journalled (DESIGN CHOICE, log entry 135). -/
def transitMerge (x : Cx) (f : TransitArgs) : Act Unit := do
  let rows := transitRows f
  let held ← see x fun s =>
    ((s.findJob x.site.job).bind fun j => j.mergedRows x.c f.chain.toNat f.tseq.toNat).elim [] fun l => 1 :: l.flatMap rowNums
  if held ≠ [] then restoreRows x (rows.zip ((chunks 65 (held.drop 1)).map rowOfNums))
  else
    let (tseq, inc) ← takeMessage x f.chain.toNat
    mergeRows x (rows.zip inc)
    note x fun s => s.modCore x.c fun k => k.setChain f.chain.toNat tseq
    let merged ← readRows x (rows.take inc.length)
    if x.replay then note x fun s => s.journal x.site.job (.transit x.c f.chain.toNat f.tseq.toNat merged)

/-- TRANSIT (R91 to R93): the merge, then the send. -/
def transitBody (f : TransitArgs) (x : Cx) : Act Unit := do
  if transitMerges f then transitMerge x f
  if transitSends f then
    let rows ← readRows x (transitRows f)
    if f.remote then sendRemote x f rows else sendLocal x f rows
  act fun s => s.modCore x.c fun k => { k with lastCycles := 2 * (f.rowsM1.toNat + 1) }

end Sys2Proof.Machine
end

