-- ==== Sys2Proof/Machine/Facets.lean ====
section
/-!
DEFINITION. Facets: weights (R16 to R19), runs (R20 to R23, R35), plane and subcycle counts (R24 to R34, R37), row
writes with parity (R47), the FP4 load conversion (R42, R43), states (R48, R53 to R56), parallax sampling (R144, R145),
and the work of FLOAD, FIRE and FIRET.
-/

namespace Sys2Proof.Machine

/-! ### Weights -/

/-- Bit-columns per weight (R16). -/
def facetQ (fmt : Nat) : Nat :=
  match fmt with
  | 0 => 2
  | 1 => 2
  | 4 => 8
  | 8 => 5
  | _ => 4

/-- Logical columns of a facet (R16). -/
def facetL (fmt : Nat) : Nat :=
  match fmt with
  | 0 => 64
  | 1 => 64
  | 4 => 16
  | 8 => 25
  | _ => 32

/-- The weight of logical column j in a row image: of FP4 the signed doubled magnitude (R17). -/
def weightOf (fmt : Nat) (img : RowImage) (j : Nat) : Int :=
  match fmt with
  | 0 => (bits img (2 * j) 1 : Int) - bits img (2 * j + 1) 1
  | 8 => if bit img (5 * j + 4) then -(bits img (5 * j) 4 : Int) else bits img (5 * j) 4
  | _ => signed (facetQ fmt) (bits img (facetQ fmt * j) (facetQ fmt))

/-- The group offset of row r in logical column j (R18). -/
def Facet.offset (f : Facet) (j r : Nat) : Nat := (Sparse.get 0 f.offsets (16 * j + r / 64)).toNat

/-- The weight of row r, logical column j, with the group offset of FP4: the integer that R23 sums. -/
def Facet.weight (f : Facet) (r : Nat) (img : RowImage) (j : Nat) : Int :=
  let w := weightOf f.fmt.toNat img j
  if f.fmt = 8 then w * (2 ^ f.offset j r : Nat) else w

/-- The weight exponent of logical column j (R18, R23, R73). -/
def Facet.colShift (f : Facet) (j : Nat) : Int :=
  if f.fmt = 8 then ((Sparse.get 0 f.colExp j).toNat : Int) - 128 else 0

/-- Logical columns of a facet. -/
def Facet.cols (f : Facet) : Nat := facetL f.fmt.toNat

/-- The run of logical column j for activations a (R23): the exact sum over the rows below k. -/
def Facet.run (f : Facet) (a : List Int) (k j : Nat) : Int :=
  f.rows.foldl (fun y e => if e.1 < k then y + a.getD e.1 0 * f.weight e.1 e.2 j else y) 0

/-- The runs of a FIRE vector. -/
def Facet.runs (f : Facet) (a : List Int) (k : Nat) : List Int := (List.range f.cols).map (f.run a k)

/-- The outputs of a FIRET vector (R35). -/
def Facet.outputs (f : Facet) (g : List Int) (k nCols : Nat) : List Int :=
  (List.range k).map fun r =>
    let img := Sparse.get 0 f.rows r
    (List.range nCols).foldl (fun y j => y + weightOf f.fmt.toNat img j * g.getD j 0) 0

/-! ### Planes -/

/-- Planes of an activation format (R20). -/
def planes (afmt : Nat) : Nat := fmtWidth afmt

/-- Whether element bits are 1 in plane b. -/
def inPlane (b e : Nat) : Bool := decide (e >>> b % 2 = 1)

/-- Active rows of plane b (R24). -/
def planeCount (es : List Nat) (b : Nat) : Nat := (es.filter (inPlane b)).length

/-- Subcycles of a plane (R24). -/
def subcycles (a : Nat) : Nat := ceilDiv a 768

/-- Row groups with an active row in some plane (R32). -/
def activeGroups (p : Nat) (es : List Nat) : List Bool :=
  (List.range 16).map fun g => ((es.drop (64 * g)).take 64).any fun e => decide (e % 2 ^ p ≠ 0)

/-- What the vectors of one command add to the facet counters, the rows that they drive (R409), and the F-cycles of the firing
slot (R29, R37). -/
structure FireCount where
  vectors : Nat
  rows : Nat
  sub : Nat
  skipped : Nat
  splits : Nat
  wakes : Nat
  groups : Nat
  slot : Nat
deriving DecidableEq, Repr

/-- The counts of one FIRE vector; prev: the groups active in the vector before (none: the first, or occ_en = 0). -/
def fireCount (p : Nat) (prev : Option (List Bool)) (es : List Nat) : FireCount :=
  let as := (List.range p).map (planeCount es)
  let s := (as.map subcycles).sum
  let woken : Nat := match prev with
    | none => 0
    | some m => ((activeGroups p es).zip m).countP fun q => q.1 && !q.2
  let w := if woken = 0 then 0 else 2
  { vectors := 1, rows := as.sum, sub := s, skipped := as.countP (· = 0), splits := as.countP (768 < ·)
    wakes := if woken = 0 then 0 else 1, groups := woken, slot := w + atLeastOne s }

/-- The counts of one FIRET vector. -/
def firetCount (p k : Nat) (es : List Nat) : FireCount :=
  let n := (List.range p).countP fun b => decide (planeCount es b ≠ 0)
  { vectors := 1, rows := n * k, sub := n * ceilDiv k 256, skipped := p - n, splits := 0, wakes := 0, groups := 0
    slot := atLeastOne (n * ceilDiv k 256) }

/-- Adds the counts of a vector to the counters of core c (R58), and its slot cycles to the command's time. -/
def State.countFire (s : State) (c : Nat) (n : FireCount) : State :=
  let s := (s.count (Reg.FCT_VECTORS c) n.vectors).count (Reg.FCT_SUBCYCLES c) n.sub
  let s := (s.count (Reg.FCT_SKIPPED c) n.skipped).count (Reg.FCT_SPLITS c) n.splits
  let s := (s.count (Reg.FCT_WAKES c) n.wakes).count (Reg.FCT_WAKE_GROUPS c) n.groups
  (s.modCore c fun k => { k with lastCycles := k.lastCycles + n.slot }).active c 0 n.rows

/-! ### Rows, parity, states -/

/-- The eight even-parity bits of a row image (R47). -/
def rowParityOf (img : RowImage) : Byte :=
  BitVec.ofNat 8 (ofBits ((List.range 8).map fun i => parity 16 (bits img (16 * i) 16)))

/-- Writes row r of a facet, with its parity; the write is a clean visit (R47, R50). -/
def Facet.putRow (f : Facet) (r : Nat) (img : RowImage) (now : Nat) : Facet :=
  { f with rows := Sparse.set 0 f.rows r img, rowParity := Sparse.set 0 f.rowParity r (rowParityOf img)
           lastClean := Sparse.set 0 f.lastClean r now }

/-- The first segment of row r whose parity fails (R50). -/
def Facet.badSegment (f : Facet) (r : Nat) : Option Nat :=
  let d := rowParityOf (Sparse.get 0 f.rows r) ^^^ Sparse.get 0 f.rowParity r
  (List.range 8).find? fun i => d.getLsbD i

/-- Even parity of the exponent-store entry of logical column j (R18). -/
def Facet.expParityOf (f : Facet) (j : Nat) : Bool :=
  parity 8 (Sparse.get 0 f.colExp j).toNat
    != ((List.range 16).foldl (fun b g => b != parity 3 (Sparse.get 0 f.offsets (16 * j + g)).toNat) false)

/-- Writes the exponent-store entry of logical column j; the write is a clean visit, kept under key 1,024 + j (R50). -/
def Facet.putExp (f : Facet) (j : Nat) (e : Nat) (offs : List Nat) (now : Nat) : Facet :=
  let f := { f with colExp := Sparse.set 0 f.colExp j (BitVec.ofNat 8 e)
                    offsets := (List.range 16).foldl (fun m g => Sparse.set 0 m (16 * j + g)
                      (BitVec.ofNat 3 (offs.getD g 0))) f.offsets }
  { f with expParity := Sparse.set false f.expParity j (f.expParityOf j)
           lastClean := Sparse.set 0 f.lastClean (1024 + j) now }

/-- A FACET_MARK event (R288): new state 2 STALE or 3 FAULTY; cause 0 parity, 1 parallax, 2 collimation. -/
def State.markEvent (s : State) (c f new cause job ring : Nat) : State :=
  s.postEvent { source := 0x02, detail := new, job := job, core := c, facet := f, ring := ring, info0 := cause }

/-! ### The FP4 conversion -/

/-- E2M1 doubled magnitude of a code (R17, R43). -/
def e2m1Double (code : Nat) : Nat := [0, 1, 2, 3, 4, 6, 8, 12].getD (code % 8) 0

/-- Blocks (of blk rows) that hold a loaded row of group g, with n loaded rows (R43). -/
def loadedBlocks (blk n g : Nat) : List Nat :=
  ((List.range (ceilDiv 1024 blk)).filter fun t =>
    decide (max (blk * t) (64 * g) < min (min (blk * (t + 1)) (64 * (g + 1))) n))

/-- Exponent and group offsets of a logical column from its scale bytes (R43): col_exp and eff of each group. -/
def fp4Column (blk n : Nat) (scales : List Nat) : Nat × List Nat :=
  let grp : List (Option Nat) := (List.range 16).map fun g =>
    (((loadedBlocks blk n g).map fun t => scales.getD t 0xFF).filter (· ≠ 0xFF)).max?
  let fin := grp.filterMap id
  match fin.min?, fin.max? with
  | some lo, some hi =>
    let e := max lo (hi - 7)
    (e, grp.map fun g => g.elim e fun v => max v e)
  | _, _ => (0, List.replicate 16 0)

/-- The five stored bits of one FP4 weight (R16, R43). -/
def fp4Store (code scale eff : Nat) : Nat :=
  if scale = 0xFF then 0
  else (rneDiv (e2m1Double code) (2 ^ (eff - scale))).toNat % 16 + 16 * (code / 8 % 2)

/-- The row image of a converted FP4 row r: cols gives each column's scales and effective exponents. -/
def fp4Row (blk : Nat) (cols : List (List Nat × List Nat)) (r rec : Nat) : RowImage :=
  BitVec.ofNat 128 ((List.range 25).foldl (fun a j =>
    let (sc, eff) := cols.getD j ([], [])
    a + fp4Store (rec / 16 ^ j % 16) (sc.getD (r / blk) 0xFF) (eff.getD (r / 64) 0) * 2 ^ (5 * j)) 0)

/-- Blocks that FCT_FP4_ADJ counts (R43): a loaded row, and a shift or the scale 0xFF. -/
def fp4Adjusted (blk n : Nat) (scales effs : List Nat) : Nat :=
  ((List.range (ceilDiv n blk)).countP fun t =>
    let sc := scales.getD t 0xFF
    sc = 0xFF || (List.range 16).any fun g =>
      (loadedBlocks blk n g).contains t && decide (sc < effs.getD g 0))

/-! ### FLOAD -/

/-- Rows per block of a block-size code of FLOAD. -/
def floadBlk (f : FloadArgs) : Nat := 16 * 2 ^ f.blk.toNat

/-- The memory operands of FLOAD (R41, R42). -/
def floadOpers (f : FloadArgs) : List Oper :=
  let src : Oper := { write := false, addr := f.src, mode := f.stag.toNat
                      runs := (List.range f.rowCount.toNat).map fun i => (f.pitch.toNat * i, 16) }
  if f.fmt = 8 then
    [{ write := false, addr := f.scale, mode := 2
       runs := (List.range 25).map fun j => (64 * j, ceilDiv f.rowCount.toNat (floadBlk f)) }, src]
  else [src]

/-- The scale bytes of the logical columns (R42). -/
def readScales (x : Cx) (o : Opnd) (n : Nat) : List Nat → Act (List (List Nat))
  | [] => pure []
  | j :: l => do
    let bs ← readRun x 2 o (64 * j) n
    let r ← readScales x o n l
    pure (bs.map (·.toNat) :: r)

/-- Loads rows in order. -/
def loadRows (x : Cx) (mode fi : Nat) (o : Opnd) (pitch : Nat) (conv : Nat → Nat → RowImage) (first : Nat) :
    List Nat → Act Unit
  | [] => pure ()
  | i :: l => do
    let bs ← readRun x mode o (pitch * i) 16
    note x fun s => s.modFacet x.c fi fun f => f.putRow (first + i) (conv (first + i) (ofBytes bs)) s.deviceTime
    loadRows x mode fi o pitch conv first l

/-- Zeros rows of a facet. -/
def State.zeroRows (s : State) (c fi lo hi : Nat) : State :=
  s.modFacet c fi fun f => (List.range (hi - lo)).foldl (fun f i => f.putRow (lo + i) 0 s.deviceTime) f

/-- The relocated address that a load record keeps for a refill: space and base + offset; of NEIGHBOUR the local core too. The
spaces from SHARED on have the task entries 1 to 3 (R218). -/
def Cx.recorded (x : Cx) (o : Opnd) : Word64 :=
  let base := (x.iss.task.entry (o.space - 1)).1
  BitVec.ofNat 64 (o.space * 2 ^ 60 + (if o.space = 1 then o.win * 2 ^ 19 else 0) + (base + o.off))

/-- Whether a facet can be named by a command, else the job ends with FACET_FAULT (R54); looked at once. -/
def facetOk (x : Cx) (fi : Nat) (stale : Bool) : Act Unit := onceDo x do
  let s ← get
  let st := ((s.core x.c).facet fi).state
  if st = .faulty ∨ (st = .stale ∧ !stale) then endWith x .facetFault else pure ()

/-- What an FLOAD does before it writes a row: the format, the marks cleared (R53), and no load record, since the rows are
no longer those that the record covers (R46; of an FLOAD that ends part-way log entry 131 speaks). -/
def Facet.opened (g : Facet) (fmt : BitVec 4) : Facet :=
  { g with fmt := fmt, marks := [], expMarks := [], refills := [], record := none }

/-- What an FLOAD does at its end: its load record, if it retains one, and LOADED unless FAULTY (R45 to R47). -/
def Facet.loaded (g : Facet) (r : Option LoadRec) : Facet :=
  { g with record := r, state := if g.state = .faulty then .faulty else .loaded }

/-- FLOAD of FP4 E2M1 (R42, R43): the scales, the exponent store, the rows, the rest zeroed. -/
def floadFp4 (f : FloadArgs) (o : Opnd) (x : Cx) : Act Unit := do
  let fi := f.facet.toNat
  let n := f.rowCount.toNat
  let so ← x.need false f.scale
  let blk := floadBlk f
  let scales ← readScales x so (ceilDiv n blk) (List.range 25)
  let cols := scales.map fun sc => (fp4Column blk n sc, sc)
  note x fun s => s.modFacet x.c fi fun g =>
    (List.range 25).foldl (fun g j =>
      let c := cols.getD j ((0, []), [])
      g.putExp j c.1.1 (c.1.2.map fun e => e - c.1.1) s.deviceTime) (g.opened f.fmt)
  loadRows x f.stag.toNat fi o f.pitch.toNat (fp4Row blk (cols.map fun c => (c.2, c.1.2))) 0 (List.range n)
  note x fun s => s.zeroRows x.c fi n 1024
  note x fun s => s.count (Reg.FCT_FP4_ADJ x.c) ((cols.map fun c => fp4Adjusted blk n c.2 c.1.2).sum)

/-- FLOAD of the other formats (R41): rows below the first are zeroed where the format differs (zero), those above the last
also with zero_rest. -/
def floadRows (f : FloadArgs) (o : Opnd) (differs : Bool) (x : Cx) : Act Unit := do
  let fi := f.facet.toNat
  let n := f.rowCount.toNat
  let first := f.rowFirst.toNat
  note x fun s => s.modFacet x.c fi fun g => g.opened f.fmt
  if differs then note x fun s => s.zeroRows x.c fi 0 first
  loadRows x f.stag.toNat fi o f.pitch.toNat (fun _ v => BitVec.ofNat 128 v) first (List.range n)
  if differs ∨ f.zeroRest then note x fun s => s.zeroRows x.c fi (first + n) 1024
  act fun s => s.modCore x.c fun k =>
    { k with lastCycles := 8 + n + ceilDiv ((if differs then first else 0)
               + (if differs ∨ f.zeroRest then 1024 - (first + n) else 0)) 64 }

/-- FLOAD (R41 to R47). Without retain its source may lie in any space (DESIGN CHOICE, log entry 103: R44 names core, shared
and stacked memory and states no refusal of another). -/
def floadBody (f : FloadArgs) (x : Cx) : Act Unit := do
  let fi := f.facet.toNat
  facetOk x fi true
  let o ← x.need false f.src
  let d ← seeNat x fun s => (decide (((s.core x.c).facet fi).fmt ≠ f.fmt)).toNat
  let differs := decide (d = 1)
  if f.fmt = 8 then floadFp4 f o x else floadRows f o differs x
  let scaleRec := (x.opnd false f.scale).elim 0 x.recorded
  let rec_ : Option LoadRec :=
    if f.retain then
      some { src := x.recorded o, pitch := f.pitch.toNat, fmt := f.fmt.toNat, rowFirst := f.rowFirst.toNat
             rowCount := f.rowCount.toNat, scale := if f.fmt = 8 then scaleRec else 0
             blk := if f.fmt = 8 then floadBlk f else 0, zeroFrom := f.rowFirst.toNat + f.rowCount.toNat
             zeroed := decide (f.fmt = 8) || f.zeroRest || differs, lowZero := decide (f.fmt ≠ 8) && differs }
    else none
  act fun s => s.modFacet x.c fi (·.loaded rec_)

/-! ### FIRE and FIRET -/

/-- Elements of a vector of the command: k_rows, or n_cols of FIRET. -/
def fireElems (firet : Bool) (f : FireArgs) : Nat := if firet then f.nColsM1.toNat + 1 else f.kRows.toNat

/-- The memory operands of FIRE and FIRET: the vectors in own core memory (R21). -/
def fireOpers (firet : Bool) (f : FireArgs) : List Oper :=
  [{ write := false, addr := BitVec.ofNat 64 (64 * f.vec.toNat), mode := f.vtag.toNat
     runs := (List.range f.m.toNat).map fun v =>
       (64 * f.vpitch.toNat * v, ceilDiv (planes f.afmt.toNat * fireElems firet f) 8) }]

/-- Tile rows per vector in a mode (R62). -/
def rowsPerVector (firet : Bool) (mode l k : Nat) : Nat :=
  if mode = 0 then (if firet then ceilDiv k 64 else 1) else ceilDiv (if firet then k else l) 32

/-- The format that facet f will have for a command that issues now: that of the last earlier incomplete FLOAD of it, else
its own (R39, R86). -/
def Core.fmtOf (k : Core) (seq f : Nat) : Nat :=
  let loads := (k.earlier seq).filterMap fun e => match e.cmd with
    | .fload _ _ g => if !e.done && decide (g.facet.toNat = f) then some g.fmt.toNat else none
    | _ => none
  loads.getLast?.getD (k.facet f).fmt.toNat

/-- The tile rows that a FIRE or FIRET names (R62), with the first row's mode deciding the placement. -/
def fireRows (s : State) (x : Cx) (firet : Bool) (f : FireArgs) : List Nat :=
  let k := s.core x.c
  let mode := k.modeOf x.replay x.site.seq f.acmRow.toNat
  let nf := rowsPerVector firet mode (facetL (k.fmtOf x.site.seq f.facet.toNat)) f.kRows.toNat
  (List.range (nf * f.m.toNat)).map (· + f.acmRow.toNat)

/-- The field s of PLX_CTRL, clamped (R156). -/
def plxShift (v : Word64) : Nat := clampNat 4 20 (bits v 1 5)

/-- The vector that the parallax draw samples, under the registers at the command's issue (R144). -/
def Cx.sampled (x : Cx) (m : Nat) : Option Nat :=
  let v := x.iss.plx
  let sh := plxShift v
  let r := srBits x.iss.plxSeed.toNat (x.site.job % 2 ^ 24) (x.c * 2 ^ 29 + x.site.seq * 2 ^ 13)
  if bits v 0 1 = 1 ∧ r % 2 ^ sh = 0 then some (r / 2 ^ sh % m) else none

/-- The vector of this command that a replay must check (R150). -/
def State.mustCheck (s : State) (x : Cx) : Option Nat :=
  (s.findJob x.site.job).bind fun j =>
    (j.forceCheck.find? fun e => decide (e.1 = x.c ∧ e.2.1 = x.site.seq)).map (·.2.2)

/-- What one FIRE or FIRET fixes for all its vectors. -/
structure FirePlan where
  firet : Bool
  f : FireArgs
  o : Opnd
  exp : Int
  occ : Bool

/-- Rows per vector when the first row's mode places the runs (R62). -/
def FirePlan.nf (p : FirePlan) (placed : Nat) (fc : Facet) : Nat :=
  rowsPerVector p.firet placed fc.cols p.f.kRows.toNat

/-- Starts the check of a vector that has left the drain (R145, R146): what was captured, and its reference. -/
def startCheck (x : Cx) (p : FirePlan) (v : Nat) (elems runs : List Int) (rows : List Nat) (refs : List Nat) (forced : Bool)
    (s : State) : State :=
  s.modCore x.c fun k =>
    { k with check := some {
        job := x.site.job, seq := x.site.seq, firet := p.firet, facet := p.f.facet.toNat, vector := v
        valid := decide (v < p.f.mValid.toNat ∧ p.f.refFmt ≠ 0), kRows := p.f.kRows.toNat
        nOut := if p.firet then p.f.nColsM1.toNat + 1 else (k.facet p.f.facet.toNat).cols
        afmt := p.f.afmt.toNat, elems := elems, runs := runs, exp := p.exp
        zpRef := p.f.zpRef.toNat, refFmt := p.f.refFmt.toNat, refs := refs, rows := rows, plx := x.iss.plx, forced := forced
        urgent := forced } }

/-- The reference of a vector, read when the vector is checked (R143): none names one, or one beyond the valid vectors has
none. -/
def readRef (x : Cx) (p : FirePlan) (v : Nat) : Act (List Nat) :=
  if v < p.f.mValid.toNat ∧ p.f.refFmt ≠ 0 then do
    let ro ← x.need false p.f.ref
    readElems x 2 ro (8 * p.f.refPitch.toNat * v) (fmtWidth p.f.refFmt.toNat) (fireElems p.firet p.f)
  else pure []

/-- What becomes of vector v as it leaves the drain (R145, R150): a vector that the replay must check waits for a pending
check and is checked; a sampled one is checked, or skipped and counted while a check is pending. -/
def drainCheck (x : Cx) (p : FirePlan) (v : Nat) (elems runs : List Int) (rows : List Nat) : Act Unit := do
  let forced ← seeNat x fun s => (decide (s.mustCheck x = some v)).toNat
  if forced = 1 then
    let s ← get
    if (s.core x.c).check.isSome then throw .hold
    let refs ← readRef x p v
    note x (startCheck x p v elems runs rows refs true)
  else if x.sampled p.f.m.toNat = some v then
    let busy ← seeNat x fun s => (s.core x.c).check.isSome.toNat
    if busy = 1 then note x fun s => s.count Reg.PLX_SKIPPED 1
    else
      let refs ← readRef x p v
      note x (startCheck x p v elems runs rows refs false)

/-- A vector enters the firing slot only while its facet is not FAULTY (R55). -/
def enterSlot (x : Cx) (fi : Nat) : Act Unit := onceDo x do
  let s ← get
  if ((s.core x.c).facet fi).state = .faulty then endWith x .facetFault else pure ()

/-- Fires the vectors in order (R30): read, runs, delivery, counters, and the check of a captured vector. The first row's
mode, looked at as vector 0 is delivered, places the runs of all. -/
def fireVectors (x : Cx) (p : FirePlan) (prev : Option (List Bool)) (mode : Option Nat) : List Nat → Act Unit
  | [] => pure ()
  | v :: l => do
    let n := fireElems p.firet p.f
    let w := planes p.f.afmt.toNat
    let es ← readElems x p.f.vtag.toNat p.o (8 * (64 * p.f.vpitch.toNat * v)) w n
    enterSlot x p.f.facet.toNat
    let s ← get
    let fc := (s.core x.c).facet p.f.facet.toNat
    let a := es.map (decodeInt p.f.afmt.toNat)
    let runs := if p.firet then fc.outputs a p.f.kRows.toNat n else fc.runs a p.f.kRows.toNat
    note x fun s => s.countFire x.c (if p.firet then firetCount w p.f.kRows.toNat es else fireCount w prev es)
    let placed ← match mode with
      | some m => pure m
      | none => do
        let row ← peekRow x p.f.acmRow.toNat
        pure (wordMode row.word)
    let rows := (List.range (p.nf placed fc)).map (· + (p.f.acmRow.toNat + p.nf placed fc * v))
    deliverParts x placed (p.f.acmRow.toNat + p.nf placed fc * v) (if placed = 0 then 64 else 32) (decide (fc.fmt = 8))
      (runs.zipIdx.map fun y => (y.1, .of ⟨y.1, p.exp + fc.colShift y.2⟩)) (List.range (p.nf placed fc))
    rowsDone x rows
    drainCheck x p v a runs rows
    fireVectors x p (if p.occ && !p.firet then some (activeGroups w es) else none) (some placed) l

/-- The exponent that FIRE, FIRET or SPT names: an immediate, or a slot (R110). -/
def expSource (x : Cx) (sel : Bool) (exp : BitVec 10) (afmt : Nat) : Act Int :=
  if sel then passExponent x ⟨exp.toNat, (anchorBits afmt).getD 0, none, false⟩ else pure exp.toInt

/-- FIRE and FIRET (R20 to R38, R54, R62, R143 to R145). -/
def fireBody (firet : Bool) (f : FireArgs) (x : Cx) : Act Unit := do
  facetOk x f.facet.toNat false
  let e ← expSource x f.expSel f.exp f.afmt.toNat
  let occ ← seeNat x fun s => bits (s.reg (Reg.FCT_CTRL x.c)) 0 1
  note x fun s => s.modCore x.c fun k => { k with lastCycles := 15 }
  fireVectors x { firet := firet, f := f, o := { space := 0, win := 0, off := 64 * f.vec.toNat }, exp := e
                  occ := decide (occ = 1) } none none (List.range f.m.toNat)

end Sys2Proof.Machine
end

