-- ==== Sys2Proof/Machine/Move.lean ====
section
/-!
DEFINITION. The work of MOVE: PLAIN and TRANSPOSE (R243, R244), TILE with its pads (R194 to R196), block-scaled
destinations (R196), and the compressed tiles of COMPRESS and EXPAND (R180 to R183, R245).
-/

namespace Sys2Proof.Machine

/-! ### Compressed tiles -/

/-- The header of a compressed tile (R180). -/
structure TileHeader where
  fmt : Nat
  dense : Bool
  kRows : Nat
  nCols : Nat
  nnz : Nat
  length : Nat
deriving DecidableEq, Repr

/-- Length that R181 gives for the fields of a header. -/
def TileHeader.wanted (h : TileHeader) : Nat :=
  if h.dense then 16 + 16 * h.kRows
  else 16 + 2 * (h.nCols + 1) + 2 * h.nnz + ceilDiv (h.nnz * facetQ h.fmt) 8

/-- The header that 16 bytes hold; none where the version, the format, a reserved bit, n_cols or the length fails its
check (R183). -/
def readHeader (bs : List Byte) : Option TileHeader :=
  let v := ofBytes (bs.take 16)
  let f (lo n : Nat) : Nat := (v >>> lo) % 2 ^ n
  let h : TileHeader := { fmt := f 8 4, dense := f 12 1 = 1, kRows := f 16 10 + 1, nCols := f 26 6 + 1, nnz := f 32 16
                          length := f 48 16 }
  if f 0 8 = 1 ∧ [0, 1, 2, 4].contains h.fmt ∧ f 13 3 = 0 ∧ f 64 64 = 0 ∧ h.nCols ≤ facetL h.fmt ∧ h.length = h.wanted
  then some h else none

/-- A tile as read: its header and all its bytes. -/
structure Tile where
  h : TileHeader
  bytes : List Byte

/-- The 16-bit entry at a byte of a tile. -/
def Tile.u16 (t : Tile) (i : Nat) : Nat := ofBytes ((t.bytes.drop i).take 2)

/-- The stored weights of column j: (row, value), in stored order (R181, R184). -/
def Tile.column (t : Tile) (j : Nat) : List (Nat × Int) :=
  if t.h.dense then
    (List.range t.h.kRows).map fun r =>
      (r, weightOf t.h.fmt (BitVec.ofNat 128 (ofBytes ((t.bytes.drop (16 + 16 * r)).take 16))) j)
  else
    let w := facetQ t.h.fmt
    let rowAt := 16 + 2 * (t.h.nCols + 1)
    let valAt := rowAt + 2 * t.h.nnz
    let lo := min (t.u16 (16 + 2 * j)) t.h.nnz
    let hi := min (t.u16 (16 + 2 * (j + 1))) t.h.nnz
    (List.range (hi - lo)).map fun i =>
      (t.u16 (rowAt + 2 * (lo + i)) % 1024, decodeInt t.h.fmt (streamElem w (t.bytes.drop valAt) (lo + i)))

/-- Whether n bytes of an operand lie within its bounds. -/
def inBounds (s : State) (x : Cx) (write : Bool) (o : Opnd) (n : Nat) : Bool := (firstFault s x write o 0 n).isNone

/-- Reads the header of a compressed tile and makes the checks of R183: that the header lies within the bounds, what it says
of itself, and that the whole tile lies within them. -/
def tileHeader (x : Cx) (mode : Nat) (o : Opnd) : Act (TileHeader × List Byte) := do
  let inside (n : Nat) : Act Bool := do
    let b ← seeNat x fun s => (inBounds s x false o n).toNat
    pure (decide (b = 1))
  if !(← inside 16) then endWith x .badTile
  else
    let hb ← readRun x mode o 0 16
    match readHeader hb with
    | none => endWith x .badTile
    | some h => if ← inside h.length then pure (h, hb) else endWith x .badTile

/-- Reads a compressed tile: its header with the checks of R183, whose length gives the extent of the operand, and the rest. -/
def readTile (x : Cx) (mode : Nat) (addr : Word64) (o : Opnd) : Act Tile := do
  let (h, hb) ← tileHeader x mode o
  extend x [{ write := false, addr := addr, mode := mode, runs := [(0, h.length)] }]
  let rest ← readRun x mode o 16 (h.length - 16)
  pure ⟨h, hb ++ rest⟩

/-- The bytes of the tile that MOVE writes for row images (R182). -/
def compressTile (fmt k n : Nat) (rows : List RowImage) : List Byte :=
  let w := facetQ fmt
  let cols := (List.range n).map fun j =>
    (rows.zipIdx.filter fun r => decide (weightOf fmt r.1 j ≠ 0)).map fun r => (r.2, encodeInt fmt (weightOf fmt r.1 j))
  let nnz := (cols.map List.length).sum
  let len := 16 + 2 * (n + 1) + 2 * nnz + ceilDiv (nnz * w) 8
  let header (dense : Bool) (nz l : Nat) : List Byte :=
    toBytes 16 (1 + place fmt 8 4 + dense.toNat * 2 ^ 12 + place (k - 1) 16 10 + place (n - 1) 26 6 + place nz 32 16
      + place l 48 16)
  if 16 + 16 * k < len then header true 0 (16 + 16 * k) ++ rows.flatMap fun r => toBytes 16 r.toNat
  else
    let ptr := (List.range (n + 1)).map fun j => ((cols.take j).map List.length).sum
    let all := cols.flatten
    header false nnz len ++ ptr.flatMap (toBytes 2) ++ all.flatMap (fun e => toBytes 2 e.1)
      ++ packStream w (all.map (·.2))

/-- The row image of row r of an expanded tile: the stored weights of that row; of a weight stored twice the later. -/
def expandRow (t : Tile) (cols : List (List (Nat × Int))) (r : Nat) : Nat :=
  (cols.zipIdx.foldl (fun a c =>
    let q := facetQ t.h.fmt
    let v := ((c.1.filter fun e => decide (e.1 = r)).getLast?.map (·.2)).getD 0
    a + encodeInt t.h.fmt v * 2 ^ (q * c.2)) 0)

/-! ### Shapes -/

/-- Bits of an element of a MOVE. -/
def moveW (f : MoveArgs) : Nat := 2 * 2 ^ f.esize.toNat

/-- Dimensions of a MOVE. -/
def moveN0 (f : MoveArgs) : Nat := f.n0.toNat
def moveN1 (f : MoveArgs) : Nat := f.n1.toNat
def moveN2 (f : MoveArgs) : Nat := f.n2.toNat

/-- The bits of a pad element (R195). -/
def padCode (fmt pad zp : Nat) : Nat :=
  match floatFmt fmt with
  | some g => if pad = 2 then (if g.hasInf then g.infBits true else g.encodeFin g.maxFin true) else 0
  | none =>
    let r := intRange fmt
    match pad with
    | 1 => encodeInt fmt (max r.1 (min r.2 (zp : Int)))
    | 2 => encodeInt fmt r.1
    | _ => 0

/-- Mode codes of MOVE (R302). -/
inductive MoveMode where
  | plain | tile | transpose | compress | expand
deriving DecidableEq, Repr

/-- Byte offset of source line i1 of outer line i2. -/
def srcLine (f : MoveArgs) (i2 i1 : Nat) : Nat := f.srcS1.toNat * i1 + f.srcS2.toNat * i2

/-- Byte offset of destination line i1 of outer line i2. -/
def dstLine (f : MoveArgs) (i2 i1 : Nat) : Nat := f.dstS1.toNat * i1 + f.dstS2.toNat * i2

/-- Lines and elements of a line of one outer line of the source that are read. -/
def srcShape (m : MoveMode) (f : MoveArgs) : Nat × Nat :=
  if m = .tile then (min f.vL.toNat (moveN1 f), min f.vE.toNat (moveN0 f)) else (moveN1 f, moveN0 f)

/-- Lines and elements of a line of one outer line of the destination, before blocks round them up. -/
def dstShape (m : MoveMode) (f : MoveArgs) : Nat × Nat :=
  if m = .transpose then (moveN0 f, moveN1 f) else (moveN1 f, moveN0 f)

/-- x rounded up to a multiple of b. -/
def roundUp (b x : Nat) : Nat := b * ceilDiv x b

/-- The region written of one outer line (R196). -/
def dstRegion (m : MoveMode) (f : MoveArgs) : Nat × Nat :=
  let d := dstShape m f
  let b := blockSize f.bs.toNat
  if b = 0 then d else if f.axis then (roundUp b d.1, d.2) else (d.1, roundUp b d.2)

/-- Width of a destination element. -/
def moveDstW (f : MoveArgs) : Nat := if f.bs = 0 then moveW f else fmtWidth f.fmt.toNat

/-- Whether a MOVE has nothing to move (R243). -/
def moveEmpty (f : MoveArgs) : Bool := decide (moveN0 f = 0 ∨ moveN1 f = 0 ∨ moveN2 f = 0)

/-- The memory operands of a PLAIN, TILE or TRANSPOSE. -/
def moveOpers (m : MoveMode) (f : MoveArgs) : List Oper :=
  if moveEmpty f then []
  else
    let ss := srcShape m f
    let ds := dstRegion m f
    let b := blockSize f.bs.toNat
    let outer (l : Nat → List (Nat × Nat)) : List (Nat × Nat) := (List.range (moveN2 f)).flatMap l
    [{ write := false, addr := f.src, mode := f.stag.toNat
       runs := outer fun i2 => (List.range ss.1).map fun i1 => (srcLine f i2 i1, ceilDiv (moveW f * ss.2) 8) },
     { write := true, addr := f.dst, mode := f.dtag.toNat
       runs := outer fun i2 => (List.range ds.1).map fun i1 => (dstLine f i2 i1, ceilDiv (moveDstW f * ds.2) 8) }]
      ++ (if b = 0 then [] else
        [{ write := true, addr := f.scale, mode := f.dtag.toNat
           runs := scaleRuns f.axis b (ds.1 * moveN2 f) (ds.2 * (if f.axis then moveN2 f else 1)) f.scalePitch.toNat }])

/-! ### Lines -/

/-- The first n elements of source line i1 of outer line i2. -/
def readLine (x : Cx) (f : MoveArgs) (o : Opnd) (i2 i1 n : Nat) : Act (List Nat) :=
  readElems x f.stag.toNat o (8 * srcLine f i2 i1) (moveW f) n

/-- Reads lines of one outer line in order. -/
def readPlane (x : Cx) (f : MoveArgs) (so : Opnd) (i2 n : Nat) : List Nat → Act (List (List Nat))
  | [] => pure []
  | i1 :: l => do
    let es ← readLine x f so i2 i1 n
    let r ← readPlane x f so i2 n l
    pure (es :: r)

/-- A matrix of lines transposed: n columns become lines. -/
def transposeLines (n : Nat) (ls : List (List Nat)) : List (List Nat) :=
  (List.range n).map fun j => ls.map fun l => l.getD j 0

/-- The valid elements of destination line i1 of outer line i2 (R194): of a transpose from the plane that has been read, else
read now. -/
def moveLine (x : Cx) (m : MoveMode) (f : MoveArgs) (so : Opnd) (plane : List (List Nat)) (i2 i1 : Nat) : Act (List Nat) :=
  let ss := srcShape m f
  if m = .transpose then pure (plane.getD i1 [])
  else if i1 < ss.1 then readLine x f so i2 i1 ss.2
  else pure []

/-- Copies lines in ascending order (R243): each is read, then written, with pads beyond its valid elements (R194). -/
def copyLines (x : Cx) (m : MoveMode) (f : MoveArgs) (so to_ : Opnd) (plane : List (List Nat)) (i2 : Nat) :
    List Nat → Act Unit
  | [] => pure ()
  | i1 :: l => do
    let es ← moveLine x m f so plane i2 i1
    let pads := List.replicate ((dstShape m f).2 - es.length) (padCode f.fmt.toNat f.pad.toNat f.zp.toNat)
    writeElems x f.dtag.toNat to_ (8 * dstLine f i2 i1) (moveW f) (es ++ pads)
    copyLines x m f so to_ plane i2 l

/-! ### Block-scaled destinations

Each line, or each group of lines that a block spans, is read and written before the next; its elements before its scales
(DESIGN CHOICE, log entry 134). The scale rows of outer line i2 follow those before it (DEDUCED, log entry 23). -/

/-- A block of valid source elements, zero elements beyond them (R105, R196). -/
def moveBlock (f : MoveArgs) (es : List Nat) : Block :=
  padBlock f.fmt.toNat (blockSize f.bs.toNat) f.bsMode (es.map (decodeVal f.sfmt.toNat))

/-- The blocks of one line: n of them, those beyond its valid elements zero (R196). -/
def lineBlocks (f : MoveArgs) (n : Nat) (es : List Nat) : List Block :=
  let bs := (chunks (blockSize f.bs.toNat) es).map (moveBlock f)
  bs ++ List.replicate (n - bs.length) (moveBlock f [])

/-- Writes lines block-scaled along the lines (R104, R105, R196). -/
def scaledAlong (x : Cx) (m : MoveMode) (f : MoveArgs) (so to_ sc : Opnd) (plane : List (List Nat)) (i2 : Nat) :
    List Nat → Act Unit
  | [] => pure ()
  | i1 :: l => do
    let es ← moveLine x m f so plane i2 i1
    let d := dstShape m f
    let bs := lineBlocks f (ceilDiv d.2 (blockSize f.bs.toNat)) es
    writeElems x f.dtag.toNat to_ (8 * dstLine f i2 i1) (fmtWidth f.fmt.toNat) (bs.flatMap (·.elems))
    writeElems x f.dtag.toNat sc (8 * (f.scalePitch.toNat * (d.1 * i2 + i1))) 8 (bs.map (·.scale))
    note x fun s => s.countBlocks bs
    scaledAlong x m f so to_ sc plane i2 l

/-- The valid elements of lines, one after another. -/
def moveLines (x : Cx) (m : MoveMode) (f : MoveArgs) (so : Opnd) (plane : List (List Nat)) (i2 : Nat) :
    List Nat → Act (List (List Nat))
  | [] => pure []
  | i1 :: l => do
    let es ← moveLine x m f so plane i2 i1
    let r ← moveLines x m f so plane i2 l
    pure (es :: r)

/-- Writes lines of elements of one outer line in order, from line i1 on. -/
def writePlane (x : Cx) (f : MoveArgs) (to_ : Opnd) (i2 w : Nat) : Nat → List (List Nat) → Act Unit
  | _, [] => pure ()
  | i1, es :: l => do
    writeElems x f.dtag.toNat to_ (8 * dstLine f i2 i1) w es
    writePlane x f to_ i2 w (i1 + 1) l

/-- Writes the groups of lines t, t + 1, … block-scaled across the lines (R104, R105, R196). -/
def scaledAcross (x : Cx) (m : MoveMode) (f : MoveArgs) (so to_ sc : Opnd) (plane : List (List Nat)) (i2 : Nat) :
    List Nat → Act Unit
  | [] => pure ()
  | t :: l => do
    let b := blockSize f.bs.toNat
    let d := dstShape m f
    let ls ← moveLines x m f so plane i2 ((List.range (min b (d.1 - b * t))).map (· + b * t))
    let bs := (List.range d.2).map fun j => moveBlock f (ls.filterMap fun l => l[j]?)
    writePlane x f to_ i2 (fmtWidth f.fmt.toNat) (b * t) ((List.range b).map fun i => bs.map fun k => k.elems.getD i 0)
    writeColScales x f.dtag.toNat sc f.scalePitch.toNat t (d.2 * i2) (bs.map (·.scale))
    note x fun s => s.countBlocks bs
    scaledAcross x m f so to_ sc plane i2 l

/-- The outer lines of a MOVE in order. A transpose reads its plane first (R244). -/
def moveOuter (x : Cx) (m : MoveMode) (f : MoveArgs) (so to_ sc : Opnd) : List Nat → Act Unit
  | [] => pure ()
  | i2 :: l => do
    let ss := srcShape m f
    let d := dstShape m f
    let ls ← if m = .transpose then readPlane x f so i2 ss.2 (List.range ss.1) else pure []
    let plane := transposeLines ss.2 ls
    if f.bs = 0 then copyLines x m f so to_ plane i2 (List.range d.1)
    else if f.axis then scaledAcross x m f so to_ sc plane i2 (List.range (ceilDiv d.1 (blockSize f.bs.toNat)))
    else scaledAlong x m f so to_ sc plane i2 (List.range d.1)
    moveOuter x m f so to_ sc l

/-- MOVE in modes PLAIN, TILE and TRANSPOSE. -/
def moveBody (m : MoveMode) (f : MoveArgs) (x : Cx) : Act Unit := do
  if moveEmpty f then act fun s => s.modCore x.c fun k => { k with lastCycles := 4 }
  else
    let so ← x.need false f.src
    let to_ ← x.need true f.dst
    let sc ← if f.bs = 0 then pure to_ else x.need true f.scale
    moveOuter x m f so to_ sc (List.range (moveN2 f))

/-! ### COMPRESS and EXPAND -/

/-- The header that stands at a tile's address, as far as the device holds it, for the sequencer's ranges. -/
def tileHeaderAt (s : State) (x : Cx) (addr : Word64) : Option TileHeader := (s.peek x addr 0 16).bind readHeader

/-- The bytes of a tile operand, as the sequencer sees them. -/
def tileBytes (s : State) (x : Cx) (addr : Word64) : Nat := (tileHeaderAt s x addr).elim 16 (·.length)

/-- The memory operands of COMPRESS. -/
def compressOpers (f : MoveArgs) : List Oper :=
  [{ write := false, addr := f.src, mode := f.stag.toNat, runs := [(0, 16 * moveN1 f)] },
   { write := true, addr := f.dst, mode := f.dtag.toNat, runs := [(0, 16 + 16 * moveN1 f)] }]

/-- The memory operands of EXPAND, as they are known when it issues. -/
def expandOpers (s : State) (x : Cx) (f : MoveArgs) : List Oper :=
  [{ write := false, addr := f.src, mode := f.stag.toNat, runs := [(0, tileBytes s x f.src)] },
   { write := true, addr := f.dst, mode := f.dtag.toNat, runs := [(0, 16 * moveN1 f)] }]

/-- MOVE in mode COMPRESS (R182, R245). -/
def compressBody (f : MoveArgs) (x : Cx) : Act Unit := do
  let so ← x.need false f.src
  let to_ ← x.need true f.dst
  let bs ← readRun x f.stag.toNat so 0 (16 * moveN1 f)
  let rows := (chunks 16 bs).map fun b => BitVec.ofNat 128 (ofBytes b)
  let out := compressTile f.fmt.toNat (moveN1 f) (moveN0 f) rows
  writeRun x f.dtag.toNat to_ 0 out
  act fun s => s.modCore x.c fun k => { k with lastCycles := moveN1 f + ceilDiv out.length 64 }

/-- Writes expanded rows in order. -/
def expandRows (x : Cx) (f : MoveArgs) (to_ : Opnd) (t : Tile) (cols : List (List (Nat × Int))) : List Nat → Act Unit
  | [] => pure ()
  | r :: l => do
    writeRun x f.dtag.toNat to_ (16 * r) (toBytes 16 (expandRow t cols r))
    expandRows x f to_ t cols l

/-- MOVE in mode EXPAND (R183, R187, R245): the n1 row images of the command's extent. -/
def expandBody (f : MoveArgs) (x : Cx) : Act Unit := do
  let so ← x.need false f.src
  let to_ ← x.need true f.dst
  let t ← readTile x f.stag.toNat f.src so
  expandRows x f to_ t ((List.range t.h.nCols).map t.column) (List.range (moveN1 f))

end Sys2Proof.Machine
end

