-- ==== Sys2Proof/Machine/Gather.lean ====
section
/-!
DEFINITION. The sparse engine: table descriptors and rows (R160 to R163, R171), GATHER in mode EMB (R164 to R170), UPDATE
(R174 to R178), and GATHER in mode SPT (R183 to R187).
-/

namespace Sys2Proof.Machine

/-! ### Tables -/

/-- A table descriptor (R161). -/
structure Table where
  base : Nat
  fmt : Nat
  rows : Nat
  width : Nat
  pitch : Nat
  hotRows : Nat
  hotBase : Nat
deriving DecidableEq, Repr

/-- Whether a table format is row-wise quantised (R160). -/
def quantised (fmt : Nat) : Bool := isIntFmt fmt

/-- Bytes of the elements of a row. -/
def Table.elemBytes (t : Table) : Nat := ceilDiv (t.width * fmtWidth t.fmt) 8

/-- Row bytes (R160). -/
def Table.rowBytes (t : Table) : Nat := t.elemBytes + (if quantised t.fmt then 4 else 0)

/-- The table that 32 bytes describe, or the lowest structure bit of a failing check (R161, R162). -/
def readTable (bs : List Byte) : Except Nat Table :=
  let v := ofBytes (bs.take 32)
  let f (lo n : Nat) : Nat := (v >>> lo) % 2 ^ n
  let t : Table := { base := f 0 48, fmt := f 48 4, rows := f 64 40, width := f 104 10 + 1, pitch := f 128 20
                     hotRows := f 160 32, hotBase := f 192 28 }
  let bad : List Nat :=
    (if t.base % 64 ≠ 0 then [0] else [])
      ++ (if [2, 3, 4, 5, 0xB, 0xC, 0xD, 0xE, 0xF].contains t.fmt then [] else [48])
      ++ (if f 52 12 ≠ 0 then [52] else [])
      ++ (if t.rows = 0 ∨ 2 ^ 40 ≤ t.rows * t.width then [64] else [])
      ++ (if f 114 14 ≠ 0 then [114] else [])
      ++ (if t.pitch % 4 ≠ 0 ∨ t.pitch < t.rowBytes then [128] else [])
      ++ (if f 148 12 ≠ 0 then [148] else [])
      ++ (if t.hotRows ≠ 0 ∧ 0x0F000000 < t.hotBase + (t.hotRows - 1) * t.pitch + t.rowBytes then [160] else [])
      ++ (if t.hotBase % 64 ≠ 0 then [192] else [])
      ++ (if f 220 36 ≠ 0 then [220] else [])
  match bad.head? with
  | some b => .error b
  | none => .ok t

/-- Whether 32 bytes describe a table of 2^40 values or more (R124). -/
def tooLarge (bs : List Byte) : Bool :=
  let v := ofBytes (bs.take 32)
  decide (2 ^ 40 ≤ (v >>> 64) % 2 ^ 40 * ((v >>> 104) % 2 ^ 10 + 1))

/-- Reads and checks the descriptor of a command (R162). An UPDATE on a table of 2^40 values or more is refused (R124), here
where the sequencer did not yet hold the descriptor (log entry 140). -/
def needTable (x : Cx) (addr : Word64) (update : Bool) : Act Table := do
  let o ← x.need false addr
  let bs ← readRun x 2 o 0 32
  refuseIf x 0x0B (update && tooLarge bs)
  match readTable bs with
  | .ok t => pure t
  | .error b => resourceFault x 7 b 0 false .resource

/-- Whether row i lies in the hot copy (R171). -/
def Table.hot (t : Table) (i : Nat) : Bool := decide (i < t.hotRows)

/-- Row i as an operand: an offset of the task entry of its space (R220; DEDUCED, log entry 24). -/
def Table.row (t : Table) (i : Nat) : Opnd :=
  if t.hot i then { space := 2, win := 0, off := t.hotBase + i * t.pitch }
  else { space := 3, win := 0, off := t.base + i * t.pitch }

/-- The scale of a row's bytes; 1 for a float table. -/
def Table.scale (t : Table) (bs : List Byte) : Val :=
  if quantised t.fmt then f32 (BitVec.ofNat 32 (ofBytes ((bs.drop t.elemBytes).take 4))) else .of (.ofInt 1)

/-- The exact value of element bits under a row scale (R160). -/
def Table.value (t : Table) (scale : Val) (e : Nat) : Val :=
  if quantised t.fmt then (decodeVal t.fmt e).mul scale else decodeVal t.fmt e

/-- The element bits of a row. -/
def Table.elems (t : Table) (bs : List Byte) : List Nat :=
  let v := ofBytes (bs.take t.elemBytes)
  (List.range t.width).map fun i => v >>> (fmtWidth t.fmt * i) % 2 ^ fmtWidth t.fmt

/-- The values of a row. -/
def Table.values (t : Table) (bs : List Byte) : List Val := (t.elems bs).map (t.value (t.scale bs))

/-- The engine that serves a core (R157). -/
def Cx.engine (x : Cx) : Nat := x.c / 64

/-- The banks of a table's hot range, relocated as its rows are (R171, R238). -/
def Table.hotBanks (t : Table) (x : Cx) : List Nat :=
  if t.hotRows = 0 then []
  else (banksOf (x.iss.task.shBase + t.hotBase) ((t.hotRows - 1) * t.pitch + t.rowBytes)).filter fun b => decide (b < 64)

/-- The sparse engine takes a command: it books the banks of the hot range (R238). -/
def takeTable (x : Cx) (t : Table) : Act Unit := do
  note x (x.mod fun r => { r with hot := t.hotBanks x })
  onceDo x (bookBanks x (t.hotBanks x))

/-- One row read by the engine is counted (R171, R188). -/
def State.countRow (s : State) (x : Cx) (hot : Bool) : State :=
  (s.count (Reg.SPE_ROWS x.engine) 1).count (Reg.SPE_HOT x.engine) hot.toNat

/-- The bytes of row i, read and counted. -/
def readTableRow (x : Cx) (t : Table) (i : Nat) : Act (List Byte) := do
  let bs ← readRun x 2 (t.row i) 0 t.rowBytes
  note x fun s => s.countRow x (t.hot i)
  pure bs

/-- Position p is out of range: counted, and the first one of a command reported where the register asks for it (R166). -/
def State.outOfRange (s : State) (x : Cx) (p : Nat) (first : Bool) : State :=
  let s := s.count (Reg.SPE_OOR x.engine) 1
  if first ∧ s.fld Reg.GLB_SPE_CTRL 0 1 = 1 then
    s.postEvent { source := 0x05, detail := x.engine, job := x.site.job, core := x.c, ring := x.site.ring
                  info0 := x.site.seq, info1 := p }
  else s

/-! ### GATHER EMB -/

/-- Positions of a GATHER. -/
def embN (f : GatherEmbArgs) : Nat := f.nIdxM1.toNat + 1

/-- Bags of a GATHER. -/
def embBags (f : GatherEmbArgs) : Nat := f.nBagsM1.toNat + 1

/-- Bytes of an index. -/
def idxBytes (w64 : Bool) : Nat := if w64 then 8 else 4

/-- Format of a weight or delta code: FP32, BF16, FP16. -/
def wideFmt (c : Nat) : Nat :=
  match c with
  | 0 => 0xF
  | 1 => 0xD
  | _ => 0xE

/-- The width of a table as its descriptor gives it, for the sequencer's ranges; the largest where the device does not
hold the descriptor yet. -/
def tableWidthAt (s : State) (x : Cx) (addr : Word64) : Nat :=
  (s.peek x addr 13 2).elim 1024 fun bs => ofBytes bs % 1024 + 1

/-- The memory operands of a GATHER in mode EMB; its core-memory operands carry no tag mode and are read FREE and written
KEEP (DEDUCED, log entry 25). -/
def embOpersOf (w : Nat) (f : GatherEmbArgs) : List Oper :=
  let rd (a : Word64) (n : Nat) : Oper := { write := false, addr := a, mode := 2, runs := [(0, n)] }
  [rd f.tdesc 32, rd f.idx (idxBytes f.ifmt64 * embN f)]
    ++ (if f.formOffsets then [rd f.offsets (4 * (embBags f + 1))] else [])
    ++ (if f.pool = 3 then [rd f.weights (fmtWidth (wideFmt f.wfmt.toNat) * embN f / 8)] else [])
    ++ [{ write := true, addr := f.out, mode := 2
          runs := (List.range (embBags f)).map fun b => (f.opitch.toNat * b, ceilDiv (w * fmtWidth f.ofmt.toNat) 8) }]

/-- The memory operands of a GATHER in mode EMB as they are known when it issues. -/
def embOpers (s : State) (x : Cx) (f : GatherEmbArgs) : List Oper := embOpersOf (tableWidthAt s x f.tdesc) f

/-- The index at position p (R165). -/
def readIndex (x : Cx) (o : Opnd) (w64 : Bool) (p : Nat) : Act Nat := do
  let bs ← readRun x 2 o (idxBytes w64 * p) (idxBytes w64)
  pure (if w64 then ofBytes bs % 2 ^ 40 else ofBytes bs)

/-- The pool of a bag so far. -/
structure PoolAcc where
  acc : List Pair
  mx : List Val
  n : Nat
  sat : Bool

/-- One row taken into a pool (R167): values already multiplied by the weight for WSUM. An overflow of a promotion, and in
every mode an operand that is infinite or NaN, is for the flag SAT (R168). -/
def PoolAcc.take (a : PoolAcc) (max_ : Bool) (xs : List Val) : PoolAcc :=
  if max_ then { a with mx := if a.n = 0 then xs else a.mx.zipWith maxV xs, n := a.n + 1
                        sat := a.sat || xs.any fun v => !v.isFin }
  else
    let rs := a.acc.zipWith (promote true) xs
    { a with acc := rs.map (·.1), n := a.n + 1, sat := a.sat || rs.any fun r => r.2.sat }

/-- The outputs of a pool, to be rounded once (R167): modes 0 SUM, 1 MEAN, 2 MAX, 3 WSUM. -/
def PoolAcc.outs (a : PoolAcc) (mode width : Nat) : List Val :=
  if a.n = 0 then List.replicate width (.of ⟨0, 0⟩)
  else if mode = 2 then a.mx
  else a.acc.map fun p =>
    match Val.sum [f32 p.total, f32 p.comp] with
    | .fin x nz =>
      if mode = 1 then
        let q := (cutDiv x.m.natAbs a.n (Nat.log2 a.n + 300)).scale x.e
        .fin (if x.isNeg then q.neg else q) nz
      else .fin x nz
    | v => v

/-- The operands of an EMB command. -/
structure EmbCx where
  f : GatherEmbArgs
  t : Table
  idx : Opnd
  weights : Opnd
  out : Opnd

/-- Pools the positions of one bag in ascending order (R167); missed: whether a position was out of range before. -/
def poolBag (x : Cx) (c : EmbCx) : PoolAcc → Bool → List Nat → Act (PoolAcc × Bool)
  | a, missed, [] => pure (a, missed)
  | a, missed, p :: l => do
    let i ← readIndex x c.idx c.f.ifmt64 p
    if c.t.rows ≤ i then
      note x fun s => s.outOfRange x p (!missed)
      poolBag x c a true l
    else
      let bs ← readTableRow x c.t i
      let xs := c.t.values bs
      let xs ← if c.f.pool = 3 then do
          let w := wideFmt c.f.wfmt.toNat
          let ws ← readElems x 2 c.weights (fmtWidth w * p) (fmtWidth w) 1
          pure (xs.map fun v => v.mul (decodeVal w (ws.getD 0 0)))
        else pure xs
      poolBag x c (a.take (decide (c.f.pool = 2)) xs) missed l

/-- The positions of bag b (R165). -/
def bagPositions (x : Cx) (c : EmbCx) (offsets : Option Opnd) (b : Nat) : Act (List Nat) := do
  let (lo, hi) ← match offsets with
    | some o => do
      let bs ← readRun x 2 o (4 * b) 8
      pure (ofBytes (bs.take 4), ofBytes (bs.drop 4))
    | none =>
      let l := c.f.lbM1.toNat + 1
      pure (b * l, (b + 1) * l)
  let lo := min lo (embN c.f)
  let hi := min hi (embN c.f)
  pure ((List.range (hi - lo)).map (· + lo))

/-- Pools and writes the bags in ascending order (R168, R169). After each the command's mark moves on: a pre-empted GATHER
goes on with its first bag that is not completely written (R336). -/
def poolBags (x : Cx) (c : EmbCx) (offsets : Option Opnd) : Bool → List Nat → Act Unit
  | _, [] => pure ()
  | missed, b :: l => do
    let ps ← bagPositions x c offsets b
    let a0 : PoolAcc := { acc := List.replicate c.t.width ⟨0, 0⟩, mx := [], n := 0, sat := false }
    let (a, missed) ← poolBag x c a0 missed ps
    let fo := c.f.ofmt.toNat
    let cs := (a.outs c.f.pool.toNat c.t.width).map (convertVal fo x.h.satFp)
    writeElems x 2 c.out (8 * (c.f.opitch.toNat * b)) (fmtWidth fo) (cs.map (·.code))
    note x fun s =>
      let s := if a.sat then s.flagJob x.site.job fun f => { f with sat := true } else s
      (s.countConv false cs).count (Reg.SPE_BAGS x.engine) 1
    act (x.mod fun r => { r with mark := r.cursor })
    poolBags x c offsets missed l

/-- The lane F-cycles that a GATHER stalled on full queues (R158): 0 while it names no more row reads than the 64 entries of
one lane's queue, which alone can fill; else the spec gives no latency of a read that would fix it, and the number is a free
value (DESIGN CHOICE, log entry 139). -/
def countFull (x : Cx) (positions : Nat) : Act Unit := do
  if 64 < positions then
    let b ← freeOnce x
    note x fun s => s.count (Reg.SPE_QFULL x.engine) (bits b 0 64)

/-- GATHER in mode EMB (R164 to R170). -/
def gatherEmbBody (f : GatherEmbArgs) (x : Cx) : Act Unit := do
  let t ← needTable x f.tdesc false
  takeTable x t
  extend x (embOpersOf t.width f)
  let idx ← x.need false f.idx
  let offsets ← if f.formOffsets then do
      let o ← x.need false f.offsets
      pure (some o)
    else pure none
  let weights ← if f.pool = 3 then x.need false f.weights else pure idx
  let out ← x.need true f.out
  poolBags x { f := f, t := t, idx := idx, weights := weights, out := out } offsets false (List.range (embBags f))
  countFull x (embN f)

/-! ### UPDATE -/

/-- Positions of an UPDATE. -/
def updateN (f : UpdateArgs) : Nat := f.countM1.toNat + 1

/-- The memory operands of UPDATE (log entry 25). -/
def updateOpersOf (w : Nat) (f : UpdateArgs) : List Oper :=
  let rd (a : Word64) (runs : List (Nat × Nat)) : Oper := { write := false, addr := a, mode := 2, runs := runs }
  [rd f.tdesc [(0, 32)]]
    ++ (if f.formRange then [] else [rd f.idx [(0, idxBytes f.ifmt64 * updateN f)]])
    ++ [rd f.delta ((List.range (updateN f)).map fun p =>
          (f.dpitch.toNat * p, ceilDiv (w * fmtWidth (wideFmt f.dfmt.toNat)) 8))]

/-- The memory operands of UPDATE as they are known when it issues. -/
def updateOpers (s : State) (x : Cx) (f : UpdateArgs) : List Oper := updateOpersOf (tableWidthAt s x f.tdesc) f

/-- The rows that the positions name, in order; positions out of range and positions merged into an earlier one are counted
as they are met (R166, R175). -/
def updateIndices (x : Cx) (f : UpdateArgs) (t : Table) (idx : Opnd) : List Nat → List Nat → Act (List Nat)
  | got, [] => pure got
  | got, p :: l => do
    let i ← if f.formRange then pure (bits f.idx 0 40 + p) else readIndex x idx f.ifmt64 p
    if t.rows ≤ i then note x fun s => s.outOfRange x p (!got.any fun j => decide (t.rows ≤ j))
    else if got.contains i then note x fun s => s.count (Reg.SPE_DUP x.engine) 1
    updateIndices x f t idx (got ++ [i]) l

/-- The delta rows of positions. -/
def readDeltas (x : Cx) (f : UpdateArgs) (o : Opnd) (width : Nat) : List Nat → Act (List (List Val))
  | [] => pure []
  | p :: l => do
    let w := wideFmt f.dfmt.toNat
    let es ← readElems x 2 o (8 * (f.dpitch.toNat * p)) (fmtWidth w) width
    let r ← readDeltas x f o width l
    pure (es.map (decodeVal w) :: r)

/-- v ÷ scale of a quantised table as an exact value with its rest in a last bit (R175). -/
def divScale (v scale : Val) : Val :=
  match v, scale with
  | .nan, _ => .nan
  | _, .nan => .nan
  | .inf _, .inf _ => .nan
  | .inf n, s => .inf (n != s.sign)
  | .fin _ _, .inf _ => .of ⟨0, 0⟩
  | .fin x nz, .fin y ny =>
    if y.isZero then (if x.isZero then .nan else .inf ((Val.fin x nz).sign != (Val.fin y ny).sign))
    else
      let d := (cutDiv x.m.natAbs y.m.natAbs (Nat.log2 y.m.natAbs + 64 + (y.e - x.e).toNat)).scale (x.e - y.e)
      .of (if x.isNeg != y.isNeg then d.neg else d)

/-- What one element becomes: its bits (none: the stored bits stay), the counts of a conversion, and whether it was drawn
(R125, R175). -/
structure NewElem where
  code : Option Nat
  conv : Conv
  drawn : Bool

/-- Rounding by R99 or R101 (R175). -/
def rneElem (t : Table) (sat : Bool) (scale v : Val) : NewElem :=
  let c := if quantised t.fmt then convertInt t.fmt (divScale v scale) else convertVal t.fmt sat v
  ⟨some c.code, c, false⟩

/-- Stochastic rounding onto the multiples of a row's scale (R125); none where every code, or no code, of the format stands
for the value (a scale of 0, or one that is not finite): the code is then a free value. -/
def srQuant (t : Table) (scale v : Val) (r : Nat) : Option NewElem :=
  let (lo, hi) := intRange t.fmt
  match v, scale with
  | .nan, _ => some ⟨none, ⟨0, 0, 1⟩, false⟩
  | _, .nan => none
  | _, .inf _ => none
  | v, .fin y _ =>
    if y.isZero then none
    else
      match v with
      | .fin x _ =>
        -- u = v ÷ scale, exactly a ÷ b
        let e := min x.e y.e
        let a := if y.isNeg then -(x.at_ e) else x.at_ e
        let b := (y.at_ e).natAbs
        let n := a / (b : Int)
        let rem := (a % (b : Int)).toNat
        -- with a negative scale the upper neighbour in value is the lower integer
        let frac := if y.isNeg then (b - rem) * 2 ^ 24 / b else rem * 2 ^ 24 / b
        let pick := if rem = 0 then n else if y.isNeg then (if r < frac then n else n + 1) else (if r < frac then n + 1 else n)
        if a < lo * (b : Int) then some ⟨some (encodeInt t.fmt lo), ⟨0, 1, 0⟩, false⟩
        else if hi * (b : Int) < a then some ⟨some (encodeInt t.fmt hi), ⟨0, 1, 0⟩, false⟩
        else some ⟨some (encodeInt t.fmt pick), ⟨0, 0, 0⟩, decide (rem ≠ 0)⟩
      | v => some ⟨some (encodeInt t.fmt (if v.sign != y.isNeg then lo else hi)), ⟨0, 1, 0⟩, false⟩

/-- Stochastic rounding onto the finite values of a float format (R125). A negative value that is rounded up to zero becomes
+0 (DESIGN CHOICE, log entry 141: the spec gives no sign). -/
def srFloat (g : FloatFmt) (v : Val) (r : Nat) : NewElem :=
  match v with
  | .nan => ⟨none, ⟨0, 0, 1⟩, false⟩
  | .inf n => ⟨some (g.encodeFin g.maxFin n), ⟨0, 1, 0⟩, false⟩
  | .fin x nz =>
    if x.isZero then ⟨some (g.encodeFin ⟨0, 0⟩ nz), ⟨0, 0, 0⟩, false⟩
    else if g.over x then ⟨some (g.encodeFin g.maxFin x.isNeg), ⟨0, 1, 0⟩, false⟩
    else
      let q := max x.log2 (1 - g.bias) - g.mb
      let n := (x.scale (-q)).floor
      let onGrid := ((x.scale (-q)).sub (.ofInt n)).isZero
      let k := srPick x q r
      ⟨some (g.encodeFin ⟨k, q⟩ (decide (k < 0))), ⟨0, 0, 0⟩, !onGrid⟩

/-- The new bits of element e of row r (R175); a stochastic rounding for which the row's scale gives no grid has a free
value. -/
def newElem (x : Cx) (f : UpdateArgs) (t : Table) (scale : Val) (row e : Nat) (v : Val) : Act NewElem := do
  if !f.rndSr then pure (rneElem t x.h.satFp scale v)
  else
    let r := srBits f.seed.toNat f.step.toNat (row * t.width + e)
    match floatFmt t.fmt with
    | some g => pure (srFloat g v r)
    | none =>
      match srQuant t scale v r with
      | some c => pure c
      | none =>
        -- on the grid of a zero scale, which holds 0 alone, every other value lies beyond it
        let past := match scale, v with
          | .fin _ _, .fin y _ => !y.isZero
          | .fin _ _, _ => true
          | _, _ => false
        let b ← freeOnce x
        pure ⟨some (bits b 0 (fmtWidth t.fmt)), ⟨0, past.toNat, 0⟩, false⟩

/-- The new elements of a row, in order. -/
def newElems (x : Cx) (f : UpdateArgs) (t : Table) (scale : Val) (row : Nat) : Nat → List Val → Act (List NewElem)
  | _, [] => pure []
  | e, v :: l => do
    let c ← newElem x f t scale row e v
    let r ← newElems x f t scale row (e + 1) l
    pure (c :: r)

/-- The exact new values of a row: stored + Σ α · delta, or α · delta of the last position (R175). -/
def updateValues (f : UpdateArgs) (old : List Val) (deltas : List (List Val)) : List Val :=
  let a := f32 f.alpha
  (old.zipIdx).map fun o =>
    let ds := deltas.map fun d => a.mul (d.getD o.2 .nan)
    if f.opSet then ds.getLast?.getD .nan else Val.sum (o.1 :: ds)

/-- What the conversions and draws of a row add to the counters (R99, R101, R125, R127). -/
def State.countNew (s : State) (cs : List NewElem) : State :=
  (s.countConv false (cs.map (·.conv))).count Reg.GLB_SR_VALUES (cs.countP (·.drawn))

/-- The new bytes of row r: the stored bytes with its elements replaced (R175); its roundings are counted. -/
def newRow (x : Cx) (f : UpdateArgs) (t : Table) (delta : Opnd) (ps : List Nat) (r : Nat) : Act (List Byte) := do
  let bs ← readTableRow x t r
  let ds ← readDeltas x f delta t.width ps
  let cs ← newElems x f t (t.scale bs) r 0 (updateValues f (t.values bs) ds)
  let es := (t.elems bs).zipWith (fun o c => c.code.getD o) cs
  let elems := packStream (fmtWidth t.fmt) es
  -- bits of the last element byte that hold no element keep their value
  let w := t.width * fmtWidth t.fmt
  let last := if w % 8 = 0 then elems else
    elems.zipIdx.map fun b => if b.2 = w / 8 then merge (bs.getD b.2 0) (b.1, BitVec.ofNat 8 (2 ^ (w % 8) - 1)) else b.1
  note x fun s => s.countNew cs
  pure (last ++ bs.drop t.elemBytes)

/-- Whether the slots that a row covers can be written: a row is written as one unit (R176), so a translation that fails
stops the command before any of its bytes. -/
def probeRow (x : Cx) (o : Opnd) : List (Nat × List Unit) → Act Unit
  | [] => pure ()
  | p :: l => do
    onceDo x do
      let s ← get
      match lookup s x true o (p.1 - o.off) with
      | .at_ (.stacked va) =>
        let _ ← physical x o true va
      | _ => pure ()
    probeRow x o l

/-- Writes rows with their new contents, each counted where the batch has not been (R188). -/
def writeTableRows (x : Cx) (t : Table) (counted : Bool) : List (Nat × List Byte) → Act Unit
  | [] => pure ()
  | (r, bs) :: l => do
    probeRow x (t.row r) (cut 64 (t.row r).off (List.replicate bs.length ()))
    writeRun x 2 (t.row r) 0 bs
    if !counted then note x fun s => s.count (Reg.SPE_UPD_ROWS x.engine) 1
    writeTableRows x t counted l

/-- The new contents of the rows of one batch. -/
def batchRows (x : Cx) (f : UpdateArgs) (t : Table) (delta : Opnd) (idx : List Nat) :
    List Nat → Act (List (Nat × List Byte))
  | [] => pure []
  | r :: l => do
    let ps := (idx.zipIdx.filter fun i => decide (i.1 = r)).map (·.2)
    let bs ← newRow x f t delta ps r
    let rest ← batchRows x f t delta idx l
    pure ((r, bs) :: rest)

/-- The batches that the journal holds for this UPDATE, in order (R178). -/
def Job.batches (j : Job) (core seq : Nat) : List (List (Nat × List Byte)) :=
  j.journal.filterMap fun r => match r with
    | .update c q rows => if c = core ∧ q = seq then some rows else none
    | _ => none

/-- Batch k of this UPDATE as the journal holds it. -/
def State.journalBatch (s : State) (x : Cx) (k : Nat) : Option (List (Nat × List Byte)) :=
  ((s.findJob x.site.job).elim [] fun j => j.batches x.c x.site.seq)[k]?

/-- Rows as numbers, each with the number of its bytes before them, and back: n rows at most. -/
def batchNums (rows : List (Nat × List Byte)) : List Nat := rows.flatMap fun r => r.1 :: r.2.length :: r.2.map (·.toNat)
def batchOfNums : Nat → List Nat → List (Nat × List Byte)
  | n + 1, r :: k :: l => (r, (l.take k).map (BitVec.ofNat 8)) :: batchOfNums n (l.drop k)
  | _, _ => []

/-- A batch goes into the job's log before it is written; its rows are counted with it (R178, R188). -/
def State.logBatch (s : State) (x : Cx) (k : Nat) (rows : List (Nat × List Byte)) : State :=
  let s := s.journal x.site.job (.update x.c x.site.seq rows)
  if (s.journalBatch x k).isSome then s.count (Reg.SPE_UPD_ROWS x.engine) rows.length else s

/-- Applies the batches (R178); one that the journal of a replayed job holds is written again unchanged, and was counted when
it was written first. -/
def updateBatches (x : Cx) (f : UpdateArgs) (t : Table) (delta : Opnd) (idx : List Nat) :
    Nat → List (List Nat) → Act Unit
  | _, [] => pure ()
  | k, b :: l => do
    let found ← see x fun s => (s.journalBatch x k).elim [] fun rows => rows.length :: batchNums rows
    if found ≠ [] then writeTableRows x t true (batchOfNums (found.headD 0) (found.drop 1))
    else
      let rows ← batchRows x f t delta idx b
      if x.replay then note x fun s => s.logBatch x k rows
      let kept ← seeNat x fun s => (s.journalBatch x k).isSome.toNat
      writeTableRows x t (decide (kept = 1)) rows
    updateBatches x f t delta idx (k + 1) l

/-- UPDATE (R174 to R178): rows in the order of their first positions, in batches of 64 in a replayable job. -/
def updateBody (f : UpdateArgs) (x : Cx) : Act Unit := do
  let t ← needTable x f.tdesc true
  takeTable x t
  extend x (updateOpersOf t.width f)
  let delta ← x.need false f.delta
  let io ← if f.formRange then pure delta else x.need false f.idx
  let idx ← updateIndices x f t io [] (List.range (updateN f))
  let good := idx.filter fun i => decide (i < t.rows)
  let distinct := good.foldl (fun a i => if a.contains i then a else a ++ [i]) []
  updateBatches x f t delta idx 0 (chunks (if x.replay then 64 else 1) distinct)
  countFull x (updateN f)

/-! ### GATHER SPT -/

/-- Vectors of an SPT. -/
def sptM (f : GatherSptArgs) : Nat := f.mM1.toNat + 1

/-- The vectors of an SPT as an operand. -/
def sptVecs (k : Nat) (f : GatherSptArgs) : List Oper :=
  [{ write := false, addr := f.vec, mode := f.vtag.toNat
     runs := (List.range (sptM f)).map fun v => (64 * f.vpitch.toNat * v, ceilDiv (k * planes f.afmt.toNat) 8) }]

/-- The memory operands of an SPT as they are known when it issues. -/
def sptOpers (s : State) (x : Cx) (f : GatherSptArgs) : List Oper :=
  { write := false, addr := f.tile, mode := 2, runs := [(0, tileBytes s x f.tile)] }
    :: sptVecs ((tileHeaderAt s x f.tile).elim 1 (·.kRows)) f

/-- The tile rows that an SPT names (R185); those of 64 columns where the device does not hold the header yet. -/
def sptRows (s : State) (x : Cx) (f : GatherSptArgs) : List Nat :=
  let mode := (s.core x.c).modeOf x.replay x.site.seq f.acmRow.toNat
  let n := (tileHeaderAt s x f.tile).elim 64 (·.nCols)
  (List.range (rowsPerVector false mode n 0 * sptM f)).map (· + f.acmRow.toNat)

/-- The runs of one vector (R184). -/
def sptRuns (t : Tile) (cols : List (List (Nat × Int))) (a : List Int) : List Int :=
  cols.map fun c => c.foldl (fun y e => if e.1 < t.h.kRows then y + e.2 * a.getD e.1 0 else y) 0

/-- The vectors of an SPT in order: each is read, then delivered; the first row's mode, looked at as vector 0 is delivered,
places the runs of all (R185). -/
def sptVectors (x : Cx) (f : GatherSptArgs) (o : Opnd) (t : Tile) (cols : List (List (Nat × Int))) (e : Int)
    (mode : Option Nat) : List Nat → Act Unit
  | [] => pure ()
  | v :: l => do
    let es ← readElems x f.vtag.toNat o (8 * (64 * f.vpitch.toNat * v)) (planes f.afmt.toNat) t.h.kRows
    let runs := sptRuns t cols (es.map (decodeInt f.afmt.toNat))
    let placed ← match mode with
      | some m => pure m
      | none => do
        let row ← peekRow x f.acmRow.toNat
        pure (wordMode row.word)
    let nf := rowsPerVector false placed t.h.nCols 0
    deliverParts x placed (f.acmRow.toNat + nf * v) (if placed = 0 then 64 else 32) false
      (runs.map fun y => (y, .of ⟨y, e⟩)) (List.range nf)
    rowsDone x ((List.range nf).map (· + (f.acmRow.toNat + nf * v)))
    sptVectors x f o t cols e (some placed) l

/-- The tile of an SPT is counted (R186, R188). -/
def State.countTile (s : State) (x : Cx) (h : TileHeader) : State :=
  (s.count (Reg.SPE_NNZ x.engine) (if h.dense then h.kRows * h.nCols else h.nnz)).count (Reg.SPE_DENSE x.engine) h.dense.toNat

/-- GATHER in mode SPT (R183 to R187). -/
def gatherSptBody (f : GatherSptArgs) (x : Cx) : Act Unit := do
  let e ← expSource x f.expSel f.exp f.afmt.toNat
  let o ← x.need false f.tile
  let vo ← x.need false f.vec
  let t ← readTile x 2 f.tile o
  extend x (sptVecs t.h.kRows f)
  let cols := (List.range t.h.nCols).map t.column
  sptVectors x f vo t cols e none (List.range (sptM f))
  let lane (i : Nat) : Nat :=
    ((cols.zipIdx.filter fun c => decide (c.2 % 16 = i)).map fun c => c.1.length * ceilDiv (sptM f) 8).sum
  act fun s => (s.countTile x t.h).modCore x.c fun k =>
    { k with lastCycles := 18 + ((List.range 16).map lane).foldl max 0 }

end Sys2Proof.Machine
end

