-- ==== Sys2Proof/Machine/TileCode.lean ====
section
/-!
DEFINITION. The encoding of tile commands: the 32-byte command with its header (R297), its parameter records (R298) and
the maps of its opcode (R300, R302), read and written. A command is read from its structure bits (R11); a bit that the map
of its form does not list is a reserved bit.
-/

namespace Sys2Proof.Machine

/-- The structure bits of a command or of a parameter record. -/
abbrev Code := BitVec 256

/-- A value placed at structure bit lo. -/
def putAt {n : Nat} (lo : Nat) (v : BitVec n) : Code := v.setWidth 256 <<< lo

/-- A one-bit field placed at structure bit lo. -/
def putBit (lo : Nat) (b : Bool) : Code := putAt lo (BitVec.ofBool b)

/-- The fields of a map together. -/
def joinCode (l : List Code) : Code := l.foldl (· ||| ·) 0

/-! ### Fields of the maps -/

/-- The fields of the map of FLOAD, placed (R302). -/
def floadCode (f : FloadArgs) : List Code :=
  [putAt 32 f.facet, putAt 37 f.fmt, putAt 41 f.rowFirst, putAt 51 f.rowCount, putBit 62 f.zeroRest, putBit 63 f.retain
   , putAt 64 f.src, putAt 128 f.pitch, putAt 148 f.blk, putAt 150 f.stag, putAt 192 f.scale]

/-- The fields of the map of FLOAD, read (R302). -/
def floadOf (w : Code) : FloadArgs :=
  { facet := w.extractLsb' 32 5, fmt := w.extractLsb' 37 4, rowFirst := w.extractLsb' 41 10, rowCount := w.extractLsb' 51 11
    zeroRest := w.getLsbD 62, retain := w.getLsbD 63, src := w.extractLsb' 64 64, pitch := w.extractLsb' 128 20
    blk := w.extractLsb' 148 2, stag := w.extractLsb' 150 2, scale := w.extractLsb' 192 64 }

/-- The fields of the map of FIRE and FIRET, placed (R302). -/
def fireCode (f : FireArgs) : List Code :=
  [putAt 32 f.facet, putAt 37 f.afmt, putAt 41 f.kRows, putAt 52 f.m, putAt 62 f.mValid, putAt 72 f.acmRow, putBit 81 f.expSel
   , putAt 82 f.exp, putAt 92 f.vtag, putAt 94 f.vec, putAt 107 f.vpitch, putAt 120 f.zpRef, putAt 128 f.ref
   , putAt 192 f.refPitch, putAt 212 f.refFmt, putAt 216 f.nColsM1]

/-- The fields of the map of FIRE and FIRET, read (R302). -/
def fireOf (w : Code) : FireArgs :=
  { facet := w.extractLsb' 32 5, afmt := w.extractLsb' 37 4, kRows := w.extractLsb' 41 11, m := w.extractLsb' 52 10
    mValid := w.extractLsb' 62 10, acmRow := w.extractLsb' 72 9, expSel := w.getLsbD 81, exp := w.extractLsb' 82 10
    vtag := w.extractLsb' 92 2, vec := w.extractLsb' 94 13, vpitch := w.extractLsb' 107 13, zpRef := w.extractLsb' 120 8
    ref := w.extractLsb' 128 64, refPitch := w.extractLsb' 192 20, refFmt := w.extractLsb' 212 4
    nColsM1 := w.extractLsb' 216 6 }

/-- The fields of the map of ACMINIT, placed (R302). -/
def acminitCode (f : AcminitArgs) : List Code :=
  [putAt 32 f.acmRow, putAt 41 f.count, putAt 51 f.mode, putAt 53 f.policy, putAt 64 f.init]

/-- The fields of the map of ACMINIT, read (R302). -/
def acminitOf (w : Code) : AcminitArgs :=
  { acmRow := w.extractLsb' 32 9, count := w.extractLsb' 41 10, mode := w.extractLsb' 51 2, policy := w.extractLsb' 53 2
    init := w.extractLsb' 64 32 }

/-- The fields of the map of ACMOUT, placed (R302). -/
def acmoutCode (f : AcmoutArgs) : List Code :=
  [putAt 48 f.acmRow, putAt 57 f.m, putAt 67 f.mValid, putAt 77 f.rpvM1, putAt 81 f.nValidM1, putAt 91 f.ofmt, putBit 95 f.var
   , putAt 96 f.dst, putAt 160 f.opitch, putAt 180 f.kIn, putAt 190 f.slot, putBit 200 f.slotEn, putAt 201 f.zp
   , putAt 209 f.dtag, putAt 211 f.bs, putBit 214 f.bsMode, putBit 215 f.axis, putAt 216 f.inSlot, putBit 226 f.inSlotEn]

/-- The parameter record of ACMOUT (R302). -/
def acmoutRecord (f : AcmoutArgs) : Code := joinCode [putAt 0 f.scale, putAt 64 f.scalePitch]

/-- The fields of the map of ACMOUT, read (R302). -/
def acmoutOf (w r : Code) : AcmoutArgs :=
  { acmRow := w.extractLsb' 48 9, m := w.extractLsb' 57 10, mValid := w.extractLsb' 67 10, rpvM1 := w.extractLsb' 77 4
    nValidM1 := w.extractLsb' 81 10, ofmt := w.extractLsb' 91 4, var := w.getLsbD 95, dst := w.extractLsb' 96 64
    opitch := w.extractLsb' 160 20, kIn := w.extractLsb' 180 10, slot := w.extractLsb' 190 10, slotEn := w.getLsbD 200
    zp := w.extractLsb' 201 8, dtag := w.extractLsb' 209 2, bs := w.extractLsb' 211 3, bsMode := w.getLsbD 214
    axis := w.getLsbD 215, inSlot := w.extractLsb' 216 10, inSlotEn := w.getLsbD 226, scale := r.extractLsb' 0 64
    scalePitch := r.extractLsb' 64 20 }

/-- The fields of the map of REFMM, placed (R302). -/
def refmmCode (f : RefmmArgs) : List Code :=
  [putAt 48 f.a, putAt 112 f.afmt, putAt 116 f.bfmt, putAt 120 f.apitch, putBit 140 f.atrans, putBit 141 f.btrans
   , putAt 142 f.mM1, putAt 152 f.nM1, putAt 162 f.kM1, putAt 175 f.acmRow, putAt 184 f.kRef, putAt 194 f.atag, putAt 196 f.btag]

/-- The parameter record of REFMM (R302). -/
def refmmRecord (f : RefmmArgs) : Code := joinCode [putAt 0 f.b, putAt 64 f.bpitch]

/-- The fields of the map of REFMM, read (R302). -/
def refmmOf (w r : Code) : RefmmArgs :=
  { a := w.extractLsb' 48 64, afmt := w.extractLsb' 112 4, bfmt := w.extractLsb' 116 4, apitch := w.extractLsb' 120 20
    atrans := w.getLsbD 140, btrans := w.getLsbD 141, mM1 := w.extractLsb' 142 10, nM1 := w.extractLsb' 152 10
    kM1 := w.extractLsb' 162 13, acmRow := w.extractLsb' 175 9, kRef := w.extractLsb' 184 10, atag := w.extractLsb' 194 2
    btag := w.extractLsb' 196 2, b := r.extractLsb' 0 64, bpitch := r.extractLsb' 64 20 }

/-- The fields of the map of REFEW, placed (R302). -/
def refewCode (f : RefewArgs) : List Code :=
  [putAt 48 f.op, putAt 53 f.nM1, putAt 74 f.fmtA, putAt 78 f.fmtB, putAt 82 f.fmtC, putAt 86 f.fmtO, putAt 90 f.imm
   , putAt 100 f.slot, putAt 110 f.zp, putAt 118 f.tagA, putAt 120 f.tagB, putAt 122 f.tagC, putAt 124 f.tagO
   , putBit 126 f.bBcast, putBit 127 f.cBcast, putAt 128 f.a, putAt 192 f.out]

/-- The parameter record of REFEW (R302). -/
def refewRecord (f : RefewArgs) : Code := joinCode [putAt 0 f.b, putAt 64 f.c]

/-- The fields of the map of REFEW, read (R302). -/
def refewOf (w r : Code) : RefewArgs :=
  { op := w.extractLsb' 48 5, nM1 := w.extractLsb' 53 21, fmtA := w.extractLsb' 74 4, fmtB := w.extractLsb' 78 4
    fmtC := w.extractLsb' 82 4, fmtO := w.extractLsb' 86 4, imm := w.extractLsb' 90 10, slot := w.extractLsb' 100 10
    zp := w.extractLsb' 110 8, tagA := w.extractLsb' 118 2, tagB := w.extractLsb' 120 2, tagC := w.extractLsb' 122 2
    tagO := w.extractLsb' 124 2, bBcast := w.getLsbD 126, cBcast := w.getLsbD 127, a := w.extractLsb' 128 64
    out := w.extractLsb' 192 64, b := r.extractLsb' 0 64, c := r.extractLsb' 64 64 }

/-- The fields of the map of REDUCE, placed (R302). -/
def reduceCode (f : ReduceArgs) : List Code :=
  [putAt 32 f.mode, putAt 35 f.sfmt, putAt 39 f.rM1, putAt 52 f.nM1, putAt 73 f.acmRow, putAt 82 f.ofmt, putAt 86 f.stag
   , putAt 88 f.otag, putAt 96 f.src, putAt 160 f.lpitch, putAt 192 f.out]

/-- The fields of the map of REDUCE, read (R302). -/
def reduceOf (w : Code) : ReduceArgs :=
  { mode := w.extractLsb' 32 3, sfmt := w.extractLsb' 35 4, rM1 := w.extractLsb' 39 13, nM1 := w.extractLsb' 52 21
    acmRow := w.extractLsb' 73 9, ofmt := w.extractLsb' 82 4, stag := w.extractLsb' 86 2, otag := w.extractLsb' 88 2
    src := w.extractLsb' 96 64, lpitch := w.extractLsb' 160 32, out := w.extractLsb' 192 64 }

/-- The fields of the map of TRANSIT, placed (R302). -/
def transitCode (f : TransitArgs) : List Code :=
  [putAt 32 f.chain, putAt 48 f.role, putBit 50 f.remote, putAt 51 f.succCore, putAt 62 f.succDev, putAt 74 f.acmRow
   , putAt 83 f.rowsM1, putAt 96 f.tseq]

/-- The fields of the map of TRANSIT, read (R302). -/
def transitOf (w : Code) : TransitArgs :=
  { chain := w.extractLsb' 32 16, role := w.extractLsb' 48 2, remote := w.getLsbD 50, succCore := w.extractLsb' 51 11
    succDev := w.extractLsb' 62 12, acmRow := w.extractLsb' 74 9, rowsM1 := w.extractLsb' 83 4, tseq := w.extractLsb' 96 32 }

/-- The fields of the map of MOVE, placed (R302). -/
def moveCode (mode : BitVec 3) (f : MoveArgs) : List Code :=
  [putAt 48 mode, putAt 51 f.esize, putAt 54 f.stag, putAt 56 f.dtag, putAt 58 f.fmt, putAt 62 f.pad, putAt 64 f.src
   , putAt 128 f.dst, putAt 192 f.n0, putAt 213 f.n1, putAt 229 f.n2, putAt 245 f.zp, putAt 253 f.bs]

/-- The first parameter record of MOVE (R302). -/
def moveRecord1 (f : MoveArgs) : Code :=
  joinCode [putAt 0 f.srcS1, putAt 40 f.srcS2, putAt 80 f.dstS1, putAt 120 f.dstS2, putAt 160 f.vL, putAt 176 f.vE]

/-- The second parameter record of MOVE (R302). -/
def moveRecord2 (f : MoveArgs) : Code :=
  joinCode [putAt 0 f.scale, putAt 64 f.scalePitch, putBit 84 f.bsMode, putBit 85 f.axis, putAt 86 f.sfmt]

/-- The fields of the map of MOVE, read (R302). -/
def moveOf (w r q : Code) : MoveArgs :=
  { esize := w.extractLsb' 51 3, stag := w.extractLsb' 54 2, dtag := w.extractLsb' 56 2, fmt := w.extractLsb' 58 4
    pad := w.extractLsb' 62 2, src := w.extractLsb' 64 64, dst := w.extractLsb' 128 64, n0 := w.extractLsb' 192 21
    n1 := w.extractLsb' 213 16, n2 := w.extractLsb' 229 16, zp := w.extractLsb' 245 8, bs := w.extractLsb' 253 3
    srcS1 := r.extractLsb' 0 40, srcS2 := r.extractLsb' 40 40, dstS1 := r.extractLsb' 80 40, dstS2 := r.extractLsb' 120 40
    vL := r.extractLsb' 160 16, vE := r.extractLsb' 176 21, scale := q.extractLsb' 0 64, scalePitch := q.extractLsb' 64 20
    bsMode := q.getLsbD 84, axis := q.getLsbD 85, sfmt := q.extractLsb' 86 4 }

/-- The fields of the map of GATHER in mode EMB, placed (R302). -/
def embCode (f : GatherEmbArgs) : List Code :=
  [putBit 49 f.ifmt64, putBit 50 f.formOffsets, putAt 51 f.pool, putAt 53 f.wfmt, putAt 55 f.ofmt, putAt 59 f.nIdxM1
   , putAt 80 f.nBagsM1, putAt 97 f.lbM1, putAt 108 f.opitch, putAt 128 f.tdesc, putAt 192 f.idx]

/-- The parameter record of GATHER in mode EMB (R302). -/
def embRecord (f : GatherEmbArgs) : Code := joinCode [putAt 0 f.offsets, putAt 64 f.weights, putAt 128 f.out]

/-- The fields of the map of GATHER in mode EMB, read (R302). -/
def embOf (w r : Code) : GatherEmbArgs :=
  { ifmt64 := w.getLsbD 49, formOffsets := w.getLsbD 50, pool := w.extractLsb' 51 2, wfmt := w.extractLsb' 53 2
    ofmt := w.extractLsb' 55 4, nIdxM1 := w.extractLsb' 59 21, nBagsM1 := w.extractLsb' 80 17, lbM1 := w.extractLsb' 97 11
    opitch := w.extractLsb' 108 20, tdesc := w.extractLsb' 128 64, idx := w.extractLsb' 192 64
    offsets := r.extractLsb' 0 64, weights := r.extractLsb' 64 64, out := r.extractLsb' 128 64 }

/-- The fields of the map of GATHER in mode SPT, placed (R302). -/
def sptCode (f : GatherSptArgs) : List Code :=
  [putBit 48 true, putAt 49 f.afmt, putAt 53 f.mM1, putAt 60 f.acmRow, putBit 69 f.expSel, putAt 70 f.exp, putAt 80 f.vtag
   , putAt 82 f.vpitch, putAt 128 f.tile, putAt 192 f.vec]

/-- The fields of the map of GATHER in mode SPT, read (R302). -/
def sptOf (w : Code) : GatherSptArgs :=
  { afmt := w.extractLsb' 49 4, mM1 := w.extractLsb' 53 6, acmRow := w.extractLsb' 60 9, expSel := w.getLsbD 69
    exp := w.extractLsb' 70 10, vtag := w.extractLsb' 80 2, vpitch := w.extractLsb' 82 13, tile := w.extractLsb' 128 64
    vec := w.extractLsb' 192 64 }

/-- The fields of the map of UPDATE, placed (R302). -/
def updateCode (f : UpdateArgs) : List Code :=
  [putBit 48 f.formRange, putBit 49 f.ifmt64, putBit 50 f.opSet, putBit 51 f.rndSr, putAt 52 f.dfmt, putAt 54 f.dpitch
   , putAt 96 f.alpha, putAt 128 f.tdesc, putAt 192 f.delta]

/-- The parameter record of UPDATE (R302). -/
def updateRecord (f : UpdateArgs) : Code :=
  joinCode [putAt 0 f.idx, putAt 64 f.countM1, putAt 96 f.seed, putAt 128 f.step]

/-- The fields of the map of UPDATE, read (R302). -/
def updateOf (w r : Code) : UpdateArgs :=
  { formRange := w.getLsbD 48, ifmt64 := w.getLsbD 49, opSet := w.getLsbD 50, rndSr := w.getLsbD 51
    dfmt := w.extractLsb' 52 2, dpitch := w.extractLsb' 54 20, alpha := w.extractLsb' 96 32, tdesc := w.extractLsb' 128 64
    delta := w.extractLsb' 192 64, idx := r.extractLsb' 0 64, countM1 := r.extractLsb' 64 16, seed := r.extractLsb' 96 32
    step := r.extractLsb' 128 24 }

/-- The fields of the map of SYNC, placed (R302). -/
def syncCode (op : BitVec 4) (f : SyncArgs) : List Code :=
  [putAt 32 op, putAt 36 f.counter, putBit 49 f.remote, putAt 50 f.dev, putBit 62 f.fetch, putBit 63 f.postMem, putAt 64 f.res
   , putAt 128 f.operand, putAt 192 f.compare]

/-- The fields of the map of SYNC, read (R302). -/
def syncOf (w : Code) : SyncArgs :=
  { counter := w.extractLsb' 36 13, remote := w.getLsbD 49, dev := w.extractLsb' 50 12, fetch := w.getLsbD 62
    postMem := w.getLsbD 63, res := w.extractLsb' 64 19, operand := w.extractLsb' 128 64, compare := w.extractLsb' 192 64 }

/-- The fields of the map of CLAIM, placed (R302). -/
def claimCode (explicit : Bool) (f : ClaimArgs) : List Code :=
  [putAt 32 f.counter, putBit 45 explicit, putAt 46 f.bm, putBit 53 f.resEn, putAt 64 f.skip, putAt 80 f.limit
   , putAt 112 f.index, putAt 144 f.sRd, putAt 176 f.sWr, putAt 208 f.res]

/-- The fields of the map of CLAIM, read (R302). -/
def claimFields (w : Code) : ClaimArgs :=
  { counter := w.extractLsb' 32 13, bm := w.extractLsb' 46 7, resEn := w.getLsbD 53, skip := w.extractLsb' 64 16
    limit := w.extractLsb' 80 32, index := w.extractLsb' 112 32, sRd := w.extractLsb' 144 32, sWr := w.extractLsb' 176 32
    res := w.extractLsb' 208 19 }

/-- The fields of the map of WAIT, placed (R302). -/
def waitCode (f : WaitArgs) : List Code := [putAt 32 f.counter, putAt 45 f.cond, putAt 64 f.value]

/-- The fields of the map of WAIT, read (R302). -/
def waitOf (w : Code) : WaitArgs :=
  { counter := w.extractLsb' 32 13, cond := w.extractLsb' 45 2, value := w.extractLsb' 64 64 }

/-- The fields of the map of EXPO, placed (R302). -/
def expoCode (op : BitVec 2) (f : ExpoArgs) : List Code :=
  [putAt 32 op, putAt 34 f.first, putAt 44 f.count, putAt 55 f.tag, putAt 64 f.addr]

/-- The fields of the map of EXPO, read (R302). -/
def expoFields (w : Code) : ExpoArgs :=
  { first := w.extractLsb' 34 10, count := w.extractLsb' 44 11, tag := w.extractLsb' 55 2, addr := w.extractLsb' 64 64 }

/-- The fields of the map of BALLAST, placed (R302). -/
def ballastCode (until_ : Bool) (f : BallastArgs) : List Code :=
  [putBit 32 until_, putAt 33 f.level, putBit 37 f.facets, putBit 38 f.refractor]

/-- The fields of the map of BALLAST, read (R302). -/
def ballastOf (w : Code) : BallastArgs :=
  { level := w.extractLsb' 33 4, facets := w.getLsbD 37, refractor := w.getLsbD 38 }

/-- The fields of the map of the condition of BALLAST UNTIL, placed (R302). -/
def untilCode (f : WaitArgs) : List Code := [putAt 64 f.counter, putAt 77 f.cond, putAt 128 f.value]

/-- The fields of the map of the condition of BALLAST UNTIL, read (R302). -/
def untilOf (w : Code) : WaitArgs :=
  { counter := w.extractLsb' 64 13, cond := w.extractLsb' 77 2, value := w.extractLsb' 128 64 }

/-- The fields of the map of FENCE, placed (R302). -/
def fenceCode (f : FenceArgs) : List Code := [putAt 32 f.mask, putBit 37 f.vis, putBit 38 f.remote]

/-- The fields of the map of FENCE, read (R302). -/
def fenceOf (w : Code) : FenceArgs := { mask := w.extractLsb' 32 5, vis := w.getLsbD 37, remote := w.getLsbD 38 }

/-- The fields of the map of TASK, placed (R302). -/
def taskCode (f : TaskArgs) : List Code := [putAt 32 f.space, putAt 64 f.base, putAt 128 f.bound]

/-- The fields of the map of TASK, read (R302). -/
def taskOf (w : Code) : TaskArgs :=
  { space := w.extractLsb' 32 2, base := w.extractLsb' 64 64, bound := w.extractLsb' 128 64 }

/-- The fields of the map of WINDOW OPEN, placed (R302). -/
def windowCode (f : WindowArgs) : List Code :=
  [putAt 33 f.window, putBit 39 f.stacked, putBit 40 f.rd, putBit 41 f.wr, putAt 42 f.rdev, putAt 64 f.base, putAt 128 f.size]

/-- The fields of the map of WINDOW OPEN, read (R302). -/
def windowOf (w : Code) : WindowArgs :=
  { window := w.extractLsb' 33 6, stacked := w.getLsbD 39, rd := w.getLsbD 40, wr := w.getLsbD 41, rdev := w.extractLsb' 42 12
    base := w.extractLsb' 64 64, size := w.extractLsb' 128 64 }

/-! ### Writing a command -/

/-- The header (R297) with the prm of R298, of an opcode. -/
def hdrCode (opcode : BitVec 8) (h : Hdr) : List Code :=
  [putAt 0 opcode, putBit 8 h.commit, putBit 9 h.serial, putBit 10 h.satFp, putBit 11 h.indexed, putAt 12 h.prmN, putAt 16 h.seq
   , if h.prmN = 0 then 0 else putAt 32 h.prm]

/-- The command whose header and body are given. -/
def commandCode (opcode : BitVec 8) (h : Hdr) (body : List Code) : Code := joinCode (hdrCode opcode h ++ body)

/-- The 32 bytes of a tile command; 0 for a command of another kind. -/
def encodeTile : Instr → Code
  | .fload _ h f => commandCode 0x01 h (floadCode f)
  | .fire _ h f => commandCode 0x02 h (fireCode f)
  | .firet _ h f => commandCode 0x03 h (fireCode f)
  | .acminit _ h f => commandCode 0x04 h (acminitCode f)
  | .acmout _ h f => commandCode 0x05 h (acmoutCode f)
  | .refmm _ h f => commandCode 0x06 h (refmmCode f)
  | .refew _ h f => commandCode 0x07 h (refewCode f)
  | .reduce _ h f => commandCode 0x08 h (reduceCode f)
  | .transit _ h f => commandCode 0x09 h (transitCode f)
  | .movePlain _ h f => commandCode 0x0A h (moveCode 0 f)
  | .moveTile _ h f => commandCode 0x0A h (moveCode 1 f)
  | .moveTranspose _ h f => commandCode 0x0A h (moveCode 2 f)
  | .moveCompress _ h f => commandCode 0x0A h (moveCode 3 f)
  | .moveExpand _ h f => commandCode 0x0A h (moveCode 4 f)
  | .gatherEmb _ h f => commandCode 0x0B h (embCode f)
  | .gatherSpt _ h f => commandCode 0x0B h (sptCode f)
  | .update _ h f => commandCode 0x0C h (updateCode f)
  | .syncAdd _ h f => commandCode 0x0D h (syncCode 0 f)
  | .syncSet _ h f => commandCode 0x0D h (syncCode 1 f)
  | .syncMax _ h f => commandCode 0x0D h (syncCode 2 f)
  | .syncMin _ h f => commandCode 0x0D h (syncCode 3 f)
  | .syncOr _ h f => commandCode 0x0D h (syncCode 4 f)
  | .syncAnd _ h f => commandCode 0x0D h (syncCode 5 f)
  | .syncCas _ h f => commandCode 0x0D h (syncCode 6 f)
  | .syncPost _ h f => commandCode 0x0D h (syncCode 7 f)
  | .claimNext _ h f => commandCode 0x0E h (claimCode false f)
  | .claimExplicit _ h f => commandCode 0x0E h (claimCode true f)
  | .wait _ h f => commandCode 0x0F h (waitCode f)
  | .expoSave _ h f => commandCode 0x10 h (expoCode 0 f)
  | .expoRestore _ h f => commandCode 0x10 h (expoCode 1 f)
  | .expoClear _ h f => commandCode 0x10 h (expoCode 2 f)
  | .phase _ h op => commandCode 0x11 h [putAt 32 op]
  | .ballastFixed _ h f cycles => commandCode 0x12 h (ballastCode false f ++ [putAt 39 cycles])
  | .ballastUntil _ h f w => commandCode 0x12 h (ballastCode true f ++ untilCode w)
  | .fence _ h f => commandCode 0x13 h (fenceCode f)
  | .task _ h f => commandCode 0x14 h (taskCode f)
  | .windowOpen _ h f => commandCode 0x15 h (windowCode f)
  | .windowClose _ h n => commandCode 0x15 h [putBit 32 true, putAt 33 n]
  | .nop _ h => commandCode 0x16 h []
  | _ => 0

/-- The two parameter records of a tile command; 0 where its form needs none. -/
def encodeRecords : Instr → Code × Code
  | .acmout _ _ f => (acmoutRecord f, 0)
  | .refmm _ _ f => (refmmRecord f, 0)
  | .refew _ _ f => (refewRecord f, 0)
  | .movePlain _ _ f | .moveTile _ _ f | .moveTranspose _ _ f | .moveCompress _ _ f | .moveExpand _ _ f =>
    (moveRecord1 f, moveRecord2 f)
  | .gatherEmb _ _ f => (embRecord f, 0)
  | .update _ _ f => (updateRecord f, 0)
  | _ => (0, 0)

/-! ### Reading a command -/

/-- The header of a command, with no reserved bit. -/
def hdrOf (w : Code) : Hdr :=
  let prmN := w.extractLsb' 12 2
  { commit := w.getLsbD 8, serial := w.getLsbD 9, satFp := w.getLsbD 10, indexed := w.getLsbD 11, prmN := prmN
    reserved := false, seq := w.extractLsb' 16 16, prm := if prmN = 0 then 0 else w.extractLsb' 32 16 }

/-- The MOVE of a mode; 5 to 7 are not defined. -/
def moveKind (c : CoreId) (h : Hdr) (w r q : Code) : Option Instr :=
  match (w.extractLsb' 48 3).toNat with
  | 0 => some (.movePlain c h (moveOf w r q))
  | 1 => some (.moveTile c h (moveOf w r q))
  | 2 => some (.moveTranspose c h (moveOf w r q))
  | 3 => some (.moveCompress c h (moveOf w r q))
  | 4 => some (.moveExpand c h (moveOf w r q))
  | _ => none

/-- The SYNC of an operation; 8 to 15 are not defined. -/
def syncKind (c : CoreId) (h : Hdr) (w : Code) : Option Instr :=
  match (w.extractLsb' 32 4).toNat with
  | 0 => some (.syncAdd c h (syncOf w))
  | 1 => some (.syncSet c h (syncOf w))
  | 2 => some (.syncMax c h (syncOf w))
  | 3 => some (.syncMin c h (syncOf w))
  | 4 => some (.syncOr c h (syncOf w))
  | 5 => some (.syncAnd c h (syncOf w))
  | 6 => some (.syncCas c h (syncOf w))
  | 7 => some (.syncPost c h (syncOf w))
  | _ => none

/-- The EXPO of an operation; 3 is not defined. -/
def expoKind (c : CoreId) (h : Hdr) (w : Code) : Option Instr :=
  match (w.extractLsb' 32 2).toNat with
  | 0 => some (.expoSave c h (expoFields w))
  | 1 => some (.expoRestore c h (expoFields w))
  | 2 => some (.expoClear c h (expoFields w))
  | _ => none

/-- The opcode of a command. -/
def opcodeAt (w : Code) : Nat := (w.extractLsb' 0 8).toNat

/-- The command of an opcode from 0x01 to 0x16 with a given header; none where a mode or an operation code is not
defined. -/
def bodyOf (c : CoreId) (h : Hdr) (w r q : Code) : Option Instr :=
  match opcodeAt w with
  | 0x01 => some (.fload c h (floadOf w))
  | 0x02 => some (.fire c h (fireOf w))
  | 0x03 => some (.firet c h (fireOf w))
  | 0x04 => some (.acminit c h (acminitOf w))
  | 0x05 => some (.acmout c h (acmoutOf w r))
  | 0x06 => some (.refmm c h (refmmOf w r))
  | 0x07 => some (.refew c h (refewOf w r))
  | 0x08 => some (.reduce c h (reduceOf w))
  | 0x09 => some (.transit c h (transitOf w))
  | 0x0A => moveKind c h w r q
  | 0x0B => some (if w.getLsbD 48 then .gatherSpt c h (sptOf w) else .gatherEmb c h (embOf w r))
  | 0x0C => some (.update c h (updateOf w r))
  | 0x0D => syncKind c h w
  | 0x0E => some (if w.getLsbD 45 then .claimExplicit c h (claimFields w) else .claimNext c h (claimFields w))
  | 0x0F => some (.wait c h (waitOf w))
  | 0x10 => expoKind c h w
  | 0x11 => some (.phase c h (w.extractLsb' 32 3))
  | 0x12 => some (if w.getLsbD 32 then .ballastUntil c h (ballastOf w) (untilOf w)
      else .ballastFixed c h (ballastOf w) (w.extractLsb' 39 25))
  | 0x13 => some (.fence c h (fenceOf w))
  | 0x14 => some (.task c h (taskOf w))
  | 0x15 => some (if w.getLsbD 32 then .windowClose c h (w.extractLsb' 33 6) else .windowOpen c h (windowOf w))
  | 0x16 => some (.nop c h)
  | _ => none

/-- The bits of fields that the map of the opcode lists and the form of the command does not use: BALLAST and WINDOW have
one map for both of their forms (R302). -/
def unusedBits : Instr → Code
  | .ballastFixed .. => joinCode [putAt 64 (BitVec.allOnes 13), putAt 77 (BitVec.allOnes 2), putAt 128 (BitVec.allOnes 64)]
  | .ballastUntil .. => putAt 39 (BitVec.allOnes 25)
  | .windowClose .. => joinCode [putAt 39 (BitVec.allOnes 15), putAt 64 (BitVec.allOnes 64), putAt 128 (BitVec.allOnes 64)]
  | _ => 0

/-- The parameter records that the form of a command needs (R302). -/
def recordsNeeded : Instr → Nat
  | .acmout _ _ f => if f.bs = 0 then 0 else 1
  | .refmm _ _ _ => 1
  | .refew _ _ f => if f.op.toNat ≤ 5 then 1 else 0
  | .movePlain _ _ f => if f.bs ≠ 0 then 2 else if f.n1 = 1 ∧ f.n2 = 1 then 0 else 1
  | .moveTile _ _ f | .moveTranspose _ _ f => if f.bs ≠ 0 then 2 else 1
  | .gatherEmb _ _ _ => 1
  | .update _ _ _ => 1
  | _ => 0

/-- The tile command that 32 bytes and two parameter records (0 where there is none) spell for core c; or the refusal cause
of a command that is none: 0x01 for its opcode, 0x02 for a mode or an operation code that its map does not define (R300).
A bit that no field of its map accounts for is a reserved bit; of records, those that the form needs are looked at. -/
def decodeTile (c : CoreId) (w r q : Code) : Except Nat Instr :=
  if opcodeAt w = 0 ∨ 0x16 < opcodeAt w then .error 0x01
  else
    match bodyOf c (hdrOf w) w r q with
    | none => .error 0x02
    | some i =>
      let recs := encodeRecords i
      if encodeTile i = w &&& ~~~unusedBits i ∧ (recordsNeeded i < 1 ∨ recs.1 = r) ∧ (recordsNeeded i < 2 ∨ recs.2 = q) then .ok i
      else (bodyOf c { hdrOf w with reserved := true } w r q).elim (.error 0x02) .ok

end Sys2Proof.Machine
end

