-- ==== Sys2Proof/Machine/Lists.lean ====
section
/-!
DEFINITION. Command lists in memory (R265, R294, R298): where the commands and parameter records of a core stand, and what
stands there.
-/

namespace Sys2Proof.Machine

/-- A byte of an operand address that is taken as it stands, without a task entry. -/
def Opnd.plain (o : Opnd) (i : Nat) : Option Place :=
  match o.space with
  | 2 => some (.shared (o.off + i))
  | 3 => some (.stacked (o.off + i))
  | 4 => some (.host (o.off + i))
  | _ => none

/-- The start of the list of core c (R265). -/
def Job.listOf (j : Job) (c : Nat) : Option Opnd :=
  (operandOf j.desc.listAddr).map fun o =>
    { o with off := o.off + 64 * j.desc.listStride * ((c - j.desc.coreFirst) / atLeastOne j.desc.coreStride) }

/-- Whether the parameter records of a header lie where R298 allows them. -/
def recordsInside (j : Job) (h : Hdr) : Bool :=
  decide (j.desc.cmdCount ≤ h.prm.toNat ∧ h.prm.toNat + h.prmN.toNat ≤ 2 * j.desc.listStride)

/-! ### What stands in a list -/

/-- The byte of a place, as memory holds it now. -/
def State.byteAt (s : State) : Place → Byte
  | .shared off => Sparse.get 0 s.shared off
  | .stacked va =>
    match (translate Who.none false va s).1 with
    | .ok pa => Sparse.get 0 s.stacked pa
    | _ => 0
  | .host va => Sparse.get 0 s.host va
  | .core c off => Sparse.get 0 (s.core c).mem off
  | .window _ _ => 0

/-- The 32 bytes at index n of a list. -/
def State.codeAt (s : State) (o : Opnd) (n : Nat) : Code :=
  BitVec.ofNat 256 (ofBytes ((List.range 32).map fun i => ((o.plain (32 * n + i)).elim 0 s.byteAt)))

/-- The command at position n of the list of core c; none where 32 bytes of zeros stand there, or no command. -/
def State.listed (s : State) (j : Job) (c n : Nat) : Option Instr :=
  (j.listOf c).bind fun o =>
    let w := s.codeAt o n
    let h := hdrOf w
    let rec_ (k : Nat) : Code := if k < h.prmN.toNat ∧ recordsInside j h then s.codeAt o (h.prm.toNat + k) else 0
    (decodeTile (BitVec.ofNat 11 c) w (rec_ 0) (rec_ 1)).toOption

/-- The command at position n of the list of core c, in its command buffer or in memory. -/
def State.commandAt (s : State) (j : Job) (c n : Nat) : Option Instr :=
  let k := s.core c
  match if k.nextSeq ≤ n then k.buffer[n - k.nextSeq]? else none with
  | some e => (decodeTile (BitVec.ofNat 11 c) e.word e.rec0 e.rec1).toOption
  | none => s.listed j c n

/-- The commands that stand after position n in the list of core c. -/
def State.listedAfter (s : State) (j : Job) (c n : Nat) : List Instr :=
  (List.range (j.desc.cmdCount - (n + 1))).filterMap fun i => s.commandAt j c (n + 1 + i)

/-! ### Fetching -/

/-- Reads 32 bytes at index n of a list, as an access of the job (R238, R252, R253, R331 to R335). -/
def readCode (x : Cx) (o : Opnd) (n : Nat) : Act Code := do
  let bs ← joinReads (fun p =>
    match o.plain (p.1 - o.off) with
    | some q => readPlace x 2 o q p.2.length
    | none => throw .hold) (cut 64 (o.off + 32 * n) (List.replicate 32 ()))
  pure (BitVec.ofNat 256 (ofBytes bs))

/-- Fetches the command at position n of a list with its parameter records (R294). -/
def fetchCode (x : Cx) (j : Job) (o : Opnd) (n : Nat) : Act Fetched := do
  let w ← readCode x o n
  let h := hdrOf w
  let has (k : Nat) : Bool := decide (k < h.prmN.toNat) && recordsInside j h
  let r ← if has 0 then readCode x o h.prm.toNat else pure 0
  let q ← if has 1 then readCode x o (h.prm.toNat + 1) else pure 0
  pure ⟨w, r, q⟩

end Sys2Proof.Machine
end

