-- ==== Sys2Proof/Machine/Sequencer.lean ====
section
/-!
DEFINITION. The work of the commands that run in the sequencer, and of EXPO: SYNC with POST (R284, R304, R306, R313 to
R316), CLAIM (R310 to R312), WAIT and BALLAST (R307, R419), FENCE (R303), TASK (R219, R221), PHASE (R403), WINDOW (R246,
R249) and EXPO (R119 to R122).
-/

namespace Sys2Proof.Machine

/-! ### What a command waits for -/

/-- Whether a request of the core's job has no acknowledge yet. -/
def State.unacked (s : State) (x : Cx) (q : Request → Bool) : Bool :=
  s.requests.any fun r => decide (r.job = x.site.job ∧ r.core = x.c) && r.answer.isNone && q r

/-- Whether a request writes through a window. -/
def Request.isWrite (r : Request) : Bool :=
  match r.payload with
  | .wr _ _ _ => true
  | _ => false

/-- Whether a request is a remote counter operation. -/
def Request.isSync (r : Request) : Bool :=
  match r.payload with
  | .sync _ => true
  | _ => false

/-- A SYNC or CLAIM is applied once every earlier command of the core has completed and its memory writes, those through
windows among them, are acknowledged (R304). -/
def drained (x : Cx) : Act Unit := do
  let s ← get
  if ((s.core x.c).earlier x.site.seq).isEmpty && !s.unacked x (·.isWrite) then pure () else throw .hold

/-- The numbers that the job's log holds for this command, if it has a record, looked up once (R315, R329). -/
def findRecord (x : Cx) (f : JRec → Option (List Nat)) : Act (Option (List Nat)) := do
  let l ← see x fun s =>
    match (s.findJob x.site.job).bind fun j => j.journal.findSome? f with
    | some v => 1 :: v
    | none => [0]
  pure (if l.getD 0 0 = 1 then some (l.drop 1) else none)

/-- The operand of a res field: own core memory (R302). -/
def resOpnd (res : BitVec 19) : Opnd := { space := 0, win := 0, off := res.toNat }

/-! ### SYNC -/

/-- The journalled old value of a SYNC (R315). -/
def oldOf (c seq : Nat) : JRec → Option (List Nat)
  | .sync c' q old => if c' = c ∧ q = seq then some [old.toNat] else none
  | _ => none

/-- A local counter operation: its old value, journalled before it is acknowledged (R306, R315). -/
def syncLocal (op : CtrOp) (f : SyncArgs) (x : Cx) : Act Word64 := do
  let l ← once x (do
    let s ← get
    let old := s.ctr f.counter.toNat
    act fun s => s.ctrOp op f.counter.toNat f.operand f.compare
    act fun s => s.journal x.site.job (.sync x.c x.site.seq old)
    pure [old.toNat])
  pure (BitVec.ofNat 64 (l.getD 0 0))

/-- The code of an operation in a SYNC message (R356). -/
def CtrOp.code : CtrOp → BitVec 4
  | .add => 0
  | .set => 1
  | .max => 2
  | .min => 3
  | .or => 4
  | .and => 5
  | .cas => 6

/-- Records the device to which a replayable SYNC goes; a 65th device ends the job's journalling (R367). -/
def State.noteSyncDev (s : State) (num : Nat) (d : DevNum) : State :=
  match s.findJob num with
  | none => s
  | some j =>
    if !j.replayable || j.syncDevs.contains d.toNat then s
    else if j.syncDevs.length < 64 then s.modJob num fun j => { j with syncDevs := j.syncDevs ++ [d.toNat] }
    else s.stopJournal j

/-- The message of a remote SYNC (R356, R367). -/
def syncPayload (op : CtrOp) (f : SyncArgs) (x : Cx) (s : State) : Payload :=
  let j := s.findJob x.site.job
  .sync { op := op.code, counter := f.counter, fetch := f.fetch, replayable := j.elim false (·.replayable)
          replays := BitVec.ofNat 2 (j.elim 0 (·.replays)), operand := f.operand, compare := f.compare
          job := BitVec.ofNat 24 x.site.job, core := BitVec.ofNat 11 x.c, seq := BitVec.ofNat 16 x.site.seq }

/-- A remote counter operation: sent once, and complete with its answer (R313, R366). -/
def syncRemote (op : CtrOp) (f : SyncArgs) (x : Cx) : Act Word64 := do
  note x fun s => s.noteSyncDev x.site.job f.dev
  let bs ← askOnce x f.dev (8 * f.counter.toNat) (syncPayload op f x)
  pure (BitVec.ofNat 64 (ofBytes bs))

/-- SYNC with one of the seven counter operations (R304, R306, R313, R315). An identity that the job's log holds is not
applied again. -/
def syncBody (op : CtrOp) (f : SyncArgs) (x : Cx) : Act Unit := do
  drained x
  let old ← match ← findRecord x (oldOf x.c x.site.seq) with
    | some v => pure (BitVec.ofNat 64 (v.getD 0 0))
    | none => if f.remote then syncRemote op f x else syncLocal op f x
  if f.fetch then writeRun x 0 (resOpnd f.res) 0 (toBytes 8 old.toNat)

/-- The counter value that the job's log holds for this post (R284, R315, R323). -/
def postedBy (c seq : Nat) : JRec → Option (List Nat)
  | .post c' q old => if c' = c ∧ q = seq then some [old.toNat] else none
  | _ => none

/-- The post itself: the value goes to the mailbox of the job's ring, the counter stays, and the log keeps the counter's
value (R284, R306, R315). -/
def postOnce (f : SyncArgs) (v : Word64) (x : Cx) : Act Word64 := do
  let l ← once x (do
    let s ← get
    let old := s.ctr f.counter.toNat
    act fun s => (s.postMbox x.site.ring v).count Reg.SYN_OPS 1
    act fun s => s.journal x.site.job (.post x.c x.site.seq old)
    pure [old.toNat])
  pure (BitVec.ofNat 64 (l.getD 0 0))

/-- SYNC with operation POST (R284, R306, R315): a fetch writes the counter's value, of a replay the recorded one. -/
def postBody (f : SyncArgs) (x : Cx) : Act Unit := do
  drained x
  let v ← if f.postMem then do
      let bs ← readRun x 2 (resOpnd f.res) 0 8
      pure (BitVec.ofNat 64 (ofBytes bs))
    else pure f.operand
  let old ← match ← findRecord x (postedBy x.c x.site.seq) with
    | some v => pure (BitVec.ofNat 64 (v.getD 0 0))
    | none => postOnce f v x
  if f.fetch then writeRun x 0 (resOpnd f.res) 0 (toBytes 8 old.toNat)

/-! ### CLAIM -/

/-- The result of a CLAIM: its index, EXHAUSTED, ALREADY. -/
structure Claimed where
  index : Nat
  exhausted : Bool
  already : Bool
deriving DecidableEq, Repr

/-- Whether the bit of index i is set in the bitmap counters from n + 1 on. -/
def State.claimBit (s : State) (n i : Nat) : Bool := bit (s.ctr (n + 1 + i / 64)) (i % 64)

/-- Sets the bit of index i. -/
def State.setClaimBit (s : State) (n i : Nat) : State :=
  s.setCtr (n + 1 + i / 64) (s.ctr (n + 1 + i / 64) ||| BitVec.ofNat 64 (2 ^ (i % 64)))

/-- The result EXHAUSTED; the spec gives it no index, so a free value stands there. -/
def State.exhausted (s : State) : Claimed × State :=
  let (b, s) := s.free
  ({ index := bits b 0 32, exhausted := true, already := false }, s)

/-- CLAIM in mode NEXT, as one operation (R310). -/
def State.claimNext (s : State) (f : ClaimArgs) : Claimed × State :=
  let n := f.counter.toNat
  let v := (s.ctr n).toNat
  let i := if f.bm = 0 then some v
    else (List.range (64 * f.bm.toNat)).find? fun i => decide (v ≤ i) && !s.claimBit n i
  match i with
  | none => s.exhausted
  | some i =>
    if i < f.limit.toNat then
      let s := if f.bm = 0 then s else s.setClaimBit n i
      ({ index := i, exhausted := false, already := false }, s.setCtr n (BitVec.ofNat 64 (i + 1)))
    else s.exhausted

/-- CLAIM in mode EXPLICIT, as one operation (R311). -/
def State.claimExplicit (s : State) (f : ClaimArgs) : Claimed × State :=
  let n := f.counter.toNat
  let i := f.index.toNat
  if f.limit.toNat ≤ i then s.exhausted
  else if s.claimBit n i then ({ index := i, exhausted := false, already := true }, s)
  else ({ index := i, exhausted := false, already := false }, s.setClaimBit n i)

/-- A result as numbers, and back. -/
def Claimed.nums (r : Claimed) : List Nat := [r.index, r.exhausted.toNat, r.already.toNat]
def claimedOf (l : List Nat) : Claimed :=
  { index := l.getD 0 0, exhausted := decide (l.getD 1 0 = 1), already := decide (l.getD 2 0 = 1) }

/-- The journalled result of a CLAIM (R315). -/
def claimOf (c seq : Nat) : JRec → Option (List Nat)
  | .claim c' q i e a => if c' = c ∧ q = seq then some [i, e.toNat, a.toNat] else none
  | _ => none

/-- What a result does to the core: X and the strides, or the commands to skip (R299, R312). -/
def Core.claimed (k : Core) (f : ClaimArgs) (r : Claimed) : Core :=
  if r.exhausted || r.already then
    { k with xExhausted := r.exhausted, xAlready := r.already, skip := f.skip.toNat }
  else
    { k with xExhausted := false, xAlready := false, x := r.index, sRd := f.sRd.toNat, sWr := f.sWr.toNat }

/-- The 8 bytes that a CLAIM writes to res (R312). -/
def Claimed.bytes (r : Claimed) : List Byte :=
  toBytes 8 (r.index % 2 ^ 32 + r.exhausted.toNat * 2 ^ 32 + r.already.toNat * 2 ^ 33)

/-- The claim itself, counted and journalled (R310 to R312, R315). -/
def claimOnce (op : State → Claimed × State) (x : Cx) : Act Claimed := do
  let l ← once x (do
    let r ← EStateM.modifyGet op
    act fun s => ((s.count Reg.SYN_CLAIMS 1).count Reg.SYN_ALREADY r.already.toNat).count Reg.SYN_OPS 1
    act fun s => s.journal x.site.job (.claim x.c x.site.seq r.index r.exhausted r.already)
    pure r.nums)
  pure (claimedOf l)

/-- CLAIM (R304, R310 to R312, R315). -/
def claimBody (op : State → Claimed × State) (f : ClaimArgs) (x : Cx) : Act Unit := do
  drained x
  let r ← match ← findRecord x (claimOf x.c x.site.seq) with
    | some l => pure (claimedOf l)
    | none => claimOnce op x
  note x fun s => s.modCore x.c fun k => k.claimed f r
  if f.resEn then writeRun x 0 (resOpnd f.res) 0 r.bytes

/-! ### WAIT, BALLAST, FENCE -/

/-- WAIT, and BALLAST UNTIL with its filler: the condition is evaluated once, and from then on after every change of the
counter (R307). -/
def waitBody (w : WaitArgs) (b : Option BallastArgs) (x : Cx) : Act Unit := do
  let s ← get
  if waitHolds w (s.ctr w.counter.toNat) then pure ()
  else act fun s => s.modCore x.c fun k => { k with waitOn := some w, ballast := b, seqState := .waiting }

/-- Whether facet ballast has a facet of the core to drive: one that is EMPTY or LOADED (R419). -/
def Core.fillable (k : Core) : Bool := (List.range 32).any fun f => decide ((k.facet f).state = .empty ∨ (k.facet f).state = .loaded)

/-- The filler work of n F-cycles on core c: a share of L/15 of each named engine's activity (R419). -/
def State.filler (s : State) (c : Nat) (b : BallastArgs) (n : Nat) : State :=
  let w := b.level.toNat * n
  let s := if b.facets && (s.core c).fillable then s.active c 7 w else s
  if b.refractor then s.active c 8 w else s

/-- BALLAST FIXED: the sequencer's time and the activity of its filler, and nothing that the spec lets a program see (R419). -/
def ballastBody (b : BallastArgs) (cycles : BitVec 25) (x : Cx) : Act Unit :=
  act fun s => (s.modCore x.c fun k => { k with lastCycles := cycles.toNat }).filler x.c b cycles.toNat

/-- The engines of a core (R208, R295). -/
inductive Engine where
  | slot | refractor | dma | acm | transit | sparse | seq
deriving DecidableEq, Repr

/-- The engines that a command of an opcode runs on (R208, R295). -/
def opEngines (op : Nat) : List Engine :=
  match op with
  | 0x01 => [.dma]
  | 0x02 => [.slot]
  | 0x03 => [.slot]
  | 0x04 => [.acm]
  | 0x05 => [.acm, .dma]
  | 0x06 => [.refractor]
  | 0x07 => [.refractor]
  | 0x08 => [.refractor]
  | 0x09 => [.transit]
  | 0x0A => [.dma]
  | 0x0B => [.sparse]
  | 0x0C => [.sparse]
  | 0x10 => [.dma]
  | _ => [.seq]

/-- The engines of a tile command. -/
def enginesOf (i : Instr) : List Engine := opEngines (opcodeOf i)

/-- Whether a FENCE's mask covers an engine (R302). -/
def fenceCovers (mask : BitVec 5) : Engine → Bool
  | .slot => mask.getLsbD 0
  | .refractor => mask.getLsbD 1
  | .dma => mask.getLsbD 2
  | .acm => mask.getLsbD 3
  | .transit => mask.getLsbD 3
  | .sparse => mask.getLsbD 4
  | .seq => false

/-- FENCE (R303): it waits for the earlier commands on the engines of its mask, with vis for the acknowledges of their
writes, and with remote for every earlier command that writes through a window or sends a remote SYNC, and for the
acknowledges of all of those. -/
def fenceBody (f : FenceArgs) (x : Cx) : Act Unit := do
  let s ← get
  let covered (op : Nat) : Bool := (opEngines op).any (fenceCovers f.mask)
  let busy := ((s.core x.c).earlier x.site.seq).any fun i => covered (opcodeOf i.cmd) || (f.remote && i.remote)
  let acks := (f.vis && s.unacked x fun r => r.isWrite && covered r.op)
    || (f.remote && s.unacked x fun r => r.isWrite || r.isSync)
  if busy || acks then throw .hold else pure ()

/-! ### TASK, PHASE, WINDOW -/

/-- A task record with the entry of one space replaced (R219). -/
def TaskRec.set (t : TaskRec) (f : TaskArgs) : TaskRec :=
  match f.space.toNat with
  | 0 => { t with coreBase := f.base.toNat, coreBound := f.bound.toNat }
  | 1 => { t with shBase := f.base.toNat, shBound := f.bound.toNat }
  | 2 => { t with stBase := f.base.toNat, stBound := f.bound.toNat }
  | _ => { t with hoBase := f.base.toNat, hoBound := f.bound.toNat }

/-- WINDOW OPEN (R246). -/
def windowOpenBody (f : WindowArgs) (x : Cx) : Act Unit :=
  act fun s => { s with windows := s.windows ++ [(f.window.toNat,
    { job := x.site.job, dev := f.rdev, stacked := f.stacked, base := f.base.toNat, size := f.size.toNat, rd := f.rd
      wr := f.wr })] }

/-- Whether a request goes through a window. -/
def Request.through (r : Request) (w : Window) : Bool :=
  match r.payload with
  | .wr st a _ => decide (r.job = w.job ∧ r.dst = w.dev ∧ st = w.stacked ∧ a.toNat = (w.base + r.offset) % 2 ^ 48)
  | .rd st a _ => decide (r.job = w.job ∧ r.dst = w.dev ∧ st = w.stacked ∧ a.toNat = (w.base + r.offset) % 2 ^ 48)
  | _ => false

/-- WINDOW CLOSE (R249): complete once every access made through the window is; a window of another job stays. -/
def windowCloseBody (n : BitVec 6) (x : Cx) : Act Unit := do
  let s ← get
  match s.windows.find? fun w => decide (w.1 = n.toNat ∧ w.2.job = x.site.job) with
  | none => pure ()
  | some (_, w) =>
    if s.requests.any fun r => r.answer.isNone && r.through w then throw .hold
    else act fun s => { s with windows := s.windows.filter fun w => decide (w.1 ≠ n.toNat) }

/-! ### EXPO -/

/-- The slots that an EXPO names (R119). -/
def expoSlots (f : ExpoArgs) : List Nat := (List.range f.count.toNat).map (· + f.first.toNat)

/-- The memory operand of EXPO SAVE and RESTORE. -/
def expoOpers (save : Bool) (f : ExpoArgs) : List Oper :=
  [{ write := save, addr := f.addr, mode := f.tag.toNat, runs := (List.range f.count.toNat).map fun i => (64 * i, 64) }]

/-- Whether the job's log holds this EXPO as applied (R122). -/
def appliedBy (c seq : Nat) : JRec → Option (List Nat)
  | .expo c' q => if c' = c ∧ q = seq then some [] else none
  | _ => none

/-- The EXPO goes into the job's log, with its first effect (R122, R323). -/
def logExpo (x : Cx) : Act Unit := note x fun s => s.journal x.site.job (.expo x.c x.site.seq)

/-- Does the work of an EXPO, unless the log holds it as applied (R122). -/
def expoOnce (x : Cx) (f : Act Unit) : Act Unit := do
  match ← findRecord x (appliedBy x.c x.site.seq) with
  | some _ => pure ()
  | none => f

/-- Writes the records of slots in order (R119, R120); the log has its record with the first of them. -/
def saveSlots (x : Cx) (mode : Nat) (o : Opnd) : Nat → List Nat → Act Unit
  | _, [] => pure ()
  | i, n :: l => do
    let s ← get
    writeRun x mode o (64 * i) (s.expoSlot n).record
    if i = 0 then logExpo x
    saveSlots x mode o (i + 1) l

/-- EXPO SAVE (R119). -/
def expoSaveBody (f : ExpoArgs) (x : Cx) : Act Unit :=
  expoOnce x do
    let o ← x.need true f.addr
    saveSlots x f.tag.toNat o 0 (expoSlots f)

/-- The effect of one record on slot n (R119 to R121). -/
def State.restoreSlot (s : State) (x : Cx) (n : Nat) (bs : List Byte) : State :=
  match readExpo bs with
  | .ok e => s.setExpoSlot n { e with updated := s.deviceTime }
  | .error reason =>
    let s := s.setExpoSlot n (s.expoSlot n).cleared
    let s := s.count Reg.GLB_EXP_BAD_REC 1
    let s := s.setReg Reg.GLB_EXP_RESTORE_LOG (BitVec.ofNat 64 (place n 0 10 + place reason 10 2 + 2 ^ 12))
    s.postEvent { source := 4, detail := 1 + place reason 2 2, job := x.site.job, core := x.c, ring := x.site.ring
                  info0 := n }

/-- Reads the records of slots in order, as far as the first access that stops; and how it stopped. -/
def readRecords (x : Cx) (mode : Nat) (o : Opnd) : Nat → List Nat → Act (List (Nat × List Byte) × Option Stop)
  | _, [] => pure ([], none)
  | i, n :: l => do
    let r : Except Stop (List Byte) ← tryCatch (do
      let bs ← readRun x mode o (64 * i) 64
      pure (.ok bs)) fun e => pure (.error e)
    match r with
    | .error e => pure ([], some e)
    | .ok bs =>
      let (rest, e) ← readRecords x mode o (i + 1) l
      pure ((n, bs) :: rest, e)

/-- EXPO RESTORE (R119, R121): while an access waits nothing is restored; the records before a faulting access are. -/
def expoRestoreBody (f : ExpoArgs) (x : Cx) : Act Unit :=
  expoOnce x do
    let o ← x.need false f.addr
    let (rs, e) ← readRecords x f.tag.toNat o 0 (expoSlots f)
    match e with
    | some .hold => throw .hold
    | some .waits => throw .waits
    | _ =>
      logExpo x
      note x fun s => rs.foldl (fun s r => s.restoreSlot x r.1 r.2) s
      if e.isSome then throw .ended

/-- EXPO CLEAR (R119). -/
def expoClearBody (f : ExpoArgs) (x : Cx) : Act Unit :=
  expoOnce x do
    logExpo x
    note x fun s => (expoSlots f).foldl (fun s n => s.setExpoSlot n (s.expoSlot n).cleared) s

end Sys2Proof.Machine
end

