-- ==== Sys2Proof/Machine/Refusals.lean ====
section
/-!
DEFINITION. Refusal at dispatch (R297 to R302): the causes that a command shows by its own fields, and those that need the
state of the core, the job or the device. Codes are those of R300.
-/

namespace Sys2Proof.Machine

/-- A cause that holds or not. -/
def cause (n : Nat) (b : Bool) : List Nat := if b then [n] else []

/-- A tag mode, 3 is not defined (R226, R302). -/
def badTag (t : BitVec 2) : Bool := decide (t = 3)

/-- Formats of FIRE, FIRET and SPT activations (R20). -/
def isActFmt (f : BitVec 4) : Bool := decide (1 ≤ f.toNat ∧ f.toNat ≤ 5)

/-- Targets of an anchor (R108). -/
def isAnchorFmt (f : BitVec 4) : Bool := decide (1 ≤ f.toNat ∧ f.toNat ≤ 6)

/-- Signed targets of an anchor (R109). -/
def isSignedAnchor (f : BitVec 4) : Bool := isAnchorFmt f && !isUnsignedFmt f.toNat

/-- Element formats of block-scaled arrays (R98). -/
def isMxFmt (f : BitVec 4) : Bool := decide (f = 4 ∨ (8 ≤ f.toNat ∧ f.toNat ≤ 12))

/-- Float formats from FP8 up: outputs of GATHER, references of FIRE (R143, R164). -/
def isWideFmt (f : BitVec 4) : Bool := decide (0xB ≤ f.toNat)

/-- Weight formats with a compressed form (R180). -/
def isTileFmt (f : BitVec 4) : Bool := decide (f = 0 ∨ f = 1 ∨ f = 2 ∨ f = 4)

/-- An exponent source: a slot, or an immediate from −160 to 127 (R110). -/
def badExp (sel : Bool) (e : BitVec 10) : Bool := !sel && decide (e.toInt < -160 ∨ 127 < e.toInt)

/-! ### Operand addresses -/

/-- Spaces that an operand may lie in. -/
inductive Spaces where
  | any | local_ | device
deriving DecidableEq, Repr

/-- Whether a space qualifies: local_ is core or shared memory, device also stacked memory (R119, R136, R164, R217). -/
def Spaces.has : Spaces → Nat → Bool
  | .any, _ => true
  | .local_, sp => decide (sp ≤ 2)
  | .device, sp => decide (sp ≤ 3)

/-- The operand addresses of a MOVE. -/
def moveAddrs (bs : Bool) (f : MoveArgs) : List (Bool × Word64 × Spaces) :=
  [(false, f.src, .any), (true, f.dst, .any)] ++ (if bs && decide (f.bs ≠ 0) then [(true, f.scale, .any)] else [])

/-- The operand addresses that the form of a command uses: written or read, the address, where it may lie (R217, R299). A
source of FLOAD without retain (DESIGN CHOICE, log entry 103) and a table descriptor (DESIGN CHOICE, log entry 144) may lie in
any space: the spec names core, shared and stacked memory for them and states no refusal of another. -/
def addresses : Instr → List (Bool × Word64 × Spaces)
  | .fload _ _ f => [(false, f.src, .any)] ++ (if f.fmt = 8 then [(false, f.scale, .any)] else [])
  | .fire _ _ f | .firet _ _ f => if f.refFmt = 0 then [] else [(false, f.ref, .any)]
  | .acmout _ _ f => [(true, f.dst, .any)] ++ (if f.bs = 0 then [] else [(true, f.scale, .any)])
  | .refmm _ _ f => [(false, f.a, .any), (false, f.b, .any)]
  | .refew _ _ f =>
    [(false, f.a, .local_), (true, f.out, .local_)] ++ (if refewB f.op.toNat then [(false, f.b, .local_)] else [])
      ++ (if refewC f.op.toNat then [(false, f.c, .local_)] else [])
  | .reduce _ _ f => [(false, f.src, .any)] ++ (if 3 ≤ f.mode.toNat then [(true, f.out, .any)] else [])
  | .movePlain _ _ f | .moveTile _ _ f | .moveTranspose _ _ f => moveAddrs true f
  | .moveCompress _ _ f | .moveExpand _ _ f => moveAddrs false f
  | .gatherEmb _ _ f =>
    [(false, f.tdesc, .any), (false, f.idx, .local_), (true, f.out, .local_)]
      ++ (if f.formOffsets then [(false, f.offsets, .local_)] else [])
      ++ (if f.pool = 3 then [(false, f.weights, .local_)] else [])
  | .gatherSpt _ _ f => [(false, f.tile, .any), (false, f.vec, .any)]
  | .update _ _ f =>
    [(false, f.tdesc, .any), (false, f.delta, .any)] ++ (if f.formRange then [] else [(false, f.idx, .any)])
  | .expoSave _ _ f => [(true, f.addr, .device)]
  | .expoRestore _ _ f => [(false, f.addr, .device)]
  | _ => []

/-- Whether an address breaks R217, or does not lie where its command allows it. -/
def badAddress (a : Bool × Word64 × Spaces) : Bool :=
  match operandOf a.2.1 with
  | none => true
  | some o => !a.2.2.has o.space

/-! ### Causes in the command's own fields -/

/-- FLOAD (R41, R42, R45). -/
def floadCauses (f : FloadArgs) : List Nat :=
  cause 0x02 (badTag f.stag || decide (f.fmt ≠ 8 ∧ f.scale ≠ 0))
    ++ cause 0x05 (!(isTileFmt f.fmt || decide (f.fmt = 8)))
    ++ cause 0x08 (decide (f.rowCount = 0 ∨ 1024 < f.rowFirst.toNat + f.rowCount.toNat ∨ (f.fmt = 8 ∧ f.rowFirst ≠ 0)
        ∨ f.pitch.toNat < 16))
    ++ cause 0x0E (f.retain && (operandOf f.src).elim false fun o => decide (o.space ≠ 2 ∧ o.space ≠ 3))
    ++ cause 0x12 (decide (f.pitch.toNat % 16 ≠ 0))

/-- FIRE and FIRET (R20, R143, R201, R302). -/
def fireCauses (firet : Bool) (f : FireArgs) : List Nat :=
  cause 0x02 (badTag f.vtag || (!firet && decide (f.nColsM1 ≠ 0)))
    ++ cause 0x05 (!isActFmt f.afmt || !(decide (f.refFmt = 0) || isWideFmt f.refFmt))
    ++ cause 0x08 (decide (f.kRows = 0 ∨ 1024 < f.kRows.toNat ∨ f.m = 0 ∨ 512 < f.m.toNat ∨ f.mValid = 0
        ∨ f.m.toNat < f.mValid.toNat ∨ f.vpitch = 0) || badExp f.expSel f.exp)

/-- ACMINIT (R64, R79). -/
def acminitCauses (f : AcminitArgs) : List Nat :=
  cause 0x02 (decide (f.mode = 3 ∨ f.policy = 3)) ++ cause 0x08 (decide (f.count = 0 ∨ 512 < f.count.toNat))
    ++ cause 0x09 (decide (f.policy = 1 ∧ f.mode ≠ 0))

/-- ACMOUT (R98, R108, R109, R199). -/
def acmoutCauses (f : AcmoutArgs) : List Nat :=
  cause 0x02 (badTag f.dtag || decide (4 < f.bs.toNat) || (f.slotEn && isSignedAnchor f.ofmt && decide (f.zp ≠ 0)))
    ++ cause 0x05 ((decide (f.bs ≠ 0) && !isMxFmt f.ofmt) || (f.slotEn && !isAnchorFmt f.ofmt))
    ++ cause 0x08 (decide (f.m = 0 ∨ 512 < f.m.toNat ∨ f.mValid = 0 ∨ f.m.toNat < f.mValid.toNat))

/-- REFMM (R98, R128, R132). -/
def refmmCauses (f : RefmmArgs) : List Nat :=
  cause 0x02 (badTag f.atag || badTag f.btag)
    ++ cause 0x05 (decide (f.afmt = 6 ∨ f.afmt = 7 ∨ f.bfmt = 6 ∨ f.bfmt = 7) || (isIntFmt f.afmt.toNat != isIntFmt f.bfmt.toNat))
    ++ cause 0x08 (decide (512 < RefmmM f ∨ 512 < RefmmN f) || badExp false f.kRef)

/-- REFEW (R98, R108, R109, R136). -/
def refewCauses (f : RefewArgs) : List Nat :=
  let op := f.op.toNat
  cause 0x02 (decide (21 < op) || badTag f.tagA || badTag f.tagB || badTag f.tagC || badTag f.tagO
      || (decide (op = 11 ∧ f.zp ≠ 0) && isSignedAnchor f.fmtO))
    ++ cause 0x05 (decide (f.fmtA = 0) || (refewB op && decide (f.fmtB = 0)) || (refewC op && decide (f.fmtC = 0))
        || (decide (op = 11) && !isAnchorFmt f.fmtO))
    ++ cause 0x08 (decide (2 ^ 20 < refewN f))

/-- REDUCE (R98, R140). MAX, MIN and ABSMAX write every format, TRN among them (DESIGN CHOICE, log entry 143: R98 names the
output formats of other commands only). -/
def reduceCauses (f : ReduceArgs) : List Nat :=
  cause 0x02 (decide (f.mode = 7) || badTag f.stag || badTag f.otag
      || decide (¬(3 ≤ f.mode.toNat ∧ f.mode.toNat ≤ 5) ∧ f.ofmt ≠ 0))
    ++ cause 0x05 (decide (f.sfmt = 0)) ++ cause 0x08 (decide (4096 < reduceR f ∨ 2 ^ 20 < reduceN f))

/-- MOVE in modes PLAIN, TILE and TRANSPOSE (R194 to R196, R243, R244, R302). -/
def moveCauses (m : MoveMode) (f : MoveArgs) : List Nat :=
  let w := moveW f
  let scaled := decide (f.bs ≠ 0)
  cause 0x02 (decide (4 < f.esize.toNat ∨ 4 < f.bs.toNat) || badTag f.stag || badTag f.dtag)
    ++ cause 0x05 (if scaled then !isMxFmt f.fmt || decide (fmtWidth f.sfmt.toNat ≠ w)
        else decide (m = .tile ∧ fmtWidth f.fmt.toNat ≠ w))
    ++ cause 0x08 (decide (m = .tile ∧ (f.n1.toNat < f.vL.toNat ∨ f.n0.toNat < f.vE.toNat)))
    ++ cause 0x0C (decide (f.pad = 3) || (scaled && decide (f.pad ≠ 0)) || decide (m = .tile ∧ f.pad = 1 ∧ 8 ≤ f.fmt.toNat))
    ++ cause 0x0D (decide ((1 < (dstShape m f).1 ∧ f.dstS1 = 0) ∨ (1 < f.n2.toNat ∧ f.dstS2 = 0))
        || decide (m = .transpose ∧ (f.esize = 0 ∨ (scaled ∧ fmtWidth f.fmt.toNat = 6))))

/-- MOVE in modes COMPRESS and EXPAND (R180, R243, R245). -/
def tileMoveCauses (f : MoveArgs) : List Nat :=
  cause 0x02 (decide (4 < f.esize.toNat ∨ 4 < f.bs.toNat) || badTag f.stag || badTag f.dtag)
    ++ cause 0x05 (!isTileFmt f.fmt)
    ++ cause 0x08 (decide (f.n0 = 0 ∨ facetL f.fmt.toNat < f.n0.toNat ∨ f.n1 = 0 ∨ 1024 < f.n1.toNat))
    ++ cause 0x0C (decide (f.pad = 3))

/-- GATHER in mode EMB (R98, R164, R165). -/
def gatherEmbCauses (f : GatherEmbArgs) : List Nat :=
  cause 0x02 (decide (f.wfmt = 3)) ++ cause 0x05 (!isWideFmt f.ofmt)
    ++ cause 0x08 (decide (2 ^ 20 < embN f ∨ 65536 < embBags f ∨ 1024 ≤ f.lbM1.toNat))

/-- GATHER in mode SPT (R184). -/
def gatherSptCauses (f : GatherSptArgs) : List Nat :=
  cause 0x02 (badTag f.vtag) ++ cause 0x05 (!isActFmt f.afmt) ++ cause 0x08 (badExp f.expSel f.exp)

/-- UPDATE (R174). -/
def updateCauses (f : UpdateArgs) : List Nat :=
  cause 0x02 (decide (f.dfmt = 3) || (f.formRange && decide (bits f.idx 40 24 ≠ 0)))

/-- SYNC: remote POST, and the unit of res (R300). -/
def syncCauses (post : Bool) (f : SyncArgs) : List Nat :=
  cause 0x11 (post && f.remote) ++ cause 0x12 (decide (f.res.toNat % 8 ≠ 0))

/-- CLAIM (R302, R310, R311); the bitmap counters must exist. -/
def claimCauses (explicit : Bool) (f : ClaimArgs) : List Nat :=
  let bm := f.bm.toNat
  cause 0x08 (decide (64 < bm ∨ (0 < bm ∧ 64 * bm < f.limit.toNat) ∨ 8191 < f.counter.toNat + bm) || (explicit && decide (bm = 0)))
    ++ cause 0x12 (decide (f.sRd.toNat % 64 ≠ 0 ∨ f.sWr.toNat % 64 ≠ 0 ∨ f.res.toNat % 8 ≠ 0))

/-- EXPO (R119). -/
def expoCauses (memory : Bool) (f : ExpoArgs) : List Nat :=
  cause 0x02 (badTag f.tag) ++ cause 0x08 (decide (f.count = 0 ∨ 1024 < f.first.toNat + f.count.toNat))
    ++ cause 0x12 (memory && decide (f.addr.toNat % 64 ≠ 0))

/-- The limit of a space (R219). -/
def spaceLimit (sp : Nat) : Nat :=
  match sp with
  | 0 => 524288
  | 1 => 0x0F000000
  | 2 => 2 ^ 48
  | _ => 2 ^ 57

/-- TASK by itself (R219). -/
def taskCauses (f : TaskArgs) : List Nat :=
  cause 0x0F (decide (spaceLimit f.space.toNat < f.base.toNat + f.bound.toNat)) ++ cause 0x12 (decide (f.base.toNat % 64 ≠ 0))

/-- WINDOW OPEN by itself (R246, R300). -/
def windowCauses (f : WindowArgs) : List Nat :=
  cause 0x08 (decide (f.size = 0 ∨ 2 ^ 48 < f.size.toNat))
    ++ cause 0x12 (decide (f.base.toNat % 64 ≠ 0 ∨ f.size.toNat % 64 ≠ 0))

/-- The refusal causes that the fields of a tile command show by themselves, but for those of its header (R300). -/
def fieldCauses : Instr → List Nat
  | .fload _ _ f => floadCauses f
  | .fire _ _ f => fireCauses false f
  | .firet _ _ f => fireCauses true f
  | .acminit _ _ f => acminitCauses f
  | .acmout _ _ f => acmoutCauses f
  | .refmm _ _ f => refmmCauses f
  | .refew _ _ f => refewCauses f
  | .reduce _ _ f => reduceCauses f
  | .transit _ _ f => cause 0x02 (decide (f.role = 3))
  | .movePlain _ _ f => moveCauses .plain f
  | .moveTile _ _ f => moveCauses .tile f
  | .moveTranspose _ _ f => moveCauses .transpose f
  | .moveCompress _ _ f | .moveExpand _ _ f => tileMoveCauses f
  | .gatherEmb _ _ f => gatherEmbCauses f
  | .gatherSpt _ _ f => gatherSptCauses f
  | .update _ _ f => updateCauses f
  | .syncAdd _ _ f | .syncSet _ _ f | .syncMax _ _ f | .syncMin _ _ f | .syncOr _ _ f | .syncAnd _ _ f
  | .syncCas _ _ f => syncCauses false f
  | .syncPost _ _ f => syncCauses true f
  | .claimNext _ _ f => claimCauses false f
  | .claimExplicit _ _ f => claimCauses true f
  | .expoSave _ _ f | .expoRestore _ _ f => expoCauses true f
  | .expoClear _ _ f => expoCauses false f
  | .ballastFixed _ _ _ n => cause 0x08 (decide (n = 0))
  | .task _ _ f => taskCauses f
  | .windowOpen _ _ f => windowCauses f
  | _ => []

/-- Every cause that a tile command shows without the state of the machine. -/
def staticCauses (i : Instr) : List Nat :=
  match tileOf i with
  | none => []
  | some (_, h) =>
    cause 0x02 h.reserved ++ cause 0x04 (decide (h.prmN.toNat ≠ recordsNeeded i)) ++ cause 0x06 ((addresses i).any badAddress)
      ++ fieldCauses i

/-! ### Causes that need the state -/

/-- The facet that a command names. -/
def facetOf : Instr → Option Nat
  | .fload _ _ f => some f.facet.toNat
  | .fire _ _ f => some f.facet.toNat
  | .firet _ _ f => some f.facet.toNat
  | _ => none

/-- The exposure slot that a command would freeze (R110, R114). -/
def slotOf : Instr → Option Nat
  | .fire _ _ f => if f.expSel then some f.exp.toNat else none
  | .firet _ _ f => if f.expSel then some f.exp.toNat else none
  | .gatherSpt _ _ f => if f.expSel then some f.exp.toNat else none
  | .acmout _ _ f => if f.slotEn then some f.slot.toNat else none
  | .refew _ _ f => if f.op = 11 then some f.slot.toNat else none
  | _ => none

/-- The format a facet will have for a command: that of the last FLOAD issued for it and not complete, or its own. -/
def Core.facetFmt (k : Core) (fi : Nat) : Nat :=
  match (k.issued.reverse.filterMap fun i => match i.cmd with
    | .fload _ _ f => if f.facet.toNat = fi then some f.fmt.toNat else none
    | _ => none).head? with
  | some fmt => fmt
  | none => (k.facet fi).fmt.toNat

/-- FIRET on an FP4 facet, and columns beyond the facet's (R35, R36). -/
def firetCauses (k : Core) : Instr → List Nat
  | .firet _ _ f =>
    let fmt := k.facetFmt f.facet.toNat
    cause 0x05 (decide (fmt = 8)) ++ cause 0x08 (decide (facetL fmt < f.nColsM1.toNat + 1))
  | _ => []

/-- Whether, of the core's commands that wait, one that merges a TRANSIT into the rows comes before their commit point. -/
def transitAhead (rowsOf : Instr → List Nat) (rows : List Nat) : List Instr → Bool
  | [] => false
  | i :: l =>
    let meets := (rowsOf i).any rows.contains
    match i with
    | .transit _ h f =>
      if meets && transitMerges f then true else if meets && h.commit then false else transitAhead rowsOf rows l
    | .acmout _ _ _ => if meets then false else transitAhead rowsOf rows l
    | i => if meets && ((tileOf i).elim false (·.2.commit)) then false else transitAhead rowsOf rows l

/-- An ACMINIT with policy RESCALE (R80): a replayable job, an anchor since the last commit point, and no TRANSIT that
receives into its rows from the anchor to their commit point, neither issued nor in the rest of the list. -/
def rescaleCauses (s : State) (rowsOf : Instr → List Nat) (j : Job) (c : Nat) : Instr → List Nat
  | .acminit _ h f =>
    let waiting := (s.held ++ s.pending).filter fun i => (tileOf i).elim false fun p => decide (p.1 = c ∧ h.seq < p.2.seq)
    let ahead := waiting ++ s.listedAfter j c h.seq.toNat
    cause 0x09 (decide (f.policy = 1) && (!j.replayable
      || ((s.core c).lastAnchor.elim true fun a => a.rows.any (acminitRows f).contains)
      || transitAhead rowsOf (acminitRows f) ahead))
  | _ => []

/-- TASK outside the ring's limits (R219, R257). -/
def taskLimitCauses (s : State) (ring : Nat) : Instr → List Nat
  | .task _ _ f =>
    let lo := (s.reg (Reg.HQ_LIM_BASE ring f.space.toNat)).toNat
    let hi := (s.reg (Reg.HQ_LIM_END ring f.space.toNat)).toNat
    cause 0x0F (decide (0 < f.bound.toNat ∧ (f.base.toNat < lo ∨ hi < f.base.toNat + f.bound.toNat)))
  | _ => []

/-- A remote SYNC that names the device itself, and the OPEN of an open window (R300). -/
def nameCauses (s : State) : Instr → List Nat
  | .syncAdd _ _ f | .syncSet _ _ f | .syncMax _ _ f | .syncMin _ _ f | .syncOr _ _ f | .syncAnd _ _ f
  | .syncCas _ _ f => cause 0x11 (f.remote && decide (f.dev.toNat = s.selfDev))
  | .windowOpen _ _ f => cause 0x10 (s.windows.any fun w => decide (w.1 = f.window.toNat))
  | _ => []

/-- An operand address whose claim offset carries beyond its space (R299, R300). -/
def indexCauses (k : Core) (h : Hdr) (i : Instr) : List Nat :=
  cause 0x06 ((addresses i).any fun a =>
    (operandOf a.2.1).elim false fun o =>
      (o.shifted h.indexed (k.x * (if a.1 then k.sWr else k.sRd))).isNone)

/-- Every cause of a tile command that reaches the head of its buffer (R300). -/
def causes (s : State) (rowsOf : Instr → List Nat) (j : Job) (c : Nat) (h : Hdr) (i : Instr) : List Nat :=
  let k := s.core c
  staticCauses i
    ++ cause 0x03 (decide (h.seq.toNat ≠ k.nextSeq))
    ++ cause 0x04 (decide (h.prmN ≠ 0 ∧ (h.prm.toNat < j.desc.cmdCount ∨ 2 * j.desc.listStride < h.prm.toNat + h.prmN.toNat)))
    ++ cause 0x07 ((facetOf i).elim false fun n => !bit (s.reg (Reg.HQ_SQ_FACETS j.ring)) n)
    ++ firetCauses k i ++ rescaleCauses s rowsOf j c i ++ taskLimitCauses s j.ring i ++ nameCauses s i ++ indexCauses k h i

/-- The least of the causes. -/
def leastCause (l : List Nat) : Option Nat := l.min?

end Sys2Proof.Machine
end

