-- ==== Sys2Proof/Machine/Clamp.lean ====
section
/-!
DEFINITION. What the device makes of a written register value: the RW bits alone, with the fields that it clamps clamped
(R12, R287, and the field maps of the chapters).
-/

namespace Sys2Proof.Machine

/-- The field [lo + n - 1 : lo] of v clamped to a .. b. -/
def clampField (v : Word64) (lo n a b : Nat) : Word64 := setBits v lo n (clampNat a b (bits v lo n))

/-- The space of an HQ_LIM_END(n, s) register, by its offset. -/
def limEndSpace (off : Nat) : Option Nat :=
  let o := (off - 0x00101000) % 0x100
  if 0x00101000 ≤ off ∧ off < 0x00103000 ∧ 0x40 ≤ o ∧ o < 0x80 ∧ o % 16 = 8 then some ((o - 0x48) / 16) else none

/-- The fields of the register at off clamped as its field map says. -/
def clampAt (off : Nat) (v : Word64) : Word64 :=
  if (coreOffset off).elim false (fun e => decide (e.2 = 0x400)) then clampField v 2 5 6 16
  else if off = Reg.HQ_EQ_CTRL then clampField v 1 5 6 16
  else if 0x00101000 ≤ off ∧ off < 0x00103000 ∧ off % 0x100 = 0 then
    let v := clampField v 4 5 6 16
    if bits v 9 1 = 0 ∧ bits v 10 2 = 2 then setBits v 10 2 1 else v
  else if (limEndSpace off).isSome then BitVec.ofNat 64 (min v.toNat (spaceLimit ((limEndSpace off).getD 0)))
  else if off = Reg.GLB_JNL_CTRL then clampField v 0 17 64 65536
  else if off = Reg.HLS_CAP then clampField v 0 10 400 750
  else if off = Reg.HLS_SLEW then clampField (clampField v 0 8 5 255) 8 8 5 255
  else if off = Reg.HLS_DROOP_CTRL then clampField v 0 7 20 100
  else if off = Reg.HLS_THERM_CTRL then
    let v := clampField v 0 8 70 100
    clampField v 8 8 (bits v 0 8 + 5) 110
  else if off = Reg.HLS_POOL_CTRL then clampField v 24 6 4 63
  else if off = Reg.CFG_EPOCH_CTRL then clampField v 0 12 5 4095
  else if off = Reg.CFG_BEAT then clampField v 0 14 10 10000
  else if off = Reg.NRN_TIME_CTRL then clampField v 1 8 4 255
  else if off = Reg.SMC_PHYS_ADDR then
    BitVec.ofNat 64 (min v.toNat (287997689856 - 8))
  else if off = Reg.SHM_IDLE then clampField v 0 16 64 65535
  else if off = Reg.SHM_EXPORT_LIMIT then BitVec.ofNat 64 (min v.toNat 0x0F000000)
  else if off = Reg.COL_CTRL then clampField v 8 8 1 168
  else if off = Reg.PLX_CTRL then
    let v := clampField v 1 5 4 20
    setBits v 9 4 (max (bits v 6 3) (bits v 9 4))
  else v

/-- The RW bits of the register at off. -/
def rwMask (off : Nat) : Nat := (regRow off).elim 0 (·.rw)

/-- What the register at off holds after a write of v that covers all of it. -/
def normalReg (off : Nat) (v : Word64) : Word64 := clampAt off (v &&& BitVec.ofNat 64 (rwMask off))

end Sys2Proof.Machine
end

