-- ==== Sys2Proof/Machine/Keccak.lean ====
section
/-!
DEFINITION. The hash functions that the spec names by their standards (PRESUMED from those standards, the log says so):
SHAKE256 and SHA3-384 of FIPS 202 and KMAC256 of SP 800-185 (R380, R451, R453, R463, R465, R466).
-/

namespace Sys2Proof.Machine

/-! ### The permutation -/

/-- The 25 lanes of a sponge, lane x + 5·y. -/
abbrev Lanes := List Word64

/-- One lane. -/
def lane (a : Lanes) (x y : Nat) : Word64 := a.getD (x % 5 + 5 * (y % 5)) 0

/-- The lanes given by a function of x and y. -/
def lanesOf (f : Nat → Nat → Word64) : Lanes := (List.range 25).map fun i => f (i % 5) (i / 5)

/-- The parity of column x. -/
def columnParity (a : Lanes) (x : Nat) : Word64 := (List.range 5).foldl (fun w y => w ^^^ lane a x y) 0

/-- The step theta. -/
def keccakTheta (a : Lanes) : Lanes :=
  let c := (List.range 5).map (columnParity a)
  let d := (List.range 5).map fun x => c.getD ((x + 4) % 5) 0 ^^^ (c.getD ((x + 1) % 5) 0).rotateLeft 1
  lanesOf fun x y => lane a x y ^^^ d.getD x 0

/-- Rotation of each lane. -/
def keccakRotations : List Nat :=
  [0, 1, 62, 28, 27, 36, 44, 6, 55, 20, 3, 10, 43, 25, 39, 41, 45, 15, 21, 8, 18, 2, 61, 56, 14]

/-- The steps rho and pi. -/
def keccakRhoPi (a : Lanes) : Lanes :=
  lanesOf fun x y =>
    let sx := (x + 3 * y) % 5
    (lane a sx x).rotateLeft (keccakRotations.getD (sx + 5 * x) 0)

/-- The step chi. -/
def keccakChi (a : Lanes) : Lanes := lanesOf fun x y => lane a x y ^^^ (~~~(lane a (x + 1) y) &&& lane a (x + 2) y)

/-- The constants of the step iota. -/
def keccakRounds : List Word64 :=
  [0x0000000000000001, 0x0000000000008082, 0x800000000000808A, 0x8000000080008000, 0x000000000000808B,
   0x0000000080000001, 0x8000000080008081, 0x8000000000008009, 0x000000000000008A, 0x0000000000000088,
   0x0000000080008009, 0x000000008000000A] ++
  [0x000000008000808B, 0x800000000000008B, 0x8000000000008089, 0x8000000000008003, 0x8000000000008002,
   0x8000000000000080, 0x000000000000800A, 0x800000008000000A, 0x8000000080008081, 0x8000000000008080,
   0x0000000080000001, 0x8000000080008008]

/-- One round. -/
def keccakRound (a : Lanes) (rc : Word64) : Lanes :=
  match keccakChi (keccakRhoPi (keccakTheta a)) with
  | w :: l => (w ^^^ rc) :: l
  | [] => []

/-- The permutation of 24 rounds. -/
def keccakF (a : Lanes) : Lanes := keccakRounds.foldl keccakRound a

/-! ### The sponge -/

/-- The bytes of a message with domain bits and padding, a whole number of blocks. -/
def spongePad (rate domain : Nat) (m : List Byte) : List Byte :=
  let n := rate - m.length % rate
  if n = 1 then m ++ [BitVec.ofNat 8 (domain + 0x80)]
  else m ++ BitVec.ofNat 8 domain :: List.replicate (n - 2) 0 ++ [0x80]

/-- Takes in one block. -/
def absorbBlock (a : Lanes) (block : List Byte) : Lanes :=
  keccakF (a.mapIdx fun i w => w ^^^ BitVec.ofNat 64 (ofBytes ((block.drop (8 * i)).take 8)))

/-- Gives out n blocks. -/
def squeeze (rate : Nat) : Nat → Lanes → List Byte
  | 0, _ => []
  | n + 1, a => (a.flatMap fun w => toBytes 8 w.toNat).take rate ++ squeeze rate n (keccakF a)

/-- A sponge with a rate of so many bytes: n bytes of its output over m. -/
def sponge (rate domain : Nat) (m : List Byte) (n : Nat) : List Byte :=
  let p := spongePad rate domain m
  let blocks := (List.range (p.length / rate)).map fun i => (p.drop (rate * i)).take rate
  (squeeze rate (ceilDiv n rate) (blocks.foldl absorbBlock (List.replicate 25 0))).take n

/-- SHAKE256 with an output of n bytes. -/
def shake256 (m : List Byte) (n : Nat) : List Byte := sponge 136 0x1F m n

/-- SHA3-384. -/
def sha3_384 (m : List Byte) : List Byte := sponge 104 0x06 m 48

/-! ### KMAC256 -/

/-- The bytes of a string of ASCII characters. -/
def ascii (s : String) : List Byte := s.toList.map fun c => BitVec.ofNat 8 c.toNat

/-- The shortest big-endian bytes of a length below 2^32. -/
def lengthBytes (n : Nat) : List Byte :=
  let k := if n < 2 ^ 8 then 1 else if n < 2 ^ 16 then 2 else if n < 2 ^ 24 then 3 else 4
  (toBytes k n).reverse

/-- left_encode of SP 800-185. -/
def leftEncode (n : Nat) : List Byte := let b := lengthBytes n; BitVec.ofNat 8 b.length :: b

/-- right_encode of SP 800-185. -/
def rightEncode (n : Nat) : List Byte := let b := lengthBytes n; b ++ [BitVec.ofNat 8 b.length]

/-- encode_string of SP 800-185. -/
def encodeString (m : List Byte) : List Byte := leftEncode (8 * m.length) ++ m

/-- bytepad of SP 800-185. -/
def bytepad (m : List Byte) (w : Nat) : List Byte :=
  let p := leftEncode w ++ m
  p ++ List.replicate ((w - p.length % w) % w) 0

/-- KMAC256 with a 256-bit output (R465, R466): key, message, customisation string. -/
def kmac256 (key m : List Byte) (custom : String) : List Byte :=
  sponge 136 0x04 (bytepad (encodeString (ascii "KMAC") ++ encodeString (ascii custom)) 136
    ++ bytepad (encodeString key) 136 ++ m ++ rightEncode 256) 32

end Sys2Proof.Machine
end

