-- ==== Sys2Proof/Machine/Schedule.lean ====
section
/-!
DEFINITION. Which job may start, resume or pre-empt: the fields of a ring, the head job of each ring and when it is
admissible (R269), the order of admissions (R270), the victims of a pre-emption (R272) and when a pre-empted job may
resume (R275).
-/

namespace Sys2Proof.Machine

/-! ### Fields of a ring -/

/-- Entries of ring n (R255). -/
def State.ringSize (s : State) (n : Nat) : Nat := 2 ^ s.fld (Reg.HQ_SQ_CTRL n) 4 5

/-- Whether ring n is in use. -/
def State.ringEn (s : State) (n : Nat) : Bool := decide (s.fld (Reg.HQ_SQ_CTRL n) 0 1 = 1)

/-- Priority of ring n, 0 the highest (R269). -/
def State.prio (s : State) (n : Nat) : Nat := s.fld (Reg.HQ_SQ_CTRL n) 2 2

/-- Whether ring n is a V1 ring (R290). -/
def State.isV1 (s : State) (n : Nat) : Bool := decide (s.fld (Reg.HQ_SQ_CTRL n) 9 1 = 1)

/-- Notice mode of ring n (R287). -/
def State.noticeMode (s : State) (n : Nat) : Nat := s.fld (Reg.HQ_SQ_CTRL n) 10 2

/-- The fetched jobs of ring n without a completion record. -/
def State.jobsOf (s : State) (n : Nat) : List Job := s.jobs.filter fun j => decide (j.ring = n)

/-- Whether a job has not started. -/
def Job.unstarted (j : Job) : Bool := decide (j.phase = .waiting ∨ j.phase = .epochHeld)

/-! ### Head jobs -/

/-- The first unstarted job of ring n (R269). -/
def State.headJob (s : State) (n : Nat) : Option Job := (s.jobsOf n).find? (·.unstarted)

/-- Whether two jobs share a core. -/
def Job.meets (j k : Job) : Bool := j.cores.any k.cores.contains

/-- Whether job j may pre-empt the job v (R272, R274, R330). -/
def State.mayPreempt (s : State) (j v : Job) : Bool :=
  v.phase.executes && v.status.isNone && v.contained.isNone && !v.desc.noPreempt && !(s.ring v.ring).saveFail
    && decide (s.prio j.ring < s.prio v.ring) && decide (s.reg (Reg.HQ_SAVE_BASE v.ring) ≠ 0)

/-- The job that holds core c. -/
def State.holder (s : State) (c : Nat) : Option Job := s.findJob (s.core c).job

/-- Whether core c is free for job j, or held only by a job that it may pre-empt (R269). -/
def State.coreFor (s : State) (j : Job) (c : Nat) : Bool := (s.holder c).elim true (s.mayPreempt j)

/-- Whether head job j is admissible (R269). No job starts on cores that are reserved for a pre-empted job of equal or
higher priority (R275), and none while the device is not in RUN, has not booted, is SCRAPPED, or has stopped for a FATAL fault (R7, R339, R456, R472). -/
def State.admissible (s : State) (j : Job) : Bool :=
  decide (j.phase = .waiting) && j.status.isNone && !(s.ring j.ring).aborting
    && j.cores.all (s.coreFor j)
    && (!j.desc.startEn || decide (j.desc.startValue ≤ s.ctr j.desc.startCtr))
    && (!j.desc.order || (s.jobsOf j.ring).all fun k => decide (j.idx ≤ k.idx))
    && s.jobs.all (fun k => !(decide (k.phase = .preempted ∧ s.prio k.ring ≤ s.prio j.ring) && j.meets k))
    && decide (s.power.state = .run) && !s.module.fatal && s.uarid.booted && !s.uarid.lifecycle.getLsbD 2

/-- The admissible head jobs, by ring. -/
def State.admissibles (s : State) : List Job :=
  ((List.range 32).filterMap s.headJob).filter s.admissible

/-- Place of a ring in the order of admissions: priority, then rotation from the ring admitted last (R270). -/
def State.rank (s : State) (n : Nat) : Nat := 32 * s.prio n + (n + 31 - s.lastRing % 32) % 32

/-- Whether every core of a job is free. -/
def State.coresFree (s : State) (j : Job) : Bool := j.cores.all fun c => decide ((s.core c).job = 0)

/-- Whether a pre-empted job may resume: its cores are free, no job of higher priority is admissible on one of them, and
no replay takes precedence (R275, R328). -/
def State.resumable (s : State) (p : Job) : Bool :=
  decide (p.phase = .preempted) && p.status.isNone && s.coresFree p
    && s.admissibles.all (fun j => !(decide (s.prio j.ring < s.prio p.ring) && j.meets p))
    && s.jobs.all (fun k => !(k.contained.isSome && k.replayable && decide (k.replays < 3)
      && decide (s.prio k.ring ≤ s.prio p.ring) && k.meets p))
    && decide (s.power.state = .run) && !s.module.fatal

/-- Whether a job of better place in the order, or a resumption or a replay that takes precedence, claims a core of j
(R270, R275, R328). -/
def State.outranked (s : State) (j : Job) : Bool :=
  s.admissibles.any (fun k => decide (s.rank k.ring < s.rank j.ring) && k.meets j)
    || s.jobs.any fun p => decide (s.prio p.ring ≤ s.prio j.ring) && p.meets j
        && (s.resumable p || (p.contained.isSome && p.replayable && decide (p.replays < 3)))

/-- The job that an admission starts now (R270). -/
def State.toAdmit (s : State) : Option Job :=
  (s.admissibles.filter fun j => s.coresFree j && !s.outranked j).foldl
    (fun b j => match b with
      | none => some j
      | some k => if s.rank j.ring < s.rank k.ring then some j else some k) none

/-! ### Pre-emption -/

/-- The head job for which ring n pre-empts now: its only obstacle is cores held by its victims (R272). -/
def State.preemptor (s : State) (n : Nat) : Option Job :=
  (s.headJob n).filter fun j => s.admissible j && !s.coresFree j && !s.outranked j

/-- The jobs whose cores a job needs. -/
def State.victims (s : State) (j : Job) : List Job := s.jobs.filter fun v =>
  decide (v.num ≠ 0) && j.cores.any fun c => decide ((s.core c).job = v.num)

/-- Whether the job on core c is being stopped by an abort of its ring or by a pre-emption that waits for a tile boundary
(R272, R277). -/
def State.stopping (s : State) (c : Nat) : Bool :=
  (s.holder c).elim false fun v =>
    (s.ring v.ring).aborting || s.held.any fun i => match i with
      | .preempt n => (s.preemptor n.toNat).elim false fun j => j.meets v
      | _ => false

/-- Whether the clock of core c's cluster is stopped (R405). -/
def State.clockStopped (s : State) (c : Nat) : Bool := (s.power.clusters[c / 64]?).elim false (·.stopped)

end Sys2Proof.Machine
end

