-- ==== Sys2Proof/Machine/Tile.lean ====
section
/-!
DEFINITION. The path of a tile command through its core: what it names (engines, tile rows, facet, memory operands), the
check at the head of the buffer, skipping, issue with its snapshot, latched exponent and bookings, what it waits for, its run,
and its completion with the commit point (R68, R86, R110, R154, R157, R208, R226, R227, R230, R238, R294 to R304, R312).
-/

namespace Sys2Proof.Machine

/-! ### What a command names -/

/-- The tile rows that a command names (R62, R64, R68, R91, R134, R140, R185, R199). -/
def rowsOf (s : State) (x : Cx) : Instr → List Nat
  | .fire _ _ f => fireRows s x false f
  | .firet _ _ f => fireRows s x true f
  | .acminit _ _ f => acminitRows f
  | .acmout _ _ f => acmoutRows f
  | .refmm _ _ f => refmmRows s x f
  | .reduce _ _ f => reduceRows f
  | .transit _ _ f => transitRows f
  | .gatherSpt _ _ f => sptRows s x f
  | _ => []

/-- The operand of the fetch of a SYNC, or of the result of a CLAIM: written with tag mode OVER (R306, R312). -/
def resOper (res : BitVec 19) (en : Bool) : List Oper :=
  if en then [{ write := true, addr := BitVec.ofNat 64 res.toNat, mode := 0, runs := [(0, 8)] }] else []

/-- The memory operands of a command, as the scoreboard, the tags and the bookings see them (R226, R230, R238). -/
def opersOf (s : State) (x : Cx) : Instr → List Oper
  | .fload _ _ f => floadOpers f
  | .fire _ _ f => fireOpers false f
  | .firet _ _ f => fireOpers true f
  | .acmout _ _ f => acmoutOpers f
  | .refmm _ _ f => refmmOpers f
  | .refew _ _ f => refewOpers f
  | .reduce _ _ f => reduceOpers f
  | .movePlain _ _ f => moveOpers .plain f
  | .moveTile _ _ f => moveOpers .tile f
  | .moveTranspose _ _ f => moveOpers .transpose f
  | .moveCompress _ _ f => compressOpers f
  | .moveExpand _ _ f => expandOpers s x f
  | .gatherEmb _ _ f => embOpers s x f
  | .gatherSpt _ _ f => sptOpers s x f
  | .update _ _ f => updateOpers s x f
  | .syncAdd _ _ f | .syncSet _ _ f | .syncMax _ _ f | .syncMin _ _ f | .syncOr _ _ f | .syncAnd _ _ f
  | .syncCas _ _ f => resOper f.res f.fetch
  | .syncPost _ _ f =>
    resOper f.res f.fetch
      ++ (if f.postMem then [{ write := false, addr := BitVec.ofNat 64 f.res.toNat, mode := 2, runs := [(0, 8)] }] else [])
  | .claimNext _ _ f | .claimExplicit _ _ f => resOper f.res f.resEn
  | .expoSave _ _ f => expoOpers true f
  | .expoRestore _ _ f => expoOpers false f
  | _ => []

/-- Whether later commands wait for a command's completion before they start (R303, R304, R307, R419). -/
def blocks (i : Instr) : Bool :=
  match opcodeOf i with
  | 0x0E => true
  | 0x0F => true
  | 0x12 => true
  | 0x13 => true
  | _ => false

/-- The exposure slots that an EXPO changes or writes out (R122). -/
def expoOf : Instr → List Nat
  | .expoSave _ _ f | .expoRestore _ _ f | .expoClear _ _ f => expoSlots f
  | _ => []

/-- The command at its core: what its body knows. -/
def cxOf (j : Job) (c : Nat) (h : Hdr) (i : Instr) (iss : Issued) : Cx :=
  { site := { job := j.num, ring := j.ring, core := c, seq := h.seq.toNat, op := opcodeOf i }, h := h, iss := iss
    replay := j.desc.replay, wake := j.desc.wake }

/-- Whether a command writes through a window or sends a remote SYNC (R303). -/
def isRemote (s : State) (x : Cx) : Instr → Bool
  | .syncAdd _ _ f | .syncSet _ _ f | .syncMax _ _ f | .syncMin _ _ f | .syncOr _ _ f | .syncAnd _ _ f
  | .syncCas _ _ f => f.remote
  | i => (opersOf s x i).any fun p => p.write && decide (bits p.addr 60 4 = 5)

/-- The record of a command of job j that issues on core c now, before its footprint is known (R144, R221, R299). -/
def State.issueRecord (s : State) (j : Job) (c : Nat) (i : Instr) (h : Hdr) : Issued :=
  let k := s.core c
  { cmd := i, seq := h.seq.toNat, task := k.task, x := k.x, sRd := k.sRd, sWr := k.sWr, plx := s.epochReg j Reg.PLX_CTRL
    plxSeed := s.epochReg j Reg.PLX_SEED, exp := none, remote := false, reads := [], writes := [], takes := [], rows := []
    banks := [], hot := [], issuedAt := s.ticks, started := false, since := s.ticks, log := [], cursor := 0, mark := 0
    bytes := [], filled := [], rowsDone := [], onTag := false, sbHeld := false, rowHeld := false, done := false }

/-- The exposure slot that a command freezes, or whose frozen value it latches, as it issues (R110, R114): none for a FIRE
or FIRET whose facet it could not use now, which latches when it starts (log entry 137). -/
def latchOf (s : State) (x : Cx) : Instr → Option Freeze
  | .fire _ _ f | .firet _ _ f =>
    let k := s.core x.c
    let loading := (k.earlier x.site.seq).any fun e => !e.done && decide (opcodeOf e.cmd = 1 ∧ facetOf e.cmd = some f.facet.toNat)
    let st := (k.facet f.facet.toNat).state
    if f.expSel ∧ (loading ∨ (st ≠ .stale ∧ st ≠ .faulty)) then
      some ⟨f.exp.toNat, (anchorBits f.afmt.toNat).getD 0, none, false⟩
    else none
  | .gatherSpt _ _ f => if f.expSel then some ⟨f.exp.toNat, (anchorBits f.afmt.toNat).getD 0, none, false⟩ else none
  | .acmout _ _ f => if f.slotEn then some (acmoutFreeze s x f) else none
  | .refew _ _ f =>
    if f.op = 11 then some ⟨f.slot.toNat, (anchorBits f.fmtO.toNat).getD 0, autoCold f.fmtA.toNat, true⟩ else none
  | _ => none

/-- An issued command's record takes its footprint (R86, R226, R230, R238, R303) and its exponent (R110). -/
def State.record (s : State) (x : Cx) (i : Instr) : State :=
  let rows := rowsOf s x i
  let remote := isRemote s x i
  let s := x.mod (fun r => { r with rows := rows, remote := remote }) (s.footprint x (opersOf s x i))
  (latchOf s x i).elim s (s.latchExp x)

/-! ### Waiting -/

/-- The context of an issued command of a core, with what it named at its issue. -/
def Cx.of (x : Cx) (i : Issued) : Cx :=
  { x with site := { x.site with seq := i.seq, op := opcodeOf i.cmd }, iss := i, h := (tileOf i.cmd).elim x.h (·.2) }

/-- The context of an issued command of core c of job j. -/
def issuedCx (j : Job) (c : Nat) (r : Issued) : Cx :=
  cxOf j c ((tileOf r.cmd).elim ⟨false, false, false, false, 0, false, 0, 0⟩ (·.2)) r.cmd r

/-- Whether two lists share an element. -/
def meet (a b : List Nat) : Bool := a.any b.contains

/-- FLOAD against FIRE on one facet, either way round (R39). -/
def facetBusy (i : Instr) (e : Issued) : Bool :=
  match facetOf i, facetOf e.cmd with
  | some a, some b => decide (a = b) && (decide (opcodeOf i = 1) || decide (opcodeOf e.cmd = 1))
  | _, _ => false

/-- Whether an earlier incomplete command of the core keeps this one from starting: the same engine (R208), or the facet
(R39). -/
def heldBy (i : Instr) (e : Issued) : Bool := (enginesOf i).any (enginesOf e.cmd).contains || facetBusy i e

/-- Whether a pending check holds this command back: a FLOAD of its facet (R154), the refractor of an urgent one (R150,
R152). -/
def checkHolds (k : Core) (i : Instr) : Bool :=
  k.check.elim false fun p =>
    (decide (opcodeOf i = 1) && decide (facetOf i = some p.facet)) || (p.urgent && (enginesOf i).contains .refractor)

/-- The incomplete commands of a core for its sparse engine. -/
def Core.sparseCmds (k : Core) : List Issued := k.issued.filter fun r => !r.done && (enginesOf r.cmd).contains .sparse

/-- The place of core c in the rotation of its sparse engine (R157): the core after the one served last comes first. -/
def State.speTurn (s : State) (c : Nat) : Nat := (c % 64 + 64 - Sparse.get 0 s.speLast (c / 64) % 64) % 64

/-- Whether core d's next command for the sparse engine goes before a command of core c that came at t (R157): it runs
already, it came earlier, or it came in the same tick and the rotation reaches core d first. -/
def State.speBefore (s : State) (d c t : Nat) : Bool :=
  (s.core d).sparseCmds.any (·.started)
    || ((s.core d).sparseCmds.head?).elim false fun r =>
      decide (r.issuedAt < t ∨ (r.issuedAt = t ∧ s.speTurn d < s.speTurn c))

/-- Whether the sparse engine of the cluster serves another core before this command (R157). -/
def State.sparseBusy (s : State) (x : Cx) (i : Instr) : Bool :=
  (enginesOf i).contains .sparse && !x.iss.started
    && s.cores.any fun e => decide (e.1 / 64 = x.c / 64 ∧ e.1 ≠ x.c) && s.speBefore e.1 x.c x.iss.issuedAt

/-- Whether a bubble holds a command in this F-cycle of its cluster (R412): firing slot, refractor, DMA channel, sparse
engine. -/
def State.bubbles (s : State) (c : Nat) (i : Instr) : Bool :=
  ((s.power.clusters[c / 64]?).elim false (·.bubble))
    && (enginesOf i).any fun e => match e with
      | .slot => true
      | .refractor => true
      | .dma => true
      | .sparse => true
      | _ => false

/-- Whether every earlier command and every other condition lets a command go on. -/
def ready (s : State) (x : Cx) (i : Instr) : Bool :=
  let k := s.core x.c
  !((k.earlier x.site.seq).any fun e => !e.done && heldBy i e) && !checkHolds k i && !s.sparseBusy x i && !s.bubbles x.c i

/-! ### Completion -/

/-- Whether a command belongs to a rescale group that has overflowed: its further writes are dropped (R81). -/
def Core.dropped (k : Core) (seq : Nat) : Bool := k.group.elim false fun g => g.overflow && decide (g.anchor.seq ≤ seq)

/-- A completed or abandoned command leaves the core: its record with its bookings, its answered requests, its answered page
requests. -/
def State.retire (s : State) (x : Cx) : State :=
  let s := ((s.issuedOf x.c x.site.seq).elim s s.release).modCore x.c fun k =>
    { k with issued := k.issued.filter fun i => i.seq ≠ x.site.seq }
  { s with
    requests := s.requests.filter fun r =>
      !(decide (r.job = x.site.job ∧ r.core = x.c ∧ r.seq = x.site.seq) && r.answer.isSome)
    pageReqs := s.pageReqs.filter fun r =>
      !(decide (r.job = x.site.job ∧ r.core = x.c ∧ r.seq = x.site.seq) && r.answered) }

/-- Whether a command's completion is a commit point (R68). -/
def commits (h : Hdr) (i : Instr) : Bool := h.commit || decide (opcodeOf i = 5)

/-- A command whose work is done completes with its commit point, or waits for the check that covers one of its rows
(R68, R153). A command that runs to its end after its job has stopped commits nothing (R204, R321). -/
def State.completeTile (s : State) (x : Cx) (i : Instr) : State :=
  let k := s.core x.c
  let rows := if x.replay && commits x.h i then x.iss.rows else []
  if k.dropped x.site.seq ∨ rows = [] ∨ s.jobStopped x.site.job then s.retire x
  else if k.check.elim false fun p => meet p.rows rows then s.hold i
  else
    let q (p : Nat) : Bool := rows.any fun t => decide (t % 256 = p)
    ((s.commitPoint x.site.job x.c x.site.seq q).closeGroup x.site.job x.c q).retire x

/-- The slots of a completed command take their tags (R226): those it has filled without having set them FULL yet, and those
it takes, which become EMPTY unless it has filled them itself. -/
def State.finishTags (s : State) (x : Cx) : State :=
  (s.issuedOf x.c x.site.seq).elim s fun r =>
    let s := (r.filled.filter fun k => decide (Sparse.get 0 r.writes k ≠ 0)).foldl
      (fun s k => s.setFull (k / 8192) (k % 8192) true) s
    (r.takes.filter fun k => !r.filled.contains k).foldl (fun s k => s.setFull (k / 8192) (k % 8192) false) s

/-! ### The run -/

/-- A command starts its run, or goes on with it: the sequencer's own commands count as started once they have done
something (log entry 138); a command that the sparse engine takes is noted there (R157). -/
def State.startRun (s : State) (x : Cx) (i : Instr) : State :=
  let s : State := if (enginesOf i).contains .sparse ∧ !x.iss.started then
      { s with speLast := Sparse.set 0 s.speLast (x.c / 64) (x.c % 64 + 1) }
    else s
  x.mod (fun r => { r with started := r.started || !(enginesOf i).contains .seq
                           since := if r.started then r.since else s.ticks, cursor := 0, onTag := false }) s

/-- A command that has to wait: one of the sequencer that has done something has started. -/
def State.pauseRun (s : State) (x : Cx) (i : Instr) : State :=
  State.hold (x.mod (fun r => { r with started := r.started || !r.log.isEmpty }) s) i

/-- A command whose work has come to its end. -/
def State.endRun (s : State) (x : Cx) (i : Instr) : State :=
  if waits i && (s.core x.c).waitOn.isSome then s
  else (x.mod (fun r => { r with done := true }) (s.finishTags x)).completeTile x i

/-- Tries to run an issued command: held while it must wait; else its body, and on its end its completion. A command that
waits on a tag, a page, a counter or a TRANSIT after its job has stopped is abandoned (R227, R321). -/
def State.runIssued (s : State) (i : Instr) (body : Cx → Act Unit) (x : Cx) : State :=
  if (s.core x.c).dropped x.site.seq then s.retire x
  else if x.iss.done then s.completeTile x i
  else if !ready s x i then s.hold i
  else
    match (body x).run (s.startRun x i) with
    | .ok _ t => t.endRun x i
    | .error .hold t => t.pauseRun x i
    | .error .waits t => if t.jobStopped x.site.job then t.retire x else t.pauseRun x i
    | .error .ended t => t.retire x

/-! ### Issue -/

/-- The anchor that a command becomes as it issues on core k (R80, R81). -/
def Core.anchorNow (k : Core) (seq : Nat) (slot : Nat) : Anchor :=
  { seq := seq, slot := some slot, task := k.task, x := k.x, xExhausted := k.xExhausted, xAlready := k.xAlready, sRd := k.sRd
    sWr := k.sWr, rows := [] }

/-- What issue does to the anchor and the rescale group (R80, R81): a commit point ends the search for an anchor, and where
it meets the group's rows the group closes with it; an ACMINIT of policy RESCALE joins the group or opens it. -/
def Core.onGroup (k : Core) (i : Instr) (h : Hdr) (rows : List Nat) : Core :=
  let k := if commits h i then
      { k with lastAnchor := none
               group := k.group.map fun g => if meet g.rows rows then { g with closing := some h.seq.toNat } else g }
    else k
  match i with
  | .acmout _ _ f => if f.slotEn then { k with lastAnchor := some (k.anchorNow h.seq.toNat f.slot.toNat) } else k
  | .refew _ _ f => if f.op = 11 then { k with lastAnchor := some (k.anchorNow h.seq.toNat f.slot.toNat) } else k
  | .transit _ _ f =>
    if transitMerges f then { k with lastAnchor := k.lastAnchor.map fun a => { a with rows := a.rows ++ transitRows f } } else k
  | .acminit _ _ f =>
    if f.policy = 1 then
      match k.group, k.lastAnchor with
      | some g, _ => { k with group := some { g with rows := g.rows ++ acminitRows f } }
      | none, some a => { k with group := some { anchor := a, rows := acminitRows f, rho := 0, overflow := false, closing := none } }
      | none, none => k
    else k
  | _ => k

/-- What issue itself does (R80, R81, R219, R221, R403): the task record and the requested point for later commands, the
anchor and the rescale group. -/
def Core.onIssue (k : Core) (i : Instr) (h : Hdr) (rows : List Nat) : Core :=
  let k := k.onGroup i h rows
  match i with
  | .task _ _ f => { k with task := k.task.set f }
  | .phase _ _ op => { k with phaseOp := some op }
  | _ => k

/-- The command at the head of the buffer leaves it (R294). -/
def Core.next (k : Core) : Core := { k with nextSeq := k.nextSeq + 1, buffer := k.buffer.drop 1 }

/-- A command issues (R208, R317): its record, the count, and what issue does. -/
def State.issue (s : State) (c : Nat) (i : Instr) (h : Hdr) (r : Issued) (rows : List Nat) : State :=
  (s.modCore c fun k =>
    (({ k with issued := k.issued ++ [r], seqState := .running } : Core).onIssue i h rows).next).count (Reg.SEQ_ISSUED c) 1

/-- The record that a command has now. -/
def Cx.fresh (x : Cx) (s : State) : Cx := (s.issuedOf x.c x.site.seq).elim x fun r => { x with iss := r }

/-- An issued command takes its footprint and its exponent, books its banks, and starts as soon as it may. -/
def State.start (s : State) (i : Instr) (body : Cx → Act Unit) (x : Cx) : State :=
  let s := s.record x i
  match (bookBanks x ((x.fresh s).iss.banks.map (·.1))).run s with
  | .ok _ s => s.runIssued i body (x.fresh s)
  | .error _ s => s.retire x

/-- Whether a command must wait before it reaches the head of its buffer, or at it: an earlier command waits there, a
CLAIM, WAIT, FENCE or BALLAST is in progress, a rescale group has overflowed or waits for the commit point that ends it, or
the job is to stop at its next tile boundary (R81, R272, R277, R303, R304). -/
def blocked (s : State) (c : Nat) : Bool :=
  let k := s.core c
  s.stopping c ||
  (s.held.any fun i => heldOn [c] i && !(k.issued.any fun r => r.cmd = i)) || k.issued.any (fun r => blocks r.cmd)
    || k.group.elim false (fun g => g.overflow || g.closing.isSome)

/-- The slots that issued commands of a job will freeze when they start: those that could not latch as they issued. -/
def State.toFreeze (s : State) (j : Job) : List Nat :=
  (s.coresOf j).flatMap fun c => (s.core c).issued.filterMap fun r =>
    if r.exp.isNone && !r.done then (slotOf r.cmd).filter fun n => (j.frozenAt n).isNone else none

/-- A command that would freeze a 65th slot of its job (R114). -/
def freezeCauses (s : State) (j : Job) (i : Instr) : List Nat :=
  cause 0x0A ((slotOf i).elim false fun n =>
    let more := (s.toFreeze j).eraseDups
    (j.frozenAt n).isNone && !more.contains n && decide (64 ≤ j.frozen.length + more.length))

/-- An UPDATE whose descriptor, where the device holds it, describes a table of 2^40 values or more (R124). -/
def tableCauses (s : State) (x : Cx) : Instr → List Nat
  | .update _ _ f => cause 0x0B ((s.peek x f.tdesc 0 32).elim false tooLarge)
  | _ => []

/-- Whether a command at the head of the buffer must wait to issue: 16 commands are incomplete, its serial flag, or an EXPO of
the core that is to be applied first to the slot that it names (R122, R208, R297). -/
def Core.issueWaits (k : Core) (h : Hdr) (i : Instr) : Bool :=
  decide (16 ≤ k.issued.length) || (h.serial && !k.issued.isEmpty)
    || (slotOf i).elim false fun n => k.issued.any fun e => !e.done && (expoOf e.cmd).contains n

/-- The head of the buffer: refused, skipped, waiting for a place, or issued (R208, R300, R301, R312). -/
def State.atHead (s : State) (j : Job) (c : Nat) (h : Hdr) (i : Instr) (body : Cx → Act Unit) : State :=
  let k := s.core c
  let x := cxOf j c h i (s.issueRecord j c i h)
  match leastCause (causes s (rowsOf s x) j c h i ++ freezeCauses s j i ++ tableCauses s x i) with
  | some n => s.refuse { x.site with seq := k.nextSeq } n
  | none =>
    if 0 < k.skip then
      (s.modCore c fun k => { k.next with skip := k.skip - 1 }).count (Reg.SEQ_SKIPPED c) 1
    else if k.issueWaits h i then s.hold i
    else (s.issue c i h x.iss (rowsOf s x i)).start i body x

/-- A tile command of the table: it issues and runs on its core, goes on if it was held, or waits, as it does while its
cluster's clock is stopped (R405). A command that had started goes on after its job has stopped (R204, R321). A command for a
core on which no job executes, or beyond the end of its list, has no effect. -/
def State.tile (s : State) (c : Nat) (h : Hdr) (i : Instr) (body : Cx → Act Unit) : State :=
  match s.holder c with
  | none => s
  | some j =>
    match (s.core c).issued.find? fun r => r.cmd = i with
    | some r => if s.clockStopped c then s.hold i else s.runIssued i body (cxOf j c h i r)
    | none =>
      if !j.phase.executes then s
      else if s.clockStopped c then s.hold i
      else if j.desc.cmdCount ≤ (s.core c).nextSeq then s
      else if blocked s c then s.hold i
      else s.atHead j c h i body

/-- The answer of a tile command. -/
def tile (c : CoreId) (h : Hdr) (i : Instr) (body : Cx → Act Unit) (s : State) : Answer :=
  .next (s.tile c.toNat h i body)

end Sys2Proof.Machine
end

