-- ==== Sys2Proof/Machine/Rings.lean ====
section
/-!
DEFINITION. Host rings: doorbells (R259, R260, R263), descriptors and their checks (R261, R264 to R267, R290, R291),
starting and stopping a ring (R256, R277, R293), the event ring (R256, R289), the mailbox (R285), the idle-timeout notice
(R287) and MSI-X (R482).
-/

namespace Sys2Proof.Machine

/-! ### Doorbells -/

/-- Descriptors of ring n that are not fetched. -/
def State.unfetched (s : State) (n : Nat) : Nat :=
  let size := s.ringSize n
  ((s.ring n).sqTail + size - (s.ring n).sqHead % size) % size

/-- A new tail of submission ring n (R259, R260). -/
def State.sqTail (s : State) (n tail : Nat) : State :=
  let r := s.ring n
  let size := s.ringSize n
  if !s.ringEn n then s
  else if size ≤ tail ∨ size - 1 < s.unfetched n + (tail + size - r.sqTail % size) % size then
    (s.setRing n { r with errDoorbell := true, stopped := true }).queueEvent n 0
  else s.setRing n { r with sqTail := tail }

/-- An access that needs RUN (R408): in DOZE and DORMANT it asks for the wake, and is held until the wake completes. -/
def State.inRun (s : State) (i : Instr) (f : State → State) : State :=
  if s.power.state = .run then f s
  else ({ s with power := { s.power with waking := true } } : State).hold i

/-- SQ_TAIL_DOORBELL (R259, R260, R408). -/
def execSqTailDoorbell (ring : RingId) (tail : BitVec 16) (s : State) : Answer :=
  .next (s.inRun (.sqTailDoorbell ring tail) fun s => s.sqTail ring.toNat tail.toNat)

/-- A new head of completion ring n: it releases slots that the device has written (R263). -/
def State.cqHead (s : State) (n head : Nat) : State :=
  let r := s.ring n
  let size := s.ringSize n
  let k := (head + size - r.cqHead % size) % size
  if size ≤ head ∨ r.cqUsed < k then (s.setRing n { r with errCqHead := true }).queueEvent n 2
  else s.setRing n { r with cqHead := head, cqUsed := r.cqUsed - k }

/-- CQ_HEAD_DOORBELL (R263, R408). -/
def execCqHeadDoorbell (ring : RingId) (head : BitVec 16) (s : State) : Answer :=
  .next (s.inRun (.cqHeadDoorbell ring head) fun s => s.cqHead ring.toNat head.toNat)

/-! ### Descriptors -/

/-- A descriptor of version 2 (R264), v its 512 bits. -/
def desc2 (v : Nat) : Desc :=
  let f (lo n : Nat) : Nat := (v >>> lo) % 2 ^ n
  let b (i : Nat) : Bool := f i 1 = 1
  { version := f 0 8, replay := b 8, wake := b 9, quiet := b 10, order := b 11, noPreempt := b 12
    opHint := BitVec.ofNat 3 (f 16 3), hintValid := b 19, tag := BitVec.ofNat 32 (f 32 32)
    listAddr := BitVec.ofNat 64 (f 64 64), coreFirst := f 128 11, coreCount := f 140 12, coreStride := f 152 10
    listStride := f 176 16, cmdCount := f 192 16, epoch := BitVec.ofNat 32 (f 224 32), startCtr := f 256 13
    startEn := b 269, doneCtr := f 270 13, doneEn := b 283, startValue := BitVec.ofNat 64 (f 320 64)
    reserved := decide (f 13 3 ≠ 0 ∨ f 20 12 ≠ 0 ∨ f 139 1 ≠ 0 ∨ f 162 14 ≠ 0 ∨ f 208 16 ≠ 0 ∨ f 284 36 ≠ 0 ∨ f 384 128 ≠ 0) }

/-- A descriptor of version 1 as the version-2 job it stands for (R290, R291). -/
def desc1 (coreBase_ v : Nat) : Desc :=
  let f (lo n : Nat) : Nat := (v >>> lo) % 2 ^ n
  { version := f 0 8, replay := false, wake := f 8 1 = 1, quiet := false, order := true, noPreempt := false, opHint := 0
    hintValid := false, tag := BitVec.ofNat 32 (f 32 32), listAddr := BitVec.ofNat 64 (f 64 64)
    coreFirst := f 128 9 + coreBase_, coreCount := f 138 10, coreStride := 1, listStride := ceilDiv (32 * f 16 16) 64
    cmdCount := f 16 16, epoch := 0xFFFFFFFF, startCtr := 0, startEn := false, doneCtr := 0, doneEn := false
    startValue := 0, reserved := decide (f 9 7 ≠ 0 ∨ f 137 1 ≠ 0 ∨ f 148 364 ≠ 0) }

/-- Whether the list of position i lies within the ring's limits of its space (R257, R266). -/
def State.listInLimits (s : State) (n : Nat) (d : Desc) (o : Opnd) (i : Nat) : Bool :=
  let a := o.off + 64 * d.listStride * i
  decide ((s.reg (Reg.HQ_LIM_BASE n (o.space - 1))).toNat ≤ a)
    && decide (a + 32 * d.cmdCount ≤ (s.reg (Reg.HQ_LIM_END n (o.space - 1))).toNat)

/-- Whether a descriptor passes the checks of R266. -/
def State.descOk (s : State) (n : Nat) (d : Desc) : Bool :=
  decide (d.version = if s.isV1 n then 1 else 2) && !d.reserved
    && decide (d.coreCount ≠ 0 ∧ d.coreStride ≠ 0 ∧ d.coreFirst + (d.coreCount - 1) * d.coreStride ≤ 2047)
    && decide (d.cmdCount ≠ 0 ∧ 32 * d.cmdCount ≤ 64 * d.listStride)
    && match operandOf d.listAddr with
      | none => false
      | some o =>
        decide (2 ≤ o.space ∧ o.space ≤ 4) && (List.range d.coreCount).all (s.listInLimits n d o)

/-- Where a job that has not started stands by its epoch (R267): it may start, it is held, or it is stale. -/
def State.epochPhase (s : State) (d : Desc) : Option JobPhase :=
  if d.epoch = 0xFFFFFFFF ∨ d.epoch = s.cfg.cur then some .waiting
  else if s.cfg.staged.elim false fun e => decide (e.num = d.epoch) then some .epochHeld
  else none

/-- A fetched job of ring n (R261, R266, R267). -/
def State.newJob (s : State) (n : Nat) (d : Desc) : Job :=
  let ok := s.descOk n d
  let ph := s.epochPhase d
  { num := 0, ring := n, idx := (s.ring n).fetched, desc := d
    phase := if ok then ph.getD .stopped else .stopped
    status := if !ok then some .badDesc else if ph.isNone then some .epochStale else none
    flags := JobFlags.none, faultCore := 0, faultSeq := 0, epoch := s.cfg.cur.toNat, frozen := [], observed := [], replays := 0
    journalOk := true, journal := [], contained := none, tagWait := none, forceCheck := [], syncDevs := [], saved := []
    savedCmds := [] }

/-- Whether ring n fetches its next descriptor now (R261, R277): not before boot step 5 (R485), nor in D3hot (R488). -/
def State.mayFetch (s : State) (n : Nat) : Bool :=
  let r := s.ring n
  let js := s.jobsOf n
  s.uarid.ready && !s.module.d3 && s.ringEn n && !r.stopped && !r.aborting && !s.module.fatal && decide (s.power.state = .run) && decide (s.unfetched n ≠ 0)
    && decide ((js.filter (·.unstarted)).length < 8) && decide (js.length < s.ringSize n - r.cqUsed)

/-- Fetches the descriptor at the head of ring n (R261). -/
def State.fetchDesc (s : State) (n : Nat) (readOk : Bool) : State :=
  let r := s.ring n
  if !s.mayFetch n then s
  else if !readOk then (s.setRing n { r with errFetch := true, stopped := true }).queueEvent n 1
  else
    let v := ofBytes (s.getHost ((s.reg (Reg.HQ_SQ_BASE n)).toNat + 64 * r.sqHead) 64)
    let d := if s.isV1 n then desc1 (s.fld (Reg.HQ_SQ_CTRL n) 12 11) v else desc2 v
    let j := s.newJob n d
    let s := s.setRing n { r with sqHead := (r.sqHead + 1) % s.ringSize n, fetched := r.fetched + 1 }
    { s with jobs := s.jobs ++ [j] }

/-- DESCRIPTOR_FETCH (R261, R266, R267): readOk says whether the read of host memory succeeded. -/
def execDescriptorFetch (ring : RingId) (readOk : Bool) (s : State) : Answer := .next (s.fetchDesc ring.toNat readOk)

/-! ### Starting and stopping a ring -/

/-- RING_ENABLE (R256, R260): en written 1 while it was 0. -/
def State.enableRing (s : State) (n : Nat) : State :=
  if s.ringEn n then s
  else
    let r := s.ring n
    (s.setRing n { r with sqHead := 0, sqTail := 0, cqHead := 0, cqTail := 0, cqUsed := 0, phase := true, stopped := false
                          noticed := true }).setFld (Reg.HQ_SQ_CTRL n) 0 1 1

/-- RING_ENABLE (R256). -/
def execRingEnable (ring : RingId) (s : State) : Answer := .next (s.enableRing ring.toNat)

/-- Once no job of an aborting ring lacks its record, the abort is over, and a write of en = 0 takes effect (R277, R293). -/
def State.settle (s : State) (n : Nat) : State :=
  let r := s.ring n
  if r.aborting ∧ s.jobsOf n = [] then
    let s' := if r.disabling then s.setFld (Reg.HQ_SQ_CTRL n) 0 1 0 else s
    s'.setRing n { r with aborting := false, disabling := false, stopped := true }
  else s

/-- A job of ring and place changed by f. -/
def State.modJobAt (s : State) (ring idx : Nat) (f : Job → Job) : State :=
  { s with jobs := s.jobs.map fun j => if j.ring = ring ∧ j.idx = idx then f j else j }

/-- Ends a job that never started (R267, R277). -/
def State.endUnstarted (s : State) (j : Job) (st : Status) : State :=
  s.modJobAt j.ring j.idx fun j => { j with status := some st, phase := .stopped }

/-! ### Tile boundaries -/

/-- Whether a command is a TRANSIT that waits for its message (R91). -/
def State.receives (s : State) (c : Nat) (e : Issued) : Bool :=
  match e.cmd with
  | .transit _ _ f => transitMerges f && decide (e.log.length ≤ 1) && (s.nextTransit c f.chain.toNat).isNone
  | _ => false

/-- Whether a command has raised a page request that it has not gone on from. -/
def State.paged (s : State) (num c : Nat) (e : Issued) : Bool :=
  s.pageReqs.any fun r => decide (r.job = num ∧ r.core = c ∧ r.seq = e.seq)

/-- Whether a command has done nothing yet: issued, and not started. -/
def Issued.fresh (e : Issued) : Bool := !e.started && e.log.isEmpty

/-- Whether a command is held by a WAIT, a tag or a TRANSIT receive (R272). -/
def State.waitHeld (s : State) (c : Nat) (e : Issued) : Bool := waits e.cmd || e.onTag || s.receives c e

/-- Whether a page request of a command of this kind is a tile boundary (R336). -/
def pausable (i : Instr) : Bool :=
  match i with
  | .fload .. => true
  | .acmout .. => true
  | .gatherEmb .. => true
  | .movePlain .. | .moveTile .. | .moveTranspose .. | .moveCompress .. | .moveExpand .. => true
  | _ => false

/-- Whether core c is at a tile boundary (R153, R272, R336): no check is pending, no pass of a rescale group is being dropped,
the oldest incomplete command is held by a WAIT, a tag, a TRANSIT receive or a page request or has not started, and each later
one is held by a WAIT, a tag or a TRANSIT receive or has not started. -/
def State.atBoundary (s : State) (j : Job) (c : Nat) : Bool :=
  let k := s.core c
  k.check.isNone && !(k.group.elim false (·.overflow)) && k.issued.all (fun e => !e.done)
    && (k.issued.head?.elim true fun e => e.fresh || s.waitHeld c e || (pausable e.cmd && s.paged j.num c e))
    && (k.issued.drop 1).all fun e => e.fresh || s.waitHeld c e

/-- Whether every core of a job is at a tile boundary. -/
def State.jobAtBoundary (s : State) (j : Job) : Bool := (s.coresOf j).all (s.atBoundary j)

/-- The detail of a REPLAY record about a detector (R340). -/
def replayDetail (det n : Nat) (ended : Bool) : Nat := place det 0 3 + place n 4 2 + ended.toNat * 2 ^ 10

/-- The CONTAINED record of a contained fault that leads to no replay (R319); a parallax mismatch has had its own. -/
def State.raiseContained (s : State) (j : Job) (k : Contained) : State :=
  if k.detector = 1 then s
  else s.raise (replayEvent j clsContained (replayDetail k.detector j.replays false) j.faultCore k.seq k.info)

/-- Ends a job of an aborted ring, if it has started only at a tile boundary (R277). -/
def State.abortJob (s : State) (j : Job) : State :=
  if j.status.isSome then s
  else if j.unstarted then s.endUnstarted j .aborted
  else
    match j.contained with
    | some k => (s.raiseContained j k).endJob j.num .aborted 0 0
    | none => if j.phase = .preempted ∨ s.jobAtBoundary j then s.endJob j.num .aborted 0 0 else s

/-- Stops ring n as R277 does. -/
def State.abortRing (s : State) (n : Nat) (disable : Bool) : State :=
  let r := s.ring n
  let s := s.setRing n { r with aborting := true, disabling := r.disabling || disable }
  ((s.jobsOf n).foldl State.abortJob s).settle n

/-- ABORT (R277). -/
def execAbort (ring : RingId) (s : State) : Answer := .next (s.abortRing ring.toNat false)

/-- A write of en = 0: at once while no job of the ring is in flight, else as an abort first (R293). -/
def State.disableRing (s : State) (n : Nat) : State :=
  if !s.ringEn n then s
  else if s.jobsOf n = [] then s.setFld (Reg.HQ_SQ_CTRL n) 0 1 0
  else s.abortRing n true

/-- RING_DISABLE (R293). -/
def execRingDisable (ring : RingId) (s : State) : Answer := .next (s.disableRing ring.toNat)

/-! ### The event ring -/

/-- EVENT_RING_ENABLE (R256, R289). -/
def State.enableEvents (s : State) (en : Bool) : State :=
  if en && !s.eqEnabled then
    { s with eq := { s.eq with head := 0, tail := 0, used := 0, phase := true } }.setFld Reg.HQ_EQ_CTRL 0 1 1
  else if en then s
  else s.setFld Reg.HQ_EQ_CTRL 0 1 0

/-- A new head of the event ring: it releases slots as R263 states, and a release after losses first writes the count of
the lost records (R289). -/
def State.releaseEvents (s : State) (head : Nat) : State :=
  let size := s.eqSize
  let k := (head + size - s.eq.head % size) % size
  if !s.eqEnabled ∨ size ≤ head ∨ s.eq.used < k then s
  else
    let lost := s.eq.dropped
    let s := { s with eq := { s.eq with head := head, used := s.eq.used - k } }
    if k ≠ 0 ∧ lost ≠ 0 then
      State.writeEvent { s with eq := { s.eq with dropped := 0 } } { source := 0x1F, detail := 3, info1 := lost }
    else s

/-- EVENT_HEAD_RELEASE (R263, R289). -/
def execEventHeadRelease (head : BitVec 16) (s : State) : Answer := .next (s.releaseEvents head.toNat)

/-! ### Reads that change state -/

/-- The latch of a 64-bit register. -/
def State.latch (s : State) (off : Nat) : Option Word32 := Sparse.get none s.latches off

/-- The latch of a 64-bit register set, or consumed. -/
def State.setLatch (s : State) (off : Nat) (v : Option Word32) : State := { s with latches := Sparse.set none s.latches off v }

/-- What a host read returns. -/
def State.answer (s : State) (v : Word64) : State := { s with hostRead := .value v }

/-- A read of a 64-bit register of value v, whole or by halves (R59). take: what a read of the register itself, whole or
by its low half, does beside; a high half that no low half has latched is read as it is. -/
def State.readWide (s : State) (off : Nat) (w : ReadWidth) (v : Word64) (take : State → State) : State :=
  match w with
  | .whole => (take s).answer v
  | .low => ((take s).setLatch off (some (v.extractLsb' 32 32))).answer (BitVec.ofNat 64 (v.toNat % 2 ^ 32))
  | .high =>
    match s.latch off with
    | some h => (s.setLatch off none).answer (BitVec.ofNat 64 h.toNat)
    | none => s.answer (BitVec.ofNat 64 (v.toNat / 2 ^ 32))

/-- HQ_EQ_LOST_READ (R12, R59, R289): the count, cleared by the read. -/
def execHqEqLostRead (w : ReadWidth) (s : State) : Answer :=
  .next (s.readWide Reg.HQ_EQ_LOST w (s.reg Reg.HQ_EQ_LOST) fun s => s.setReg Reg.HQ_EQ_LOST 0)

/-- The oldest entry of a mailbox taken, or underrun noted (R285). -/
def State.takeMbox (s : State) (n : Nat) : State :=
  let r := s.ring n
  match r.mbox with
  | v :: l => s.setRing n { r with mbox := l, mboxLast := v }
  | [] => s.setRing n { r with underrun := true }

/-- The value that a read of the mailbox of ring n returns (R285). -/
def Ring.mboxValue (r : Ring) : Word64 := r.mbox.headD r.mboxLast

/-- HQ_MBOX_READ (R59, R285). -/
def execHqMboxRead (ring : RingId) (w : ReadWidth) (s : State) : Answer :=
  let n := ring.toNat
  .next (s.readWide (Reg.HQ_MBOX n) w (s.ring n).mboxValue (·.takeMbox n))

/-! ### Notices -/

/-- Whether the idle-timeout notice of ring n is due (R287). -/
def State.idleDue (s : State) (n : Nat) : Bool :=
  let r := s.ring n
  s.isV1 n && decide (s.noticeMode n = 2) && decide (r.cqUsed ≠ 0) && !r.noticed
    && decide (1000 * atLeastOne (s.fld (Reg.HQ_CQ_IDLE n) 0 16) ≤ s.ticks - r.lastRecord)

/-- IDLE_TIMEOUT_NOTICE (R287). -/
def execIdleTimeoutNotice (ring : RingId) (s : State) : Answer :=
  let n := ring.toNat
  .next (if s.idleDue n then (s.setRing n { s.ring n with noticed := true }).sendMsix n else s)

/-- Unmasks a vector: a pending one is sent once (R482). -/
def State.unmask (s : State) (v : Nat) : State :=
  let p := (s.vector v).pending
  let s := s.setVector v ⟨false, false⟩
  if p then s.emit (.msix v) else s

/-- MSIX_UNMASK (R482). -/
def execMsixUnmask (vector : Fin 33) (s : State) : Answer := .next (s.unmask vector.val)

end Sys2Proof.Machine
end

