-- ==== Sys2Proof/Machine/Jobs.lean ====
section
/-!
DEFINITION. Jobs: admission (R268 to R271), pre-emption with its save (R272 to R274), resumption (R275), and completion
with its record (R277 to R281, R292).
-/

namespace Sys2Proof.Machine

/-! ### Starting -/

/-- A core on which job num starts: list position, claim registers and task record at their initial values (R218, R265,
R299). -/
def Core.begin_ (k : Core) (num : Nat) : Core :=
  { k with job := num, seqState := .running, nextSeq := 0, buffer := [], skip := 0, issued := [], x := 0, sRd := 0, sWr := 0
           task := TaskRec.initial, phaseOp := none, waitOn := none, ballast := none, group := none, lastAnchor := none }

/-- A head job starts: its number (R268), its cores, the OPEN record of a replayable job (R323). -/
def State.startJob (s : State) (j : Job) : State :=
  let num := if s.lastJob + 1 < 2 ^ 32 then s.lastJob + 1 else 1
  let s := s.modJobAt j.ring j.idx fun j => { j with num := num, phase := .running, epoch := s.cfg.cur.toNat }
  let s := j.cores.foldl (fun s c => s.modCore c (·.begin_ num)) s
  State.journal { s with lastJob := num, lastRing := j.ring } num .open_

/-- JOB_ADMIT (R270): the admissible head job of the best place starts. With none, nothing happens. -/
def execJobAdmit (s : State) : Answer :=
  .next (match s.toAdmit with
    | some j => s.startJob j
    | none => s)

/-! ### Idle clusters -/

/-- A cluster whose idle time counts from now on, if one of the cores is its own. -/
def idleFrom (now : Nat) (cs : List Nat) (k : Nat) (q : ClusterClk) : ClusterClk :=
  if (cs.map (· / 64)).contains k then { q with idleSince := now } else q

/-- From now on the clusters of these cores count their idle time (R405). -/
def State.idleClusters (s : State) (cs : List Nat) : State :=
  { s with power := { s.power with clusters := s.power.clusters.mapIdx (idleFrom s.ticks cs) } }

/-! ### Pre-emption -/

/-- Slots of a saved context (R273). -/
def saveSlotCount : Nat := 2168

/-- The save area of core c for ring n (R273). -/
def State.saveArea (s : State) (n c : Nat) : Nat := (s.reg (Reg.HQ_SAVE_BASE n)).toNat + 0x30000 * c

/-- The slots of a save area. -/
def saveAddrs (base : Nat) : List Nat := (List.range saveSlotCount).map fun i => base + 64 * i

/-- 64 bytes that the spec does not give: the device's own format (R273). -/
def State.freeSlot (s : State) : List Byte × State :=
  let (a, s) := s.free
  let (b, s) := s.free
  (toBytes 32 a.toNat ++ toBytes 32 b.toNat, s)

/-- Translation of a save or restore access; no address beyond 48 bits is valid. -/
def translate48 (who : Who) (write : Bool) (va : Nat) (s : State) : Xlat × State :=
  if va < 2 ^ 48 then translate who write va s else (.invalid, s)

/-- One slot of a save: false where R274 abandons it. -/
def saveSlot (who : Who) (va : Nat) (s : State) : Bool × State :=
  let (bs, s) := s.freeSlot
  match translate48 who true va s with
  | (.ok pa, s) => writePhys who pa (bs.map whole) s
  | (_, s) => (false, s)

/-- The save of one core of job v (R273). -/
def saveCore (v : Job) (c : Nat) (s : State) : Bool × State :=
  allOk (saveSlot ⟨v.num, c, v.ring, false⟩) (saveAddrs (s.saveArea v.ring c)) s

/-- The save of every core of every victim, in order; with the ring of the first that fails. -/
def saveAll : List Job → State → Option Nat × State
  | [], s => (none, s)
  | v :: l, s =>
    match allOk (saveCore v) v.cores s with
    | (true, s) => saveAll l s
    | (false, s) => (some v.ring, s)

/-- The record of an abandoned command, which resume issues again from its progress (R272, R336): for a GATHER in mode EMB that is
the first bag that is not completely written. -/
def Issued.saved (i : Issued) : Issued :=
  { i with started := false, onTag := false, log := match i.cmd with
    | .gatherEmb .. => i.log.take i.mark
    | _ => i.log }

/-- A saved core (R273): its issued commands are abandoned, its command buffer is not kept. -/
def Core.saved (k : Core) : Core :=
  { k with buffer := [], waitOn := none, ballast := none, issued := k.issued.map Issued.saved }

/-- A core released by the pre-emption of job num. -/
def Core.release (k : Core) (num : Nat) : Core :=
  { k with job := 0, seqState := .preempted, buffer := [], issued := [], waitOn := none, ballast := none, group := none, skip := 0
           rxBuf := [], dirty := (k.dirty.map fun e => (e.1, e.2.filter (· ≠ num))).filter fun e => e.2 ≠ [] }

/-- The commands of a core that resume issues again: those held, and a WAIT in progress. -/
def State.heldFor (s : State) (c : Nat) : List Instr :=
  s.held.filter (heldOn [c]) ++ ((s.core c).issued.map (·.cmd)).filter fun i => waits i && !s.held.contains i

/-- Job v is pre-empted: its contexts are kept, its bookings and its cores released (R238, R272, R273). -/
def State.suspend (s : State) (v : Job) : State :=
  let cs := v.cores
  let saved := cs.map fun c => (c, (s.core c).saved)
  let cmds := cs.flatMap s.heldFor
  let s := s.modJob v.num fun j => { j with phase := .preempted, saved := saved, savedCmds := cmds }
  let s := cs.foldl (fun s c => ((s.core c).issued.foldl State.release s).modCore c (·.release v.num)) s
  ({ s with held := s.held.filter fun i => !heldOn cs i } : State).idleClusters cs

/-- A save that failed (R274): the pre-emption is abandoned. -/
def State.saveFailed (s : State) (n : Nat) : State :=
  (s.setRing n { s.ring n with saveFail := true }).queueEvent n 4

/-- PREEMPT for the head job of ring n (R272): it waits until every core of every victim is at a tile boundary. -/
def State.preempt (s : State) (n : RingId) : State :=
  match s.preemptor n.toNat with
  | none => s
  | some j =>
    let vs := s.victims j
    if !vs.all s.jobAtBoundary then s.hold (.preempt n)
    else
      match saveAll vs s with
      | (some r, s) => s.saveFailed r
      | (none, s) => State.startJob (vs.foldl State.suspend s) j

/-- PREEMPT (R272). -/
def execPreempt (ring : RingId) (s : State) : Answer := .next (s.preempt ring)

/-! ### Resumption -/

/-- What reading a save area meets first (R274): nothing, or a slot that is untranslatable or uncorrectable. -/
inductive Restore where
  | ok | untranslated | uncorr
deriving DecidableEq, Repr

/-- Reads the slots of a save area. -/
def restoreSlots (who : Who) : List Nat → State → Restore × State
  | [], s => (.ok, s)
  | va :: l, s =>
    match translate48 who false va s with
    | (.ok pa, s) =>
      match readPhys who pa 64 s with
      | (some _, s) => restoreSlots who l s
      | (none, s) => (.uncorr, s)
    | (.invalid, s) => (.untranslated, s)
    | (.uncorr, s) => (.uncorr, s)

/-- Reads the save areas of a job's cores; with the core at which it stopped. -/
def restoreAll (p : Job) : List Nat → State → Restore × Nat × State
  | [], s => (.ok, 0, s)
  | c :: l, s =>
    match restoreSlots ⟨p.num, c, p.ring, false⟩ (saveAddrs (s.saveArea p.ring c)) s with
    | (.ok, s) => restoreAll p l s
    | (r, s) => (r, c, s)

/-- A core with a saved context put back (R273, R275): what R276 does not name keeps its present value. -/
def Core.restore (k saved : Core) : Core :=
  { saved with seqState := .running, lastCycles := k.lastCycles, facets := k.facets, strikes := k.strikes, mem := k.mem
               full := k.full, ecc := k.ecc, scrubFacet := k.scrubFacet, scrubRow := k.scrubRow
               scrubDue := k.scrubDue, chains := k.chains }

/-- The effect of a resumption whose save areas were read (R275). -/
def State.wakeJob (s : State) (p : Job) : State :=
  let s := p.saved.foldl (fun s e => s.modCore e.1 (·.restore e.2)) s
  let s := s.modJob p.num fun j =>
    { j with phase := .running, saved := [], savedCmds := [], flags := { j.flags with preempted := true } }
  { s with held := s.held ++ p.savedCmds }

/-- A restore that failed: the job is lost (R274). -/
def State.loseJob (s : State) (p : Job) (c : Nat) : State :=
  let (b, s) := s.free
  s.endJob p.num .lost c (bits b 0 16)

/-- RESUME (R275). A job that may not resume now stays pre-empted. -/
def State.resume (s : State) (num : Nat) : State :=
  match s.findJob num with
  | none => s
  | some p =>
    if !s.resumable p then s
    else
      match restoreAll p p.cores s with
      | (.ok, _, s) => s.wakeJob p
      | (.untranslated, c, s) =>
        (s.raise { source := 0x1F, cls := clsJobFailed, detail := 4, job := p.num, core := c, ring := p.ring
                   info0 := p.ring }).loseJob p c
      | (.uncorr, c, s) => s.loseJob p c

/-- RESUME (R275). -/
def execResume (job : Word32) (s : State) : Answer := .next (s.resume job.toNat)

/-! ### Completion -/

/-- The status code of R279. -/
def Status.code : Status → Nat
  | .ok => 0x00
  | .badDesc => 0x01
  | .badCmd => 0x02
  | .resource => 0x03
  | .acmRange => 0x04
  | .acmMode => 0x05
  | .badTile => 0x06
  | .facetFault => 0x07
  | .parallaxHard => 0x08
  | .bankOff => 0x09
  | .memUncorr => 0x0A
  | .pageFault => 0x0B
  | .tagMismatch => 0x0C
  | .replayLimit => 0x0D
  | .epochStale => 0x0E
  | .aborted => 0x0F
  | .lost => 0x10

/-- The flags in the order of R278 bits [78:72]. -/
def JobFlags.code (f : JobFlags) : Nat :=
  ofBits [f.cold, f.lapsed, f.sat, f.rescaled, f.parallaxSoft, f.replayed, f.preempted]

/-- A completion record (R278, R292): sqHead, time and phase stand at its writing; epoch is the job's. -/
def recordBytes (v1 : Bool) (j : Job) (st : Status) (sqHead time epoch : Nat) (phase : Bool) : List Byte :=
  if v1 then
    toBytes 16 (place j.desc.tag.toNat 0 32 + place sqHead 32 16 + place st.code 48 8 + place j.flags.code 56 7
      + place phase.toNat 63 1 + place time 64 64)
  else
    toBytes 32 (place j.desc.tag.toNat 0 32 + place j.num 32 32 + place st.code 64 8 + place j.flags.code 72 7
      + place sqHead 80 16 + place j.faultCore 96 11 + place j.faultSeq 112 16 + place time 128 64 + place epoch 192 32
      + place j.replays 224 2 + place phase.toNat 255 1)

/-- The epoch field of a record: a job that never started ran on none, and the spec states no value for it. -/
def State.recordEpoch (s : State) (j : Job) : Nat × State :=
  if j.num = 0 then
    let (b, s) := s.free
    (bits b 0 32, s)
  else (j.epoch, s)

/-- Writes the completion record of a job, advances the tail, and sends the notice (R262, R278, R287, R292). -/
def State.writeRecord (s : State) (j : Job) (st : Status) : State :=
  let n := j.ring
  let v1 := s.isV1 n
  let (epoch, s) := s.recordEpoch j
  let r := s.ring n
  let addr := (s.reg (Reg.HQ_CQ_BASE n)).toNat + (if v1 then 16 else 32) * r.cqTail
  let tail := (r.cqTail + 1) % s.ringSize n
  let s := s.putHost addr (recordBytes v1 j st r.sqHead s.deviceTime epoch r.phase)
  let s := s.setRing n { r with cqTail := tail, cqUsed := r.cqUsed + 1, phase := if tail = 0 then !r.phase else r.phase
                                lastRecord := s.ticks, noticed := false }
  let s := s.count (Reg.HQ_JOBS n) 1
  let s := if st = .lost then s.count Reg.GLB_LOST 1 else s
  if (s.noticeMode n = 1 ∨ s.noticeMode n = 3) ∧ !j.desc.quiet then s.sendMsix n else s

/-- A job is reported (R203, R246, R281, R324, R367): its windows close, the record is written, its cores are free, and
the devices that hold its identities are told. -/
def State.report (s : State) (j : Job) (st : Status) : State :=
  let cs := s.coresOf j
  let s := (s.closeWindows j.num).dropPages j.num
  let s := s.writeRecord j st
  let s := cs.foldl (fun s c => s.modCore c fun k => { k.halt with job := 0 }) s
  let s := { s with jobs := s.jobs.filter fun k => !decide (k.ring = j.ring ∧ k.idx = j.idx)
                    requests := s.requests.filter fun r => !decide (r.job = j.num ∧ j.num ≠ 0) }
  let s : State := (s.idleClusters cs).settle j.ring
  let s := if s.jobs = [] then { s with power := { s.power with idleFrom := s.ticks } } else s
  j.syncDevs.foldl (fun s d =>
    (s.request ⟨j.num, j.ring, 0, 0, 0⟩ (BitVec.ofNat 12 d) 0 (.jobend (BitVec.ofNat 24 j.num))).2) s

/-- The commit points of a completed job (R68). -/
def State.commitAll (s : State) (j : Job) : State :=
  j.cores.foldl (fun s c =>
    (s.commitPoint j.num c j.desc.cmdCount fun _ => true).closeGroup j.num c fun _ => true) s

/-- Whether a job has completed every command (R153, R281). -/
def State.finished (s : State) (j : Job) : Bool :=
  j.phase.executes && j.status.isNone && j.contained.isNone && j.cores.all fun c =>
    let k := s.core c
    decide (k.job = j.num ∧ k.nextSeq = j.desc.cmdCount ∧ k.issued = []) && k.check.isNone
      && !(k.group.elim false (·.overflow))

/-- Whether everything that the job has sent is acknowledged. -/
def State.settled (s : State) (j : Job) : Bool :=
  s.requests.all fun r => !decide (r.job = j.num) || r.answer.isSome

/-- Whether a job that ended with a status is reported as JOB_FAILED (R117, R318): all but a completed one, a refusal at
dispatch, which is not a fault (R301), and an abort by the host (DEDUCED, log entry 146). -/
def Status.failed : Status → Bool
  | .ok => false
  | .badCmd => false
  | .aborted => false
  | _ => true

/-- A job that ended with another status is reported once its cores have stopped (R117, R203, R204): what its started
commands have left dirty since is discarded. -/
def State.reportEnded (s : State) (j : Job) (st : Status) : State :=
  let s := s.discardJob j
  (if st.failed then s else s.updateSlots j).report j st

/-- A job of status OK is reported: its last commits, the update of its slots, the ADD on done_ctr, its record (R68, R117,
R281). -/
def State.reportOk (s : State) (num : Nat) : State :=
  match s.findJob num with
  | none => s
  | some j =>
    let s := s.commitAll j
    let j := (s.findJob num).getD j
    let s := s.updateSlots j
    let s := if j.desc.doneEn then s.ctrOp .add j.desc.doneCtr 1 0 else s
    s.report j .ok

/-- The job that JOB_COMPLETE names: by number, or, with 0, the first that ended without having started. -/
def State.named (s : State) (num : Nat) : Option Job :=
  if num = 0 then s.jobs.find? fun j => decide (j.num = 0) && j.status.isSome else s.findJob num

/-- JOB_COMPLETE (R281). A job of an aborted ring first ends if it has reached a tile boundary (R277); a job that has not
ended, whose cores have not stopped, or which waits for an acknowledge, stays. -/
def State.complete (s : State) (num : Nat) : State :=
  let s := match s.named num with
    | some j => if (s.ring j.ring).aborting then s.abortJob j else s
    | none => s
  match s.named num with
  | none => s
  | some j =>
    if !(decide (num = 0) || s.settled j) then s
    else
      match j.status with
      | some st =>
        if s.drained j && (s.coresOf j).all fun c => (s.core c).check.isNone then s.reportEnded j st else s
      | none => if s.finished j then s.reportOk num else s

/-- JOB_COMPLETE (R281). -/
def execJobComplete (job : Word32) (s : State) : Answer := .next (s.complete job.toNat)

end Sys2Proof.Machine
end

