-- ==== Sys2Proof/Machine/Care.lean ====
section
/-!
DEFINITION. Facet care: the background scrub (R49), parity events, refills and markings (R50 to R53, R56).
-/

namespace Sys2Proof.Machine

/-! ### Marking -/

/-- Marks a facet STALE or FAULTY with its FACET_MARK record (R50, R53, R56, R288): the Uarid logs a FAULTY facet, and a
FAULTY facet stays FAULTY; a STALE one is not marked STALE again. -/
def State.markFacet (s : State) (c f : Nat) (st : FacetState) (cause job ring : Nat) : State :=
  if ((s.core c).facet f).state = .faulty ∨ ((s.core c).facet f).state = st then s
  else
    let s := s.modFacet c f fun x => { x with state := st }
    let s : State := if st = .faulty then
        { s with uarid := { s.uarid with faultLog := s.uarid.faultLog ++ [(c, f)] } }
      else s
    s.markEvent c f (if st = .faulty then 3 else 2) cause job ring

/-! ### The scrub's position -/

/-- The LOADED facets of a core in ascending order. -/
def Core.loaded (k : Core) : List Nat := (List.range 32).filter fun f => decide ((k.facet f).state = .loaded)

/-- The facet and row of the next scrub read (R49); none while no facet is LOADED. -/
def Core.scrubNext (k : Core) : Option (Nat × Nat) :=
  if (k.facet k.scrubFacet).state = .loaded ∧ k.scrubRow < 1024 then some (k.scrubFacet, k.scrubRow)
  else
    match k.loaded.find? fun f => decide (k.scrubFacet < f) with
    | some f => some (f, 0)
    | none => k.loaded.head?.map fun f => (f, 0)

/-! ### Refills -/

/-- Whether a load record covers row r: as a loaded row, or as a zeroed one (R46). -/
def LoadRec.loads (l : LoadRec) (r : Nat) : Bool := decide (l.rowFirst ≤ r ∧ r < l.rowFirst + l.rowCount)
def LoadRec.zeroes (l : LoadRec) (r : Nat) : Bool :=
  (l.zeroed && decide (l.zeroFrom ≤ r)) || (l.lowZero && decide (r < l.rowFirst))

/-- Whether a refill of row r, or of exponent-store entry r - 1,024, may be tried (R46, R50). -/
def Facet.refillable (f : Facet) (r : Nat) : Bool :=
  f.record.elim false fun l => if 1024 ≤ r then decide (l.fmt = 8) else l.loads r || l.zeroes r

/-- A refill's access: no job, and no MEMORY event of its own (R50). -/
def refillWho : Who := ⟨0, 0, 0, true⟩

/-- What a refill read of a piece answers: the bytes, no bytes, or that its bank is waking. -/
inductive Refilled where
  | bytes (bs : List Byte)
  | failed
  | waits
deriving DecidableEq, Repr

/-- What a refill read of bytes answers. -/
def Refilled.ofRead (r : Option (List Byte) × State) : Refilled × State := (r.1.elim .failed .bytes, r.2)

/-- One piece of a refill read for core c, within one slot (R44, R50): in core memory of the core or of its cluster, in shared,
stacked or host memory; a window that a record names is closed. A bank whose off decision has committed refuses the booking
(R240). -/
def refillPiece (c space off n : Nat) (s : State) : Refilled × State :=
  match space with
  | 0 => Refilled.ofRead (readCore refillWho c off n s)
  | 1 => Refilled.ofRead (readCore refillWho (c / 64 * 64 + off / 2 ^ 19) (off % 2 ^ 19) n s)
  | 2 =>
    let b := bankOf off
    if s.bankReady b then Refilled.ofRead (readSharedSlots refillWho off n s)
    else if s.bankOff b then (.failed, s.refuseBank b false 0)
    else (.waits, s)
  | 3 =>
    match translate refillWho false off s with
    | (.ok pa, s) => Refilled.ofRead (readPhys refillWho pa n s)
    | (_, s) => (.failed, s)
  | 4 => (if s.hostReach false off then .bytes (s.getHost off n) else .failed, s)
  | _ => (.failed, s)

/-- The pieces of a refill read, in order. -/
def refillPieces (c space : Nat) : List (Nat × List Unit) → State → Refilled × State
  | [], s => (.bytes [], s)
  | p :: l, s =>
    match refillPiece c space p.1 p.2.length s with
    | (.bytes bs, s) =>
      match refillPieces c space l s with
      | (.bytes rest, s) => (.bytes (bs ++ rest), s)
      | r => r
    | r => r

/-- n bytes of a load record's source: a is a space and an offset after relocation. -/
def refillRead (c : Nat) (a : Word64) (at_ n : Nat) (s : State) : Refilled × State :=
  refillPieces c (bits a 60 4) (cut 64 (bits a 0 60 + at_) (List.replicate n ())) s

/-- The scale arrays of logical columns, as R43 used them at load. -/
def refillScales (c : Nat) (l : LoadRec) : List Nat → State → Refilled × List (List Nat) × State
  | [], s => (.bytes [], [], s)
  | j :: js, s =>
    match refillRead c l.scale (64 * j) (ceilDiv l.rowCount l.blk) s with
    | (.bytes bs, s) =>
      match refillScales c l js s with
      | (.bytes _, rest, s) => (.bytes [], bs.map (·.toNat) :: rest, s)
      | r => r
    | (r, s) => (r, [], s)

/-- Writes row r of facet f again, as its FLOAD wrote it (R46, R50). -/
def refillRow (c f r : Nat) (l : LoadRec) (s : State) : Refilled × State :=
  let put (img : RowImage) (s : State) : State := s.modFacet c f fun x => x.putRow r img s.deviceTime
  if l.loads r then
    match refillRead c l.src (l.pitch * (r - l.rowFirst)) 16 s with
    | (.bytes bs, s) =>
      if l.fmt = 8 then
        match refillScales c l (List.range 25) s with
        | (.bytes _, sc, s) =>
          let cols := sc.map fun v => (v, (fp4Column l.blk l.rowCount v).2)
          (.bytes [], put (fp4Row l.blk cols r (ofBytes bs)) s)
        | (x, _, s) => (x, s)
      else (.bytes [], put (BitVec.ofNat 128 (ofBytes bs)) s)
    | x => x
  else (.bytes [], put 0 s)

/-- Writes exponent-store entry j of facet f again (R50). -/
def refillEntry (c f j : Nat) (l : LoadRec) (s : State) : Refilled × State :=
  match refillScales c l [j] s with
  | (.bytes _, sc, s) =>
    let e := fp4Column l.blk l.rowCount (sc.headD [])
    (.bytes [], s.modFacet c f fun x => x.putExp j e.1 (e.2.map fun v => v - e.1) s.deviceTime)
  | (x, _, s) => (x, s)

/-! ### Findings -/

/-- FCT_PARITY_LOG (R58). -/
def parityLog (f row seg : Nat) (expo refilled : Bool) : Word64 :=
  BitVec.ofNat 64 (place f 0 5 + place row 5 10 + place seg 15 3 + expo.toNat * 2 ^ 18 + refilled.toNat * 2 ^ 19 + 2 ^ 20)

/-- A finding in FCT_PARITY_LOG (R58). -/
def State.logParity (s : State) (c f : Nat) (r : Refill) (refilled : Bool) : State :=
  s.setReg (Reg.FCT_PARITY_LOG c) (parityLog f (r.row % 1024) r.segment (decide (1024 ≤ r.row)) refilled)

/-- The PARITY record of a finding (R50, R53, R288). -/
def State.parityRecord (s : State) (c f : Nat) (r : Refill) (cls : Nat) (refilled : Bool) : State :=
  s.raise { source := 0x01, cls := cls
            detail := r.segment + (decide (1024 ≤ r.row)).toNat * 2 ^ 3 + refilled.toNat * 2 ^ 4, core := c, facet := f
            info0 := r.row % 1024, info1 := r.lastClean }

/-- The report of a parity error as it is found (R50, R53): the log and the record. -/
def State.parityReport (s : State) (c f : Nat) (r : Refill) (cls : Nat) : State :=
  (s.logParity c f r false).parityRecord c f r cls false

/-- The report of a finding whose refill has been tried (R50, R58): the log follows where it still names this finding, the most
recent one. -/
def State.refillReport (s : State) (c f : Nat) (r : Refill) (cls : Nat) (refilled : Bool) : State :=
  let mine := parityLog f (r.row % 1024) r.segment (decide (1024 ≤ r.row)) false
  (if s.reg (Reg.FCT_PARITY_LOG c) = mine then s.logParity c f r refilled else s).parityRecord c f r cls refilled

/-- The marks of R53: the rows, or the exponent-store entries, of a facet that have failed since its last FLOAD. -/
def Facet.marked (f : Facet) (r : Nat) : Bool := if 1024 ≤ r then f.expMarks.contains (r - 1024) else f.marks.contains r

/-- A first failure marked. -/
def Facet.mark (f : Facet) (r : Nat) : Facet :=
  if 1024 ≤ r then { f with expMarks := f.expMarks ++ [r - 1024] } else { f with marks := f.marks ++ [r] }

/-- The scrub finds an error (R50, R53): a second failure condemns the facet; a first one is refilled, or makes it STALE. -/
def State.parityFound (s : State) (c f : Nat) (r : Refill) : State :=
  let s := s.count (Reg.FCT_PARITY_ERRS c) 1
  let x := (s.core c).facet f
  if x.marked r.row then (s.parityReport c f r clsDegraded).markFacet c f .faulty 0 0 0
  else
    let s := s.modFacet c f (·.mark r.row)
    if s.fld (Reg.FCT_CTRL c) 7 1 = 1 ∧ x.refillable r.row then
      (s.logParity c f r false).modFacet c f fun x => { x with refills := x.refills ++ [r] }
    else (s.parityReport c f r clsContained).markFacet c f .stale 0 0 0

/-- The check of row r of facet f (R49, R50). -/
def State.scrubRow (s : State) (c f r : Nat) : State :=
  let x := (s.core c).facet f
  match x.badSegment r with
  | some g => s.parityFound c f ⟨r, g, Sparse.get 0 x.lastClean r⟩
  | none => s.modFacet c f fun x => { x with lastClean := Sparse.set 0 x.lastClean r s.deviceTime }

/-- The check of entry j of the exponent store, an event of its own (R50): its last clean visit stands under key 1,024 + j. -/
def State.scrubEntry (s : State) (c f j : Nat) : State :=
  let x := (s.core c).facet f
  if x.expParityOf j = Sparse.get false x.expParity j then
    s.modFacet c f fun x => { x with lastClean := Sparse.set 0 x.lastClean (1024 + j) s.deviceTime }
  else s.parityFound c f ⟨1024 + j, 0, Sparse.get 0 x.lastClean (1024 + j)⟩

/-- The scrub visits row r of facet f, and at row 0 of a facet in FP4 E2M1 its exponent store too (R49). -/
def State.scrubVisit (s : State) (c f r : Nat) : State :=
  let s := (s.count (Reg.FCT_SCRUB_ROWS c) 1).scrubRow c f r
  if r = 0 ∧ ((s.core c).facet f).fmt = 8 then (List.range 25).foldl (fun s j => s.scrubEntry c f j) s else s

/-- The due scrub read of core c is made (R49): none while none is due, or the cluster's clock is stopped; where the scrub is
off by then, or no facet is LOADED, it passes. -/
def State.scrub (s : State) (c : Nat) : State :=
  if !(s.core c).scrubDue ∨ s.clockStopped c ∨ s.module.fatal then s
  else
    match (s.core c).scrubNext.filter fun _ => decide (s.fld (Reg.FCT_CTRL c) 1 1 = 1) with
    | none => s.modCore c fun k => { k with scrubDue := false }
    | some (f, r) => (s.modCore c fun k => { k with scrubFacet := f, scrubRow := r + 1, scrubDue := false }).scrubVisit c f r

/-- SCRUB_READ (R49, R50, R53). -/
def execScrubRead (c : CoreId) (s : State) : Answer := .next (s.scrub c.toNat)

/-! ### The refill -/

/-- Whether a refill of facet f must wait: a command on the facet is in progress, or a check of it is pending (R51, R154). -/
def State.refillWaits (s : State) (c f : Nat) : Bool :=
  let k := s.core c
  k.issued.any (fun e => e.started && !e.done && decide (facetOf e.cmd = some f))
    || k.check.elim false fun p => decide (p.facet = f)

/-- The row, or the entry, passes its check again. -/
def Facet.passes (f : Facet) (r : Nat) : Bool :=
  if 1024 ≤ r then f.expParityOf (r - 1024) == Sparse.get false f.expParity (r - 1024) else (f.badSegment r).isNone

/-- The oldest refill of facet f is made (R50, R51): CORRECTED, or STALE and CONTAINED where its source cannot be read. -/
def State.refill (s : State) (c : CoreId) (f : FacetId) : State :=
  let n := c.toNat
  let x := (s.core n).facet f.toNat
  match x.refills, x.record with
  | r :: l, some rec_ =>
    if s.refillWaits n f.toNat then s.hold (.facetRefill c f)
    else
      match (if 1024 ≤ r.row then refillEntry n f.toNat (r.row - 1024) rec_ s else refillRow n f.toNat r.row rec_ s) with
      | (.waits, s) => s.hold (.facetRefill c f)
      | (a, s) =>
        let s := s.modFacet n f.toNat fun x => { x with refills := l }
        if a ≠ .failed ∧ ((s.core n).facet f.toNat).passes r.row then s.refillReport n f.toNat r clsCorrected true
        else (s.refillReport n f.toNat r clsContained false).markFacet n f.toNat .stale 0 0 0
  | _, _ => s

/-- FACET_REFILL (R50, R51). -/
def execFacetRefill (c : CoreId) (facet : FacetId) (s : State) : Answer := .next (s.refill c facet)

end Sys2Proof.Machine
end

