-- ==== Sys2Proof/Machine/Parallax.lean ====
section
/-!
DEFINITION. The end of a parallax check: the exact and the wide comparison (R146, R147, R201), the outcomes with their
counters, log, events and strikes (R148 to R151, R155), and the check that takes the refractor (R152).
-/

namespace Sys2Proof.Machine

/-! ### The comparisons -/

/-- Whether a value is a zero. -/
def Val.isZero : Val → Bool
  | .fin x _ => x.isZero
  | _ => false

/-- The runs recomputed from the weight rows (R146). -/
def Check.exact (k : Check) (f : Facet) : List Int :=
  if k.firet then f.outputs k.elems k.kRows k.nOut else f.runs k.elems k.kRows

/-- The weight values of output j, along the reduction index (R17, R18, R35). -/
def Check.weights (k : Check) (f : Facet) (j : Nat) : List Dy :=
  if k.firet then
    let img := Sparse.get 0 f.rows j
    (List.range k.nOut).map fun i => .ofInt (weightOf f.fmt.toNat img i)
  else (List.range k.kRows).map fun r => ⟨f.weight r (Sparse.get 0 f.rows r) j, f.colShift j⟩

/-- The wide value (R147): trees of four products into a fresh float accumulator of policy PROPAGATE, then its collapse. -/
def wideValue (ws : List Dy) (xs : List Val) : Val :=
  let ps := ws.zipWith (fun w x => (Val.of w).mul x) xs
  ((chunks 4 ps).foldl (fun p t => (promote true p (treeSum 3 t)).1) ⟨0, 0⟩).value

/-- The narrow value (R147). -/
def Check.narrow (k : Check) (y : Dy) (ws : List Dy) : Val :=
  (Val.of ((y.sub ((Dy.ofInt k.zpRef).mul (Dy.sum ws))).scale k.exp)).rn32

/-- The bound B (R147). -/
def Check.bound (k : Check) (ws : List Dy) (xs : List Val) : Val :=
  (Val.sum ((Val.of ((Dy.sum (ws.map Dy.abs)).scale (k.exp - 1)))
    :: ws.zipWith (fun w x => (((Val.of w).mul x).abs).scale (-20)) xs)).rn32

/-- The difference and ρ of output j (R147); NaN makes ρ infinite. -/
def Check.rho (k : Check) (f : Facet) (xs : List Val) (j : Nat) : Val × Val :=
  let ws := k.weights f j
  let y : Dy := ⟨k.runs.getD j 0, if k.firet then 0 else f.colShift j⟩
  let d := (addF (k.narrow y ws) (wideValue ws xs).neg).abs
  let b := k.bound ws xs
  let r : Val := if b.isZero then (if d.isZero then .of ⟨0, 0⟩ else .inf false) else divF32 d b
  (if d = .nan then .inf false else d, if r = .nan then .inf false else r)

/-- The first of the largest values of a list, with its index. -/
def firstMax {α : Type} (lt : α → α → Bool) (l : List α) : Option (Nat × α) :=
  l.zipIdx.foldl (fun b v => match b with
    | none => some (v.2, v.1)
    | some m => if lt m.2 v.1 then some (v.2, v.1) else some m) none

/-- The metric ρ, and the output with the largest difference (R147); none where there is no wide comparison. -/
def Check.wide (k : Check) (f : Facet) : Option (Val × Nat) :=
  if k.valid then
    let xs := k.refs.map (decodeVal k.refFmt)
    let rs := (List.range k.runs.length).map (k.rho f xs)
    some (((firstMax Val.lt (rs.map (·.2))).elim (.of ⟨0, 0⟩) (·.2)),
      (firstMax Val.lt (rs.map (·.1))).elim 0 (·.1))
  else none

/-- The bin of ρ (R156). -/
def rhoBin (r : Val) : Nat :=
  match r with
  | .fin x _ => if x.isZero then 0 else (max 0 (min 15 (x.log2 + 9))).toNat
  | _ => 15

/-! ### Outcomes -/

/-- The outcomes of R148. -/
inductive Outcome148 where
  | pass | soft | alarm | hard
deriving DecidableEq, Repr

/-- The outcome of a check (R148): thresholds 2^soft_log and 2^hard_log of PLX_CTRL. -/
def Check.outcome (k : Check) (sound : Bool) (rho : Option Val) : Outcome148 :=
  if !sound then .hard
  else
    match rho with
    | none => .pass
    | some r =>
      if !(Val.of ⟨1, bits k.plx 6 3⟩).lt r then .pass
      else if !(Val.of ⟨1, bits k.plx 9 4⟩).lt r then .soft else .alarm

/-- PLX_LOG (R156). -/
def State.plxLog (s : State) (c : Nat) (k : Check) (out : Nat) (exact faulty : Bool) : State :=
  s.setReg Reg.PLX_LOG (BitVec.ofNat 64 (place c 0 11 + place k.facet 11 5 + place out 16 10 + k.firet.toNat * 2 ^ 26
    + exact.toNat * 2 ^ 27 + faulty.toNat * 2 ^ 28 + 2 ^ 29))

/-- A PARALLAX event (R288). -/
def State.plxEvent (s : State) (c : Nat) (k : Check) (cls detail out : Nat) (rho : Option Val) : State :=
  s.raise { source := 0x03, cls := cls, detail := detail, job := k.job, core := c, facet := k.facet
            ring := (s.findJob k.job).elim 0 (·.ring)
            info0 := place k.seq 0 16 + place k.vector 16 16 + place out 32 10 + k.firet.toNat * 2 ^ 42
            info1 := rho.elim 0x7FC00000 fun r => (toF32 r).toNat }

/-- A hard mismatch (R149 to R151): a second strike condemns the facet; a first one is a contained fault. -/
def State.hardMismatch (s : State) (c : Nat) (k : Check) (out : Nat) (rho : Option Val) : State :=
  let struck := (s.core c).strikes.getLsbD k.facet
  let s := (s.count Reg.PLX_HARD 1).plxLog c k out true struck
  if struck then
    let ring := (s.findJob k.job).elim 0 (·.ring)
    let s := (s.plxEvent c k clsDegraded 2 out rho).markFacet c k.facet .faulty 1 k.job ring
    s.endJob k.job .facetFault c k.seq
  else
    let s := s.plxEvent c k clsContained 2 out rho
    let s := s.modCore c fun k' => { k' with strikes := k'.strikes ||| BitVec.ofNat 32 (2 ^ k.facet) }
    s.contain k.job 1 c k.seq 0 k.vector

/-- The effects of a completed check (R148, R152). -/
def State.finishCheck (s : State) (c : Nat) (k : Check) : State :=
  let f := (s.core c).facet k.facet
  let y := k.exact f
  let wide := k.wide f
  let rho := wide.map (·.1)
  let cycles := ceilDiv (k.kRows * k.nOut) 256 + (if wide.isSome then ceilDiv (k.kRows * k.nOut) 32 else 0)
  let s := (s.count Reg.PLX_SAMPLES 1).count (Reg.REF_CHECK_CYCLES c) cycles
  let s := match rho with
    | some r => s.count (Reg.PLX_RHO_HIST (rhoBin r)) 1
    | none => s.count Reg.PLX_NOREF 1
  let out := wide.elim 0 (·.2)
  let flag (s : State) : State := s.flagJob k.job fun f => { f with parallaxSoft := true }
  match k.outcome (decide (y = k.runs)) rho with
  | .pass => s
  | .soft =>
    let s := flag (s.count Reg.PLX_SOFT 1)
    if bit k.plx 13 then s.plxEvent c k 0 0 out rho else s
  | .alarm => (((flag (s.count Reg.PLX_HARD_DATA 1)).plxLog c k out false false).plxEvent c k 0 1 out rho)
  | .hard =>
    let worst := firstMax (fun (a b : Nat) => decide (a < b)) (List.zipWith (fun a b => (a - b).natAbs) y k.runs)
    s.hardMismatch c k (worst.elim 0 (·.1)) rho

/-- The pending check of core c completes (R145, R148). -/
def State.checkDone (s : State) (c : Nat) : State :=
  match (s.core c).check with
  | none => s
  | some k => (s.modCore c fun k => { k with check := none }).finishCheck c k

/-- PARALLAX_CHECK_DONE (R148). -/
def execParallaxCheckDone (c : CoreId) (s : State) : Answer := .next (s.checkDone c.toNat)

/-- PARALLAX_FORCE (R152): the pending check takes the refractor ahead of commands until it completes. -/
def execParallaxForce (c : CoreId) (s : State) : Answer :=
  .next (s.modCore c.toNat fun k => { k with check := k.check.map fun p => { p with urgent := true } })

end Sys2Proof.Machine
end

