-- ==== Sys2Proof/Machine/Replay.lean ====
section
/-!
DEFINITION. Containment and repetition: the re-run of a rescale group (R81), the replay of a job or its end after a
contained fault (R321, R322, R328 to R330, R391), and the watchdog (R320).
-/

namespace Sys2Proof.Machine

/-! ### Rescale groups -/

/-- The core goes back to the anchor of its group, one re-run further (R81), with the task record and the claim registers of
its issue. -/
def Core.toAnchor (k : Core) (g : RescaleGroup) : Core :=
  let a := g.anchor
  { k with nextSeq := a.seq, buffer := [], skip := 0, lastAnchor := none, task := a.task, x := a.x, xExhausted := a.xExhausted
           xAlready := a.xAlready, sRd := a.sRd, sWr := a.sWr, issued := k.issued.filter fun e => decide (e.seq < a.seq)
           group := some { g with rows := [], rho := min 3 (g.rho + 1), overflow := false, closing := none } }

/-- RESCALE_RETRY on core c (R81, R117): once the group's commands have drained, its dirty pairs and what its anchors have
observed are discarded, and the group runs again from its anchor. -/
def State.retryGroup (s : State) (c : Nat) : State :=
  match (s.core c).group, s.jobOn c with
  | some g, some j =>
    let q := g.anchor.seq
    if !g.overflow ∨ (s.core c).issued.any (fun e => decide (q ≤ e.seq ∧ !e.done)) then s
    else
      let s := s.discard c j.num fun p => g.rows.any fun t => decide (t % 256 = p)
      let s := (s.count (Reg.ACM_RESCALES c) 1).modJob j.num fun j =>
        { j.unobserve c q with flags := { j.flags with rescaled := true } }
      let s := (((s.core c).issued.filter fun e => decide (q ≤ e.seq)).foldl State.release s).modCore c (·.toAnchor g)
      { s with held := s.held.filter fun i => !heldOn [c] i || (s.core c).issued.any fun e => decide (e.cmd = i) }
  | _, _ => s

/-- RESCALE_RETRY (R81). -/
def execRescaleRetry (c : CoreId) (s : State) : Answer := .next (s.retryGroup c.toNat)

/-! ### Replay -/

/-- The status of a contained job that is not replayed (R322). -/
def Job.containedStatus (j : Job) (k : Contained) : Status :=
  if 3 ≤ j.replays then .replayLimit
  else if k.detector = 1 then .parallaxHard
  else if k.detector = 2 then .tagMismatch
  else .lost

/-- The end of a contained job (R319, R322): the CONTAINED record and the record of class JOB_FAILED. -/
def State.endContained (s : State) (j : Job) (k : Contained) (st : Status) : State :=
  let s := (s.raiseContained j k).raise
    (replayEvent j clsJobFailed (replayDetail k.detector j.replays true) j.faultCore k.seq k.info)
  s.endJob j.num st j.faultCore k.seq

/-- A core at the start of a replay (R328): the slots within the ring's CORE limits are EMPTY, the list starts again. -/
def Core.replayed (k : Core) (num lo hi : Nat) : Core :=
  { k.begin_ num with full := Sparse.drop (fun t => decide (lo ≤ 64 * t ∧ 64 * t + 64 ≤ hi)) k.full }

/-- The replay starts (R328, R150). -/
def State.startReplay (s : State) (j : Job) (k : Contained) : State :=
  let s := (s.discardJob j).closeWindows j.num
  let lo := (s.reg (Reg.HQ_LIM_BASE j.ring 0)).toNat
  let hi := (s.reg (Reg.HQ_LIM_END j.ring 0)).toNat
  let s := j.cores.foldl (fun s c => s.modCore c (·.replayed j.num lo hi)) s
  let j' := { j with replays := j.replays + 1, phase := .replaying, contained := none, tagWait := none, frozen := [], observed := []
                     faultCore := 0, flags := { j.flags with replayed := true }
                     epoch := if k.detector = 2 then s.cfg.cur.toNat else j.epoch
                     forceCheck := if k.detector = 1 then j.forceCheck ++ [(j.faultCore, k.seq, k.vector)] else j.forceCheck }
  let s := (s.modJob j.num fun _ => j').count Reg.GLB_REPLAYS 1
  let s := { s with requests := s.requests.filter fun r => r.job ≠ j.num }
  s.raise (replayEvent j' clsContained (replayDetail k.detector j'.replays false) j.faultCore k.seq k.info)

/-- Whether the descriptor's epoch lets a replay run on the current one (R391). -/
def State.epochFits (s : State) (j : Job) : Bool := decide (j.desc.epoch = 0xFFFFFFFF ∨ j.desc.epoch = s.cfg.cur)

/-- Whether every core of a job is its own or free. -/
def State.coresOwn (s : State) (j : Job) : Bool := j.cores.all fun c => decide ((s.core c).job = j.num ∨ (s.core c).job = 0)

/-- REPLAY_START (R321, R322, R328, R391): once the job's cores have stopped and everything it has sent is answered. -/
def State.replayStart (s : State) (num : Nat) : State :=
  match s.findJob num with
  | none => s
  | some j =>
    match j.contained with
    | none => s
    | some k =>
      if j.status.isSome ∨ !s.drained j ∨ !s.settled j ∨ s.module.fatal then s
      else if !j.replayable ∨ 3 ≤ j.replays then s.endContained j k (j.containedStatus k)
      else if k.detector = 2 ∧ j.tagWait.isSome then s
      else if k.detector = 2 ∧ !s.epochFits j then s.endContained j k .tagMismatch
      else if !s.coresOwn j ∨ s.power.state ≠ .run then s
      else s.startReplay j k

/-- REPLAY_START (R328). -/
def execReplayStart (job : Word32) (s : State) : Answer := .next (s.replayStart job.toNat)

/-! ### The watchdog -/

/-- Whether an issued command is held for a reason that R320 does not count: a counter, a tag, a TRANSIT receive, a page
request, the wake of a bank that it books, or a pending check (R153, R154). -/
def State.excused (s : State) (num c : Nat) (e : Issued) : Bool :=
  s.waitHeld c e || e.done || s.paged num c e || checkHolds (s.core c) e.cmd
    || !((e.banks.map (·.1)) ++ e.hot).all s.bankReady

/-- The started command of core c that has made no progress for wdog_us (R320). -/
def State.stuck (s : State) (j : Job) (c : Nat) : Option Issued :=
  (s.core c).issued.find? fun e =>
    e.started && !s.excused j.num c e && decide (1000 * atLeastOne (s.fld Reg.GLB_FLT_CTRL 0 16) ≤ s.ticks - e.since)

/-- WATCHDOG (R320). -/
def State.watchdog (s : State) (c : Nat) : State :=
  match s.jobOn c with
  | none => s
  | some j =>
    match s.stuck j c with
    | some e => s.contain j.num 5 c e.seq 0 0
    | none => s

/-- WATCHDOG (R320). -/
def execWatchdog (c : CoreId) (s : State) : Answer := .next (s.watchdog c.toNat)

end Sys2Proof.Machine
end

