-- ==== Sys2Proof/Machine/Translate.lean ====
section
/-!
DEFINITION. Translation and the host's way into memory: answers to page requests (R334, R335), ATS and TLB invalidation
(R332, R333), SMC_PHYS_DATA (R341), BAR4 (R234, R242, R253), and the power of shared-memory banks (R237 to R241).
-/

namespace Sys2Proof.Machine

/-! ### Page requests -/

/-- The outstanding page request of a group. -/
def State.pageReq (s : State) (g : Nat) (host : Bool) : Option PageReq :=
  s.pageReqs.find? fun r => decide (r.group = g ∧ r.host = host) && !r.answered

/-- A success answer (R335): the access translates again when its command next runs. -/
def State.pageGood (s : State) (r : PageReq) : State :=
  { s with pageReqs := s.pageReqs.map fun q => if q = r then { q with answered := true, tries := q.tries + 1 } else q }

/-- A write of GLB_PF_RESP (R334, R335). An answer to no outstanding STACKED request is ignored. -/
def State.answerPage (s : State) (group : Nat) (failed : Bool) : State :=
  match s.pageReq group false with
  | none => s
  | some r => if failed then s.failPage r false else s.pageGood r

/-- PAGE_RESPONSE (R334, R335). -/
def execPageResponse (group : BitVec 6) (failed : Bool) (s : State) : Answer := .next (s.answerPage group.toNat failed)

/-- What the host's translation of a page is from now on: the host decides, and the spec states no value. -/
def State.newHostPage (s : State) (p : Nat) : State :=
  let (b, s) := s.free
  { s with hostPages := Sparse.set 0 s.hostPages p (bits b 0 8 % 3) }

/-- PRG_RESPONSE (R335): Invalid Request and Response Failure fail; after a Response Failure later HOST requests fail. -/
def execPrgResponse (group : BitVec 9) (code : PrgCode) (s : State) : Answer :=
  .next (match s.pageReq group.toNat true with
    | none => s
    | some r =>
      match code with
      | .success => (s.pageGood r).newHostPage (r.va / 4096)
      | .invalidRequest => s.failPage r false
      | .responseFailure => State.failPage { s with module := { s.module with priFailed := true } } r false)

/-- PAGE_REQUEST_TIMEOUT (R335): no answer has come within pf_timeout_ms. -/
def execPageRequestTimeout (group : BitVec 6) (s : State) : Answer :=
  .next (match s.pageReqs.find? fun r => decide (r.group = group.toNat) && !r.answered with
    | none => s
    | some r =>
      if 1000000 * atLeastOne (s.fld Reg.GLB_FLT_CTRL 16 16) ≤ s.ticks - r.raised then s.failPage r true else s)

/-- PRI_ENABLE (R335): the host clears and sets PRI Enable. -/
def execPriEnable (s : State) : Answer :=
  .next { s with module := { s.module with priEnabled := true, priFailed := false } }

/-! ### Invalidation -/

/-- ATS_INVALIDATE of pages from an address on (R333): every access is made at once, so none still uses the translation. -/
def execAtsInvalidate (addr : Word64) (pages : Nat) (s : State) : Answer :=
  .next (((List.range pages).foldl (fun s i => s.newHostPage (addr.toNat / 4096 + i)) s).emit (.atsDone addr.toNat pages))

/-- SMC_TLB_INV (R332). -/
def execSmcTlbInv (s : State) : Answer := .next { s with tlb := [] }

/-! ### SMC_PHYS_DATA -/

/-- The address after an access (R341). -/
def State.nextPhys (s : State) : State :=
  let a := (s.reg Reg.SMC_PHYS_ADDR).toNat + 8
  s.setReg Reg.SMC_PHYS_ADDR (if stackedBytes ≤ a then 0 else BitVec.ofNat 64 a)

/-- The 8 bytes at SMC_PHYS_ADDR: all ones from a poisoned slot (R341). -/
def State.physData (s : State) : Word64 × State :=
  match readPhys Who.none (s.reg Reg.SMC_PHYS_ADDR).toNat 8 s with
  | (some bs, s) => (BitVec.ofNat 64 (ofBytes bs), s)
  | (none, s) => (0xFFFFFFFFFFFFFFFF, s)

/-- SMC_PHYS_DATA_READ (R341, R59): a read of a latched high half makes no access. -/
def State.physRead (s : State) (w : ReadWidth) : State :=
  if w = .high ∧ (s.latch Reg.SMC_PHYS_DATA).isSome then s.readWide Reg.SMC_PHYS_DATA w 0 id
  else
    let (v, s) := s.physData
    s.readWide Reg.SMC_PHYS_DATA w v (·.nextPhys)

/-- SMC_PHYS_DATA_READ (R341). -/
def execSmcPhysDataRead (w : ReadWidth) (s : State) : Answer := .next (s.physRead w)

/-- A 64-bit write of SMC_PHYS_DATA (R341): a partial write of its slot; discarded where the slot is poisoned. -/
def State.physWrite (s : State) (v : Word64) : State :=
  (writePhys Who.none (s.reg Reg.SMC_PHYS_ADDR).toNat ((toBytes 8 v.toNat).map whole) s).2.nextPhys

/-- SMC_PHYS_DATA_WRITE (R341). -/
def execSmcPhysDataWrite (v : Word64) (s : State) : Answer := .next (s.physWrite v)

/-! ### BAR4 -/

/-- End of the shared memory that BAR4 reaches (R234). -/
def barLimit : Nat := 0x0F000000

/-- BAR4_READ (R234, R242, R253). -/
def State.barRead (s : State) (off : BitVec 28) (len : BitVec 13) : State :=
  if barLimit < off.toNat + len.toNat ∨ barLimit ≤ off.toNat then
    { s.count Reg.SHM_BAR4_DENIED 1 with hostRead := .unsupported }
  else
    match s.rouse (banksOf off.toNat len.toNat) with
    | (false, s) => s.hold (.bar4Read off len)
    | (true, s) =>
      match readShared Who.none off.toNat len.toNat s with
      | (some bs, s) => { s with hostRead := .bytes bs }
      | (none, s) => { s with hostRead := .poisoned }

/-- BAR4_READ (R234). -/
def execBar4Read (off : BitVec 28) (len : BitVec 13) (s : State) : Answer := .next (s.barRead off len)

/-- BAR4_WRITE (R234, R242, R253): a word with a double-bit error takes only a write of all its 64 bits. -/
def State.barWrite (s : State) (off : BitVec 28) (data : List Byte) : State :=
  if barLimit < off.toNat + data.length ∨ barLimit ≤ off.toNat then s.count Reg.SHM_BAR4_DENIED 1
  else
    match s.rouse (banksOf off.toNat data.length) with
    | (false, s) => s.hold (.bar4Write off data)
    | (true, s) =>
      (cut 8 off.toNat (data.map whole)).foldl (fun s p => (writeSharedWord Who.none p s).2) (s.touchBanks off.toNat data.length)

/-- BAR4_WRITE (R234). -/
def execBar4Write (off : BitVec 28) (data : List Byte) (s : State) : Answer := .next (s.barWrite off data)

/-! ### Banks -/

/-- Whether a command of core c books bank b: it has bytes of it still to access, or the sparse engine has booked it for the
command's hot range (R238). -/
def Core.books (k : Core) (b : Nat) : Bool :=
  k.issued.any fun e => !e.done && (decide (Sparse.get 0 e.banks b ≠ 0) || e.hot.contains b)

/-- Whether bank b holds a booking (R238). -/
def State.booked (s : State) (b : Nat) : Bool := s.cores.any fun e => e.2.books b

/-- Whether the condition of a bank's mode holds (R237): S-cycles are 1 ÷ 1.4 ns. -/
def State.modeOff (s : State) (b : Nat) : Bool :=
  match s.bankMode b with
  | 1 => decide (10 * s.fld Reg.SHM_IDLE 0 16 ≤ 14 * (s.ticks - Sparse.get 0 s.bankIdle b))
  | 2 => true
  | _ => false

/-- BANK_OFF_DECISION (R237, R239): the contents are discarded. -/
def execBankOffDecision (bank : Fin 60) (s : State) : Answer :=
  let b := bank.val
  .next (if s.bankReady b && !s.booked b && s.modeOff b then
      ((s.setBank b .off).clearBank b).count Reg.SHM_OFFS 1
    else s)

/-- BANK_WAKE_DONE (R241), 4,096 S-cycles after the wake request. -/
def execBankWakeDone (bank : Fin 60) (s : State) : Answer :=
  let b := bank.val
  .next (match s.bank b with
    | .waking since =>
      if 40960 ≤ 14 * (s.ticks - since) then ((s.setBank b .on).clearBank b).touchBank b else s
    | _ => s)

/-- What mode ON does to a bank that is off (R237): it wakes. -/
def State.wakeIfOn (s : State) (b : Nat) : State := if s.bankMode b = 0 ∧ s.bankOff b then s.wakeBank b else s

/-- Mode ON written for bank b (R237). -/
def State.powerOn (s : State) (b : Nat) : State :=
  (s.setFld (Reg.SHM_PWR_MODE (b / 16)) (2 * (b % 16)) 2 0).wakeIfOn b

/-- POWER_MODE_WRITE (R237). -/
def execPowerModeWrite (bank : Fin 60) (s : State) : Answer := .next (s.powerOn bank.val)

/-! ### Sync counters from the host -/

/-- SYN_CTR_WRITE (R309): a SET. -/
def execSynCtrWrite (counter : BitVec 13) (v : Word64) (s : State) : Answer := .next (s.ctrOp .set counter.toNat v 0)

/-- A write of SYN_HOST_ADD (R309, R317): counter in bits [12:0], addend in bits [63:13]. -/
def State.hostAdd (s : State) (v : Word64) : State :=
  s.ctrOp .add (bits v 0 13) (BitVec.ofInt 64 (signed 51 (bits v 13 51))) 0

/-- SYN_HOST_ADD (R309, R317). -/
def execSynHostAdd (v : Word64) (s : State) : Answer := .next (s.hostAdd v)

/-! ### The sideband's events -/

/-- PLDM events (R492). -/
def pldmFatal : Nat := 0
def pldmThermalCrit : Nat := 1
def pldmPcie : Nat := 2
def pldmLane : Nat := 3

/-- A PlatformEventMessage goes to the bus owner, and SMB_ALERT_N is asserted (R492, R495). -/
def State.pldmEvent (s : State) (k : Nat) : State :=
  State.emit { s with module := { s.module with alert := true } } (.pldm k)

end Sys2Proof.Machine
end

