-- ==== Sys2Proof/Machine/Events.lean ====
section
/-!
DEFINITION. The event records of the Heliostat (R430), the configuration block (R398), the Uarid (R477) and collimation
(R448), with the values that they carry: the cap in force (R410) and the active firmware bundle's fields (R452); and what
a FATAL fault does (R338, R339).
-/

namespace Sys2Proof.Machine

/-! ### The cap -/

/-- The pool number; 0: no pool (R422). -/
def State.poolNumber (s : State) : Nat := s.fld Reg.HLS_POOL_CTRL 0 16

/-- The thermal cap from which on it is unlimited: above 750 W (R421). -/
def unlimited : Nat := 3001

/-- C_eff in units of 0.25 W, and the term that sets it (R410, R431): 0 HLS_CAP, 1 pool, 2 thermal. -/
def State.capEff (s : State) : Nat × Nat :=
  let c := 4 * s.fld Reg.HLS_CAP 0 10
  let (c, l) := if s.poolNumber ≠ 0 ∧ s.power.pool.cap < c then (s.power.pool.cap, 1) else (c, 0)
  if s.power.thermalCap < unlimited ∧ s.power.thermalCap < c then (s.power.thermalCap, 2) else (c, l)

/-! ### Records -/

/-- Kinds of HELIOSTAT events (R430). -/
inductive HelKind where
  | distrustEnter | distrustExit | recalFail | telemetryGap | telemetryLost | droopPersist | thermalThrottle | thermalCrit
  | thermalClear | thermalTrip | poolFloor | poolConflict | poolErr | state
deriving DecidableEq, Repr

/-- Code of a kind. -/
def HelKind.code : HelKind → Nat
  | .distrustEnter => 0
  | .distrustExit => 1
  | .recalFail => 2
  | .telemetryGap => 3
  | .telemetryLost => 4
  | .droopPersist => 5
  | .thermalThrottle => 6
  | .thermalCrit => 7
  | .thermalClear => 8
  | .thermalTrip => 9
  | .poolFloor => 10
  | .poolConflict => 11
  | .poolErr => 12
  | .state => 13

/-- Code of a device state (R430, R431). -/
def DevState.code : DevState → Nat
  | .run => 0
  | .doze => 1
  | .dormant => 2

/-- The record of a HELIOSTAT event (R430): its die, and for pool kinds the round. -/
def State.helRecord (s : State) (k : HelKind) (die round : Nat) : Event :=
  let p := s.power
  { source := 0x11, cls := if k = .telemetryLost ∨ k = .thermalTrip then clsFatal else 0
    detail := place k.code 0 4 + place die 4 3 + (if k = .state then place p.state.code 8 2 else 0)
    info0 := place p.pest 0 16 + place p.pmeas 16 16 + place s.capEff.1 32 16
    info1 := place p.hottest 0 8 + place p.hotSensor 8 8 + place round 16 32
    info2 := place p.g 0 3 + place p.beta 3 6 }

/-- Posts a HELIOSTAT event. -/
def State.helEvent (s : State) (k : HelKind) (die round : Nat) : State := s.raise (s.helRecord k die round)

/-- Posts a CONFIG event (R398): kind, port or WEAR_OUT's cause, the epoch and the tag it concerns, info2. -/
def State.cfgEvent (s : State) (kind more epoch tag info2 : Nat) : State :=
  s.postEvent { source := 0x10, detail := place kind 0 4 + more
                info0 := place s.cfg.cur.toNat 0 32 + place epoch 32 32
                info1 := place s.cfg.tag.toNat 0 32 + place tag 32 32, info2 := info2 }

/-- Posts WEAR_WARN or WEAR_OUT of a persistent register (R396, R398). -/
def State.wearEvent (s : State) (kind cause i : Nat) (wear : Nat) : State :=
  s.postEvent { source := 0x10, detail := place kind 0 4 + place cause 7 1, info0 := place s.cfg.cur.toNat 0 32
                info1 := place i 0 6 + place wear 32 17 }

/-- Posts a COLLIMATION event (R448). -/
def State.colEvent (s : State) (kind phase cls info0 info1 info2 : Nat) : State :=
  s.raise { source := 0x12, cls := cls, detail := place kind 0 4 + place phase 4 3, info0 := info0, info1 := info1
            info2 := info2 }

/-- The contents of a bundle slot. -/
def Uarid.slot (u : Uarid) (b : Bool) : Sparse Byte := if b then u.slotB else u.slotA

/-- A field of n bytes of a bundle, at a byte offset. -/
def bundleNum (m : Sparse Byte) (off n : Nat) : Nat := ofBytes (Sparse.getList 0 m off n)

/-- The security version of a bundle (R452). -/
def bundleSvn (m : Sparse Byte) : Nat := bundleNum m 8 4

/-- The build identifier of a bundle (R452). -/
def bundleBuild (m : Sparse Byte) : Nat := bundleNum m 16 8

/-- The life-cycle state (R471): the highest whose fuse is blown; 0 FACTORY, 1 PRODUCTION, 2 RMA, 3 SCRAPPED. -/
def Uarid.life (u : Uarid) : Nat :=
  if u.lifecycle.getLsbD 2 then 3 else if u.lifecycle.getLsbD 1 then 2 else if u.lifecycle.getLsbD 0 then 1 else 0

/-- The code of a path in a SECURITY event (R477), and the source device. -/
def pathCode : MgmtPath → Nat × Nat
  | .mailbox => (0, 0)
  | .sideband => (1, 0)
  | .fabric src => (2, src.toNat)

/-- The record of a SECURITY event (R477): more holds the path or the detector. -/
def State.secRecord (s : State) (kind more session src lock : Nat) : Event :=
  let u := s.uarid
  let m := u.slot u.activeSlot
  { source := 0x14, cls := if kind = 15 ∨ kind = 16 then clsFatal else 0, detail := place kind 0 5 + more
    info0 := place session 0 16 + place src 16 16 + place u.life 32 8
    info1 := place u.fwStatus 0 4 + place u.activeSlot.toNat 4 1 + place (bundleSvn m) 5 7 + place lock 12 16
    info2 := bundleBuild m }

/-- Posts a SECURITY event. -/
def State.secEvent (s : State) (kind more session src lock : Nat) : State := s.raise (s.secRecord kind more session src lock)

/-! ### FATAL faults -/

/-- A core that a FATAL fault has stopped. -/
def Core.stopped (k : Core) : Core := { k.halt with job := 0, check := none }

/-- Every core stopped. -/
def stopAll (m : Sparse Core) : Sparse Core := (m.map fun e => (e.1, e.2.stopped)).filter fun e => decide (e.2 ≠ Core.reset)

/-- The first key of the fault log's entries for FATAL faults; the entries of FAULTY facets carry their core. -/
def fatalKey : Nat := 4096

/-- A FATAL fault (R338, R339), with its event record and the code of its entry in the fault log: every engine stops, every
fetched job is reported LOST, and no work is accepted until a reset. A second fault adds nothing. -/
def State.fatal (s : State) (e : Event) (code : Nat) : State :=
  if s.module.fatal then s
  else
    let s : State := { s with module := { s.module with fatal := true }
                              uarid := { s.uarid with faultLog := s.uarid.faultLog ++ [(fatalKey, code)] } }
    let s := (s.raise { e with cls := clsFatal }).setFld Reg.GLB_FAULT_STAT 0 1 1
    let s := s.jobs.foldl (fun s j => s.writeRecord j .lost) s
    State.pldmEvent { s with jobs := [], held := [], cores := stopAll s.cores, windows := [], pageReqs := [], requests := [] }
      pldmFatal

/-- The code of a source of a FATAL fault in the fault log (the model's own; the spec gives no format). -/
def fatalCode : FatalSource → Nat
  | .alwaysOn => 0
  | .uaridLockstep => 1
  | .uaridWatchdog => 2
  | .heliostatLockstep => 3
  | .telemetryLost => 4
  | .dieInterface => 5
  | .stackLoss => 6
  | .thermalTrip => 7
  | .input => 8

/-- The record of a FATAL fault (R339): that of the Uarid or the Heliostat where a kind of theirs names the fault; for the
others the spec names no source, and that byte is a free value. -/
def State.fatalRecord (s : State) (src : FatalSource) : Event × State :=
  match src with
  | .uaridLockstep => (s.secRecord 15 0 0 0 0, s)
  | .uaridWatchdog => (s.secRecord 16 0 0 0 0, s)
  | .telemetryLost => (s.helRecord .telemetryLost 0 0, s)
  | .thermalTrip => (s.helRecord .thermalTrip 0 0, s)
  | _ =>
    let (b, s) := s.free
    ({ source := bits b 0 8 }, s)

/-- A FATAL fault of a source. -/
def State.fatalFrom (s : State) (src : FatalSource) : State :=
  if s.module.fatal then s
  else
    let (e, s) := s.fatalRecord src
    s.fatal e (fatalCode src)

/-- FATAL_FAULT (R338, R339). -/
def execFatalFault (src : FatalSource) (s : State) : Answer := .next (s.fatalFrom src)

end Sys2Proof.Machine
end

