-- ==== Sys2Proof/Machine/Pool.lean ====
section
/-!
DEFINITION. Power pools (R422 to R429): validity, the entries that members exchange in their beats, the grants, and the
pool cap of each round.
-/

namespace Sys2Proof.Machine

/-! ### The pool's registers -/

/-- The device's own index in its pool (R422). -/
def State.poolIndex (s : State) : Nat := s.fld Reg.HLS_POOL_CTRL 16 4

/-- Members of the pool. -/
def State.poolMembers (s : State) : Nat := s.fld Reg.HLS_POOL_CTRL 20 4 + 1

/-- Beats of a round, n (R423). -/
def State.roundBeats (s : State) : Nat := clampNat 4 63 (s.fld Reg.HLS_POOL_CTRL 24 6)

/-- The floor of member i, in units of 0.25 W. -/
def State.poolFloor (s : State) (i : Nat) : Nat := s.fld (Reg.HLS_POOL_FLOOR i) 0 12

/-- The device's own floor. -/
def State.ownFloor (s : State) : Nat := s.poolFloor s.poolIndex

/-- The budget B in units of 0.25 W. -/
def State.poolBudget (s : State) : Nat := 4 * s.fld Reg.HLS_POOL_BUDGET 0 16

/-- Whether a floor lies from 400 W to 750 W. -/
def floorOk (f : Nat) : Bool := decide (1600 ≤ f ∧ f ≤ 3000)

/-- The floors of the members. -/
def State.poolFloors (s : State) : List Nat := (List.range s.poolMembers).map s.poolFloor

/-- Whether the pool is valid (R422). -/
def State.poolValid (s : State) : Bool :=
  decide (s.poolIndex < s.poolMembers) && s.poolFloors.all floorOk && decide (s.poolFloors.sum ≤ s.poolBudget)

/-- Whether this device takes part in a pool's rounds. -/
def State.inPool (s : State) : Bool := decide (s.poolNumber ≠ 0) && s.poolValid

/-- The pool state replaced. -/
def State.setPool (s : State) (p : Pool) : State := { s with power := { s.power with pool := p } }

/-- What a change of a pool register or of CFG_BEAT does (R422, R428): an invalid pool is reported and gives the device its
own floor, or 400 W; a valid one governs on its floor from the next round on, and on the lower of cap and floor until then. -/
def State.poolChanged (s : State) : State :=
  let p := s.power.pool
  if s.poolNumber = 0 then s.setPool Pool.reset
  else if !s.poolValid then
    let cap := if floorOk s.ownFloor then s.ownFloor else 1600
    let s := s.setPool { Pool.reset with cap := cap, err := true }
    if p.err then s else s.helEvent .poolErr 0 0
  else
    let cap := if p.cap = 0 then s.ownFloor else min p.cap s.ownFloor
    s.setPool { p with cap := cap, nextCap := none, grants := [], complete := false, err := false, holdFloor := true }

/-! ### Grants -/

/-- What a member asks for, what it has as its floor, and how late it is. -/
structure Claim where
  demand : Nat
  floor : Nat
  late : Nat
deriving DecidableEq, Repr

/-- The first grant of each member (R424): its demand up to its floor, and 400 W at least. -/
def Claim.first (c : Claim) : Nat := max (min c.demand c.floor) 1600

/-- Claims with their grants so far. -/
abbrev Grants := List (Claim × Nat)

/-- Whether a member wants more. -/
def wants (e : Claim × Nat) : Bool := decide (e.2 < e.1.demand)

/-- The weight of the members that want more. -/
def weight (l : Grants) : Nat := ((l.filter wants).map fun e => 1 + e.1.late).sum

/-- What one pass gives a member. -/
def share (spare w : Nat) (e : Claim × Nat) : Nat :=
  if wants e then min (e.1.demand - e.2) (spare * (1 + e.1.late) / w) else 0

/-- The member that takes the last unit: the latest, then the lowest index. -/
def latest (l : Grants) : Nat :=
  let best := (l.filter wants).foldl (fun b e => max b e.1.late) 0
  l.findIdx fun e => wants e && decide (e.1.late = best)

/-- The passes of R424 while something is spare and wanted; each takes at least one unit, so spare passes are enough. -/
def passes : Nat → Nat → Grants → Grants
  | 0, _, l => l
  | n + 1, spare, l =>
    if spare = 0 ∨ !l.any wants then l
    else
      let w := weight l
      let took := (l.map (share spare w)).sum
      if took = 0 then passes n (spare - 1) (l.modify (latest l) fun e => (e.1, e.2 + 1))
      else passes n (spare - took) (l.map fun e => (e.1, e.2 + share spare w e))

/-- The grants of a round (R424), in units of 0.25 W. -/
def allocate (cs : List Claim) (budget : Nat) : List Nat :=
  let l : Grants := cs.map fun c => (c, c.first)
  let spare := budget - (l.map (·.2)).sum
  (passes spare spare l).map (·.2)

/-! ### The view -/

/-- The entry held of member j. -/
def Pool.member (p : Pool) (j : Nat) : Option Member := (p.members.find? fun e => decide (e.1 = j)).map (·.2)

/-- Whether an entry of member j is held whose origin beat is at least b. -/
def Pool.fresh (p : Pool) (j b : Nat) : Option Member := (p.member j).filter fun m => decide (b ≤ m.origin)

/-- The claim of member j in the round that begins at beat b; none where the view lacks it. -/
def State.poolClaim (s : State) (b j : Nat) : Option Claim :=
  let p := s.power.pool
  if j = s.poolIndex then some ⟨p.demand, s.poolFloor j, p.lateness⟩
  else (p.fresh j b).map fun m => ⟨m.entry.demand.toNat, s.poolFloor j, m.entry.lateness.toNat⟩

/-- The claims of every member, when the view is complete (R424). -/
def allClaims (f : Nat → Option Claim) : List Nat → Option (List Claim)
  | [] => some []
  | j :: l =>
    match f j, allClaims f l with
    | some c, some cs => some (c :: cs)
    | _, _ => none

/-- Beat n·k + D: the view and the grants (R424). -/
def State.poolView (s : State) (start : Nat) : State :=
  let p := s.power.pool
  match allClaims (s.poolClaim start) (List.range s.poolMembers) with
  | some cs => s.setPool { p with complete := true, grants := allocate cs s.poolBudget }
  | none => s.setPool { p with complete := false, grants := [] }

/-- Whether every member that is granted less than its floor has shown that it received its grant (R425). -/
def State.fallsShown (s : State) (from_ : Nat) (g : List Nat) : Bool :=
  (List.range s.poolMembers).all fun j =>
    decide (j = s.poolIndex ∨ s.poolFloor j ≤ g.getD j 0)
      || (s.power.pool.fresh j from_).elim false fun m => decide (m.entry.grant.toNat = g.getD j 0)

/-- The cap that R425 gives, and whether it is the floor of its third case. -/
def State.poolDecision (s : State) (from_ : Nat) : Nat × Bool :=
  let p := s.power.pool
  let g := p.grants.getD s.poolIndex 0
  let f := s.ownFloor
  if p.complete ∧ !p.conflict ∧ (g ≤ f ∨ s.fallsShown from_ p.grants) then (g, false) else (f, true)

/-- Beat n·k + n - 1: the cap for the next round (R425, R426); a lower one takes effect now. -/
def State.poolDecide (s : State) (k start : Nat) : State :=
  let (cap, fl) := s.poolDecision (start + s.roundBeats / 2)
  let p := s.power.pool
  let s := s.count Reg.HLS_POOL_ROUNDS 1
  let s := s.setPool { p with cap := if p.holdFloor then p.cap else min p.cap cap, nextCap := some cap, nextFloor := fl }
  if fl ∧ !p.onFloor then s.helEvent .poolFloor 0 k else s

/-- floor(255 · (1 - w/a)), or 0 when a is 0 (R423). -/
def latenessOf (ran waited : Nat) : Nat := if ran = 0 then 0 else min 255 (255 * (ran - waited) / ran)

/-- Beat n·k: a round begins (R423, R426, R428, R429). -/
def State.poolBegin (s : State) (k : Nat) : State :=
  let p := s.power.pool
  let fl := p.nextFloor || p.holdFloor
  let cap := if p.holdFloor then s.ownFloor else p.nextCap.getD p.cap
  let s := s.setPool { p with
    cap := cap, nextCap := none, onFloor := fl, nextFloor := false, grants := []
    conflict := p.conflict && decide (k < p.conflictRound + 2), holdFloor := false
    demand := min (4 * s.fld Reg.HLS_CAP 0 10) p.want, lateness := latenessOf p.ran p.waited, want := 0, ran := 0
    waited := 0 }
  if fl then s.count Reg.HLS_POOL_FLOORS 1 else s

/-- What a beat of this number does in the pool's round (R423 to R426). -/
def State.poolBeat (s : State) (number : Nat) : State :=
  if !s.inPool then s
  else
    let n := s.roundBeats
    let k := number / n
    let i := number % n
    if i = 0 then s.poolBegin k
    else if i = n / 2 then s.poolView (n * k)
    else if i = n - 1 then s.poolDecide k (n * k)
    else s

/-! ### Entries -/

/-- The device's own entry (R423, R424). -/
def State.ownEntry (s : State) : PoolEntry :=
  let p := s.power.pool
  { demand := BitVec.ofNat 12 p.demand, grant := BitVec.ofNat 12 (p.grants.getD s.poolIndex 0)
    lateness := BitVec.ofNat 8 p.lateness, age := 0, valid := true }

/-- No entry. -/
def PoolEntry.none : PoolEntry := ⟨0, 0, 0, 0, false⟩

/-- The entry of member j that a beat of this number carries (R423). -/
def State.entryFor (s : State) (number j : Nat) : PoolEntry :=
  if j = s.poolIndex then s.ownEntry
  else
    match s.power.pool.member j with
    | some m =>
      let age := number - m.origin
      if j < s.poolMembers ∧ age < s.roundBeats then { m.entry with age := BitVec.ofNat 8 age } else PoolEntry.none
    | none => PoolEntry.none

/-- The member table of a beat (R376). -/
def State.poolEntries (s : State) (number : Nat) : List PoolEntry :=
  if s.inPool then (List.range 16).map (s.entryFor number) else List.replicate 16 PoolEntry.none

/-- The device keeps what it has published, for as many beats as an entry may live. -/
def State.notePublished (s : State) (number : Nat) : State :=
  let p := s.power.pool
  if s.inPool then s.setPool { p with sent := ((number, s.ownEntry) :: p.sent).take s.roundBeats } else s

/-- Whether an entry of the device's own index is its own, come back: one that it has published (R429). -/
def Pool.own (p : Pool) (origin : Nat) (e : PoolEntry) : Bool :=
  p.sent.any fun x => decide (x.1 = origin ∧ x.2.demand = e.demand ∧ x.2.grant = e.grant ∧ x.2.lateness = e.lateness)

/-- An entry of the device's own index from another device (R429). -/
def State.poolConflict (s : State) (number : Nat) : State :=
  let p := s.power.pool
  let k := number / s.roundBeats
  let s := s.setPool { p with conflict := true, conflictRound := k, cap := s.ownFloor, nextCap := none }
  s.helEvent .poolConflict 0 k

/-- A received entry of member j in a beat of this number (R423, R429). -/
def State.takeEntry (s : State) (number j : Nat) (e : PoolEntry) : State :=
  let p := s.power.pool
  let origin := number - e.age.toNat
  if !e.valid ∨ s.poolMembers ≤ j ∨ number < e.age.toNat then s
  else if j = s.poolIndex then
    if e.age = 0 ∨ p.own origin e then s else s.poolConflict number
  else if (p.member j).elim true fun m => decide (m.origin < origin) then
    s.setPool { p with members := (p.members.filter fun x => decide (x.1 ≠ j)) ++ [(j, ⟨e, origin⟩)] }
  else s

/-- The beat number whose low 32 bits a received beat carries: the one next to the device's own last beat. -/
def fullNumber (last low : Nat) : Nat :=
  let n := last - last % 2 ^ 32 + low
  if last + 2 ^ 31 < n then n - 2 ^ 32 else if n + 2 ^ 31 < last then n + 2 ^ 32 else n

/-- The entries of a received beat (R423): those of another pool are ignored. -/
def State.takeEntries (s : State) (m : BeatMsg) : State :=
  if !s.inPool ∨ m.pool.toNat ≠ s.poolNumber then s
  else
    let number := fullNumber (s.cfg.pastBeats.head?.elim 0 (·.number)) m.number.toNat
    (m.entries.zipIdx).foldl (fun s e => s.takeEntry number e.2 e.1) s

end Sys2Proof.Machine
end

