-- ==== Sys2Proof/Machine/Preg.lean ====
section
/-!
DEFINITION. Persistent registers (R393 to R397).
-/

namespace Sys2Proof.Machine

/-- Persistent register i. -/
def State.preg (s : State) (i : Nat) : Preg := Sparse.get Preg.reset s.pregs i

/-- Persistent register i replaced. -/
def State.setPreg (s : State) (i : Nat) (p : Preg) : State := { s with pregs := Sparse.set Preg.reset s.pregs i p }

/-- Whether a register is worn out (R396). -/
def Preg.worn (p : Preg) : Bool := decide (100000 ≤ p.wear)

/-- A write of a persistent register (R394, R396): the shadow at once, and a program of a slot; while one is in progress
the value waits, and a newer one replaces it. A worn-out register ignores it. -/
def Preg.write (p : Preg) (v : Word64) : Preg :=
  if p.worn then p
  else if p.programming.isNone then { p with shadow := v, programming := some v }
  else { p with shadow := v, pending := some v }

/-- A write of persistent register i (R394). -/
def State.writePreg (s : State) (i : Nat) (v : Word64) : State := s.setPreg i ((s.preg i).write v)

/-- The CRC-32 of a slot's value and sequence number (R395). -/
def slotCrc (v : Word64) (seq : Word32) : Word32 := BitVec.ofNat 32 (crc32 (toBytes 8 v.toNat ++ toBytes 4 seq.toNat))

/-- Whether a slot passes. -/
def PregSlot.passes (x : PregSlot) : Bool := decide (x.crc = slotCrc x.value x.seq)

/-- The slot that a program of v writes, after the durable slot d (R395). -/
def PregSlot.next (d : PregSlot) (v : Word64) : PregSlot := ⟨v, d.seq + 1, slotCrc v (d.seq + 1)⟩

/-- The slot that holds the durable value. -/
def Preg.durable (p : Preg) : PregSlot := if p.inB then p.slotB else p.slotA

/-- A program of v is complete (R394 to R396): the value that waits is programmed next, unless the register is now worn
out. -/
def Preg.programmed (p : Preg) (v : Word64) : Preg :=
  let x := p.durable.next v
  let p := if p.inB then { p with slotA := x, inB := false } else { p with slotB := x, inB := true }
  let p := { p with wear := p.wear + 1 }
  if p.worn then { p with programming := none, pending := none }
  else { p with programming := p.pending, pending := none }

/-- PREG_PROGRAM_DONE (R395, R396). -/
def execPregProgramDone (i : BitVec 6) (s : State) : Answer :=
  let n := i.toNat
  .next (match (s.preg n).programming with
    | none => s
    | some v =>
      let p := (s.preg n).programmed v
      let s := s.setPreg n p
      let s := if p.wear = 90000 then s.wearEvent 11 0 n p.wear else s
      if p.wear = 100000 then s.wearEvent 12 0 n p.wear else s)

/-- The slot that a program in progress was writing is torn when power is lost (R395): its check fails. -/
def Preg.torn (p : Preg) : Preg :=
  match p.programming with
  | none => p
  | some v =>
    let x := p.durable.next v
    let x : PregSlot := { x with crc := x.crc + 1 }
    if p.inB then { p with slotA := x } else { p with slotB := x }

/-- The register after power-up (R395): the passing slot with the higher sequence number, or 0. -/
def Preg.powerUp (p : Preg) : Preg :=
  let p := { p.torn with programming := none, pending := none }
  let a := p.slotA.passes
  let b := p.slotB.passes
  let inB := b && (!a || decide (p.slotA.seq < p.slotB.seq))
  { p with inB := inB, shadow := if inB then p.slotB.value else if a then p.slotA.value else 0 }

/-- Whether neither slot of a register passes (R395). -/
def Preg.lost (p : Preg) : Bool := !p.slotA.passes && !p.slotB.passes

end Sys2Proof.Machine
end

