-- ==== Sys2Proof/Machine/Parent.lean ====
section
/-!
DEFINITION. Device time as the fabric sees it (R370, R371, R374): the master, the parent of every other device, its depth
and its bound.
-/

namespace Sys2Proof.Machine

/-- Whether this device is the time master (R370). -/
def State.timeMaster (s : State) : Bool := decide (s.fld Reg.NRN_TIME_CTRL 0 1 = 1)

/-- The exchange period in µs (R372). -/
def State.timePeriod (s : State) : Nat := s.fld Reg.NRN_TIME_CTRL 1 8

/-- The depth that a parent at port p would give (R371): none unless its last TIME message shows it locked, over an open
port, with a depth below 30. -/
def State.parentDepth (s : State) (p : Nat) : Option Nat :=
  let q := s.port p
  if q.open_ then (q.neighbour.filter fun n => n.locked && decide (n.depth ≤ 29)).map (·.depth) else none

/-- The parent port (R371): the least depth, then the lowest port. -/
def State.bestParent (s : State) : Option Nat :=
  (List.range 6).foldl (fun b p =>
    match s.parentDepth p, b.bind s.parentDepth with
    | none, _ => b
    | some _, none => some p
    | some d, some e => if d < e then some p else b) none

/-- 0.9 ns for each of n hops, in units of 0.25 ns, rounded up (R374). -/
def hopBound (n : Nat) : Nat := ceilDiv (36 * n) 10

/-- The bound below a parent of a depth and a bound, in units of 0.25 ns: 0.9 ns more (R374). The units round up the sum of
the hops, not each hop: what a parent's bound holds beyond its own hops is kept. -/
def boundAfter (depth b : Nat) : Nat := min 255 (hopBound (depth + 1) + (b - hopBound depth))

/-- The parent, the depth and the bound of a device that is not the master (R371, R374). -/
def State.chooseParent (s : State) : State :=
  if s.timeMaster then s
  else
    let b := s.bestParent
    let n := b.bind fun p => (s.port p).neighbour
    let bound := if s.time.state = .free then 255 else n.elim s.time.bound fun n => boundAfter n.depth n.bound
    { s with time := { s.time with parent := b, depth := n.elim 31 fun n => n.depth + 1, bound := bound } }

/-- The bound now, in units of 0.25 ns (R374): in HOLDOVER 1 ns more for every 250 µs. -/
def State.timeBound (s : State) : Nat :=
  if s.time.state = .holdover then min 255 (s.time.bound + 4 * ((s.ticks - s.time.holdSince) / 250000)) else s.time.bound

end Sys2Proof.Machine
end

