-- ==== Sys2Proof/Machine/Fabric.lean ====
section
/-!
DEFINITION. The Narnos fabric: messages that arrive (R355 to R368, R353), the flow of flits with acknowledges, naks and
credits (R347 to R350, R358), ports with their training, retrains, lanes and low rate (R345, R350 to R353, R364), and the
timers of requests (R365, R367, R368).
-/

namespace Sys2Proof.Machine

/-! ### Messages that arrive -/

/-- Whether a message can arrive: at the device itself, or by a port that carries messages. -/
def State.arrives (s : State) (h : MsgHdr) : Bool := h.inPort.elim true fun p => (s.port p.val).open_

/-- Whether a request needs the compute dies or the stacked memory (R353, R408). -/
def needsRun : Payload → Bool
  | .wr st _ _ => st
  | .rd st _ _ => st
  | .transit _ => true
  | _ => false

/-- A message for another device goes on (R360, R364): it keeps its input buffer until it is sent or discarded (R358). -/
def State.forward (s : State) (m : QMsg) : State :=
  match s.sendMsg m with
  | (true, s) => s.answerReq m.hdr rspUnreach []
  | (false, s) => s

/-- A message arrives (R353, R355, R360, R366), by the channel that its header says (R357). mgmt: what a management message
does (R464). -/
def State.arrive (s : State) (i : Instr) (m : QMsg) (mgmt : DevNum → List Byte → State → State) : State :=
  let m := { m with inVc := m.vc }
  if !s.arrives m.hdr then s
  else
    match m.payload with
    | .bad _ request =>
      let s := m.hdr.inPort.elim s fun p => s.count (Reg.NRN_BAD_MSG p.val) 1
      (if request then s.answerReq m.hdr rspRefused [] else s).giveBack m
    | p =>
      if m.hdr.dst.toNat ≠ s.selfDev then s.forward m
      else
        match p with
        | .rsp st data => (s.respond m.hdr.txn.toNat st.toNat data m.hdr.tag).giveBack m
        | .mgmt body => (mgmt m.hdr.src body (s.answerReq m.hdr rspOk [])).giveBack m
        | p =>
          if needsRun p ∧ s.power.state ≠ .run then s.inRun i id
          else
            match serve m.hdr p s with
            | (some (st, data), s) => (s.answerReq m.hdr st data).giveBack m
            | (none, s) => s.hold i

/-- A message of a row of its own: its length follows from what it carries. -/
def State.arriveRow (s : State) (i : Instr) (h : MsgHdr) (p : Payload) : State :=
  s.arrive i { hdr := h, len := payloadWords p, payload := p } fun _ _ s => s

/-- MSG_WR (R248, R356, R366). -/
def execMsgWr (h : MsgHdr) (stacked : Bool) (addr : BitVec 48) (data : List Byte) (s : State) : Answer :=
  .next (s.arriveRow (.msgWr h stacked addr data) h (.wr stacked addr data))

/-- MSG_RD (R248, R356, R366). -/
def execMsgRd (h : MsgHdr) (stacked : Bool) (addr : BitVec 48) (count : BitVec 13) (s : State) : Answer :=
  .next (s.arriveRow (.msgRd h stacked addr count) h (.rd stacked addr count))

/-- MSG_SYNC (R313, R316). -/
def execMsgSync (h : MsgHdr) (m : SyncMsg) (s : State) : Answer := .next (s.arriveRow (.msgSync h m) h (.sync m))

/-- MSG_TRANSIT (R368). -/
def execMsgTransit (h : MsgHdr) (m : TransitMsg) (s : State) : Answer := .next (s.arriveRow (.msgTransit h m) h (.transit m))

/-- MSG_JOBEND (R367). -/
def execMsgJobend (h : MsgHdr) (job : BitVec 24) (s : State) : Answer := .next (s.arriveRow (.msgJobend h job) h (.jobend job))

/-- MSG_RSP (R365, R366). -/
def execMsgRsp (h : MsgHdr) (status : BitVec 4) (data : List Byte) (s : State) : Answer :=
  .next (s.arriveRow (.msgRsp h status data) h (.rsp status data))

/-! ### Timers of requests -/

/-- Whether the response of a request is overdue (R365), by the job's epoch (R383). -/
def State.overdue (s : State) (r : Request) : Bool :=
  let v := (s.findJob r.job).elim (s.reg Reg.NRN_ROUTE_CTRL) fun j => s.epochReg j Reg.NRN_ROUTE_CTRL
  decide (1000 * atLeastOne (bits v 16 16) ≤ s.ticks - r.sent)

/-- Whether a request is a JOBEND. -/
def Request.isJobend (r : Request) : Bool :=
  match r.payload with
  | .jobend _ => true
  | _ => false

/-- RESPONSE_TIMEOUT (R365). -/
def execResponseTimeout (txn : BitVec 16) (s : State) : Answer :=
  .next (match s.findReq txn.toNat with
    | none => s
    | some r => if s.overdue r && !r.isJobend && !r.busy then s.respond txn.toNat rspUnreach [] 0 else s)

/-- Sends a request again, with the tag now in force (R381, R389). -/
def State.resend (s : State) (r : Request) : State :=
  let r' := { r with busy := false, sent := s.ticks }
  ((s.modReq r.txn fun _ => r').launch r').2

/-- TRANSIT_BUSY_RETRY (R366, R368), 1 µs after the answer BUSY. -/
def execTransitBusyRetry (txn : BitVec 16) (s : State) : Answer :=
  .next (match s.findReq txn.toNat with
    | none => s
    | some r => if r.busy ∧ 1000 ≤ s.ticks - r.sent then s.resend r else s)

/-- JOBEND_RESEND (R367). -/
def execJobendResend (txn : BitVec 16) (s : State) : Answer :=
  .next (match s.findReq txn.toNat with
    | none => s
    | some r => if s.overdue r && r.isJobend then s.resend r else s)

/-- xt_flush (R368); in DOZE the time towards DORMANT counts from the last staged message on (R407). -/
def State.flushStaging (s : State) : State :=
  let from_ := if s.staging = [] ∨ s.power.state ≠ .doze then s.power.enteredAt else s.ticks
  { s with staging := [], power := { s.power with enteredAt := from_ } }

/-- XT_FLUSH (R368). -/
def execXtFlush (s : State) : Answer := .next s.flushStaging

/-! ### Ports -/

/-- Whether a port is enabled (R345). -/
def State.portEn (s : State) (p : Nat) : Bool := decide (s.fld (Reg.NRN_PORT_CTRL p) 0 1 = 1)

/-- The lanes that a port may use (R352). -/
def State.lanesAllowed (s : State) (p : Nat) : BitVec 4 := BitVec.ofNat 4 (s.fld (Reg.NRN_PORT_CTRL p) 3 4)

/-- The device number that R344 and NRN_TOPO place at port p. -/
def State.neighbourDev (s : State) (p : Nat) : Nat :=
  let a := p / 2
  let n := s.axisSize a
  let c := coord s.selfDev a
  let c' := if p % 2 = 0 then (c + 1) % n else (c + n - 1) % n
  s.selfDev - c * 16 ^ a + c' * 16 ^ a

/-- Kinds of LINK messages (R355). -/
def kindHello : Nat := 0
def kindSlow : Nat := 1
def kindFast : Nat := 2

/-- Sends the HELLO of a port (R345, R350, R352). It ends a training or a retrain, which carries no flits: it is exchanged
outside the numbered data flits (DEDUCED, log entry 147). -/
def State.sendHello (s : State) (p : Nat) : State := s.emit ((LinkMsg.link kindHello).out s p)

/-- Kinds of LINK events (R377). -/
def evUp : Nat := 0
def evDown : Nat := 1
def evLane : Nat := 2
def evRetrain : Nat := 3
def evWiring : Nat := 4
def evMode : Nat := 5
def evStep : Nat := 6
def evHoldover : Nat := 7
def evLocked : Nat := 8
def evBeatLost : Nat := 9
def evDiscard : Nat := 10

/-- What a port's going down means for device time: nothing is known of that neighbour (R371). -/
def Port.lost (q : Port) : Port := { q with neighbour := none }

/-- A port goes DOWN (R350, R352, R371, R377): it is retried after wait ns, a retrain that the host asked for is done, and no
window of its lanes is one of three in a row (R351). -/
def State.portDown (s : State) (p wait : Nat) : State :=
  let q := s.port p
  let s := s.setPort p { q.lost with state := .down, active := 0, downSince := if q.open_ then s.ticks else q.downSince
                                     retryAt := s.ticks + wait, retrainAsked := false, symRuns := [0, 0, 0, 0] }
  let s := s.chooseParent
  s.linkEvent evDown (if q.withdrawn = 0 then 0 else clsDegraded) p 0

/-- Lanes withdrawn, each with its LINK event and its notice on the sideband (R351, R492). -/
def State.withdraw (s : State) (p : Nat) (lanes : BitVec 4) : State :=
  (List.range 4).foldl (fun s l =>
    if lanes.getLsbD l && !(s.port p).withdrawn.getLsbD l then
      (s.modPort p fun q => { q with withdrawn := q.withdrawn ||| BitVec.ofNat 4 (2 ^ l), symRuns := q.symRuns.set l 0
                                     healthy := q.healthy &&& ~~~(BitVec.ofNat 4 (2 ^ l)) }).linkEvent evLane clsDegraded p 0
        |>.pldmEvent pldmLane
    else s) s

/-- The outcome of training (R345, R351, R352): healthy lanes among those that are allowed and not withdrawn, the rest of the
allowed ones withdrawn; then HELLO, or DOWN with no lane left. A withdrawn lane stays so: only the host's retrain and a
collimation slice try it again (R352). -/
def State.trained (s : State) (p : Nat) (healthy : BitVec 4) (state : PortState) : State :=
  let ok := healthy &&& s.lanesAllowed p &&& ~~~(s.port p).withdrawn
  let s := s.modPort p fun q => { q with state := state, healthy := ok }
  let s := s.withdraw p (s.lanesAllowed p &&& ~~~ok)
  if ok = 0 then s.portDown p 100000000 else s.sendHello p

/-- Training of a port from DOWN starts (R345); with no HELLO it is tried again after the training and the retry time. -/
def State.startTraining (s : State) (p : Nat) (healthy : BitVec 4) : State :=
  (s.modPort p fun q => { q with retryAt := s.ticks + 300000000 }).trained p healthy .training

/-- PORT_TRAIN: en of NRN_PORT_CTRL becomes 1 (R345). -/
def State.portTrain (s : State) (p : Nat) (healthy : BitVec 4) : State :=
  if s.portEn p then s else (s.setFld (Reg.NRN_PORT_CTRL p) 0 1 1).startTraining p healthy

/-- PORT_TRAIN (R345): healthy is the outcome of the training. -/
def execPortTrain (port : PortId) (healthy : BitVec 4) (s : State) : Answer := .next (s.portTrain port.val healthy)

/-- PORT_RETRY (R345). -/
def execPortRetry (port : PortId) (healthy : BitVec 4) (s : State) : Answer :=
  let p := port.val
  let q := s.port p
  .next (if s.portEn p ∧ (q.state = .down ∨ q.state = .training) ∧ q.retryAt ≤ s.ticks then s.startTraining p healthy else s)

/-- A retrain starts (R350, R352): no flit moves, and an exchange of device time by this port is abandoned (R372). The port
is no longer UP or LOW, from which R364 counts. -/
def State.retrain (s : State) (p : Nat) (healthy : BitVec 4) : State :=
  let s := s.count (Reg.NRN_RETRAINS p) 1
  let s := s.modPort p fun q => { q with sameNaks := 0, downSince := if q.open_ then s.ticks else q.downSince
                                         retrainAt := s.ticks }
  let s : State := { s with time := { s.time with exchange := s.time.exchange.filter fun e => decide (e.port ≠ p) } }
  ((s.linkEvent evRetrain 0 p 0).trained p healthy .retrain).chooseParent

/-- The lanes that pass a training which the device or a register write starts: the outcome is the link's, a free value (log entry
148). -/
def State.lanesPassing (s : State) : BitVec 4 × State :=
  let (b, s) := s.free
  (b.setWidth 4, s)

/-- A retrain that the device starts by itself (R350, R352): every lane that is allowed and not withdrawn is trained. -/
def State.retrainAlone (s : State) (p : Nat) : State :=
  let (h, s) := s.lanesPassing
  s.retrain p h

/-- Lanes of port p are tried again (R352, R443): in a retrain of a port that runs, in a training of one that is DOWN. -/
def State.tryLanes (s : State) (p : Nat) (lanes healthy : BitVec 4) : State :=
  if !s.portEn p then s
  else
    let s := s.modPort p fun q => { q with withdrawn := q.withdrawn &&& ~~~lanes }
    if (s.port p).open_ ∨ (s.port p).state = .retrain then s.retrain p healthy else s.startTraining p healthy

/-- retrain of NRN_PORT_CTRL written (R352, R378): withdrawn lanes are tried again; the bit reads 1 until that is done. -/
def State.retrainPort (s : State) (p : Nat) (healthy : BitVec 4) : State :=
  if s.portEn p then (s.modPort p fun q => { q with retrainAsked := true }).tryLanes p 15 healthy else s

/-- PORT_RETRAIN_REQUEST (R352): healthy is the outcome of the training. -/
def execPortRetrainRequest (port : PortId) (healthy : BitVec 4) (s : State) : Answer :=
  .next (s.retrainPort port.val healthy)

/-- Acknowledges up to a sequence number (R347, R349): the unacknowledged flits that it covers are freed. -/
def State.ackTo (s : State) (p ack : Nat) : State :=
  let q := s.port p
  let k := (ack + 1025 - q.txAcked % 1024) % 1024
  if k = 0 ∨ q.txNext - q.txAcked < k then s
  else s.setPort p { q with txAcked := q.txAcked + k, unacked := q.unacked.drop k, lastProgress := s.ticks, sameNaks := 0
                            noProgress := 0 }

/-- Resends every unacknowledged flit, in order and unchanged, each on the lane of its number (R346, R349). -/
def State.resendFlits (s : State) (p : Nat) : State :=
  let q := s.port p
  let k := q.unacked.length
  q.unacked.zipIdx.foldl (fun s f => s.emit (.flit p (laneOf q.active (q.txAcked + f.2)) f.1))
    (((s.count (Reg.NRN_RETRIES p) k).count (Reg.NRN_TX_FLITS p) k).flitsSent k)

/-- Whether the device is DORMANT. -/
def State.asleep (s : State) : Bool := decide (s.power.state = .dormant)

/-- The lowest-numbered active lane. -/
def lowestLane (a : BitVec 4) : BitVec 4 := a &&& -a

/-- A link goes to the low rate (R353). -/
def State.goLow (s : State) (p : Nat) : State :=
  let q := s.port p
  if q.state = .up then
    (s.setPort p { q with state := .low, priorActive := q.active, active := lowestLane q.active }).linkEvent evMode 0 p 0
  else s

/-- The end of a retrain at the peer's HELLO (R350, R352). The link is LOW while either end is DORMANT (R353): a DORMANT device
says SLOW again, since the retrain may have kept it from doing so. -/
def State.retrained (s : State) (p : Nat) (m : HelloMsg) : State :=
  let before := (s.port p).txAcked
  let s := s.ackTo p m.lastSeq.toNat
  let q := s.port p
  let stuck := if q.txAcked = before ∧ q.txNext ≠ q.txAcked then q.noProgress + 1 else 0
  let active := q.healthy &&& m.lanes
  let s := s.setPort p { q with noProgress := stuck, peer := m.dev, lastProgress := s.ticks, retrainAsked := false }
  if active = 0 ∨ 3 ≤ stuck then s.portDown p 100000000
  else
    let low := q.peerLow || s.asleep
    let s := s.modPort p fun q => { q with priorActive := active, active := if low then lowestLane active else active
                                           state := if low then .low else .up }
    let s := (s.resendFlits p).chooseParent
    if s.asleep then s.sendLink p (.link kindSlow) else s.pump p

/-- The end of a training at the peer's HELLO (R345, R353, R358). -/
def State.cameUp (s : State) (p : Nat) (m : HelloMsg) : State :=
  let found := m.dev.toNat
  if found ≠ s.neighbourDev p then
    let s := s.modPort p fun q => { q.lost with state := .down, active := 0, retryAt := s.ticks + 1000000000, retrainAsked := false }
    s.linkEvent evWiring 0 p found
  else
    let q := s.port p
    let active := q.healthy &&& m.lanes
    if active = 0 then s.portDown p 100000000
    else
      let s := s.setPort p { q with state := .up, active := active, priorActive := active, peer := m.dev, peerLow := false
                                    credits := [4096, 4096, 4096, 4096], noProgress := 0, sameNaks := 0
                                    lastProgress := s.ticks, retrainAsked := false }
      let s := (s.ackTo p m.lastSeq.toNat).linkEvent evUp 0 p 0
      let s := s.resendFlits p
      if s.asleep then (s.sendLink p (.link kindSlow)).goLow p else s.pump p

/-- LINK_HELLO (R345, R350, R352). -/
def execLinkHello (port : PortId) (m : HelloMsg) (s : State) : Answer :=
  .next (match (s.port port.val).state with
    | .training => s.cameUp port.val m
    | .retrain => s.retrained port.val m
    | _ => s)

/-- A link returns to the mode and lanes it had before, when neither end is DORMANT (R353). -/
def State.goFast (s : State) (p : Nat) : State :=
  let q := s.port p
  if q.state = .low ∧ !q.peerLow ∧ s.power.state ≠ .dormant then
    ((s.setPort p { q with state := .up, active := q.priorActive }).linkEvent evMode 0 p 0).pump p
  else s

/-- LINK_SLOW (R353): the peer enters DORMANT. -/
def execLinkSlow (port : PortId) (s : State) : Answer :=
  let p := port.val
  .next (if (s.port p).open_ then (s.modPort p fun q => { q with peerLow := true }).goLow p else s)

/-- LINK_FAST (R353): the peer has left DORMANT. -/
def execLinkFast (port : PortId) (s : State) : Answer :=
  let p := port.val
  .next ((s.modPort p fun q => { q with peerLow := false }).goFast p)

/-- LINK_WIDTH (R355): the table of message types names this kind, and no rule gives it an effect; it is received, and
changes nothing (DESIGN CHOICE). -/
def execLinkWidth (_port : PortId) (_lanes : BitVec 4) (s : State) : Answer := .next s

/-! ### Flits -/

/-- Eight naks with the same ack start a retrain (R350). -/
def State.noteNak (s : State) (p ack : Nat) : State :=
  let q := s.port p
  let n := if q.lastNakAck = ack then q.sameNaks + 1 else 1
  let s := s.setPort p { q with lastNakAck := ack, sameNaks := n }
  if 8 ≤ n then s.retrainAlone p else s

/-- A nak (R349): resend from ack + 1. -/
def State.nak (s : State) (p ack : Nat) : State := (((s.ackTo p ack).resendFlits p).noteNak p ack)

/-- The ack and nak of a flit with a good check. -/
def State.takeAck (s : State) (p ack : Nat) (nak : Bool) : State := (if nak then s.nak p ack else s.ackTo p ack).pump p

/-- A discarded flit (R349): nak is set at once, and again every 64 flits; a control flit carries it. -/
def State.discardFlit (s : State) (p : Nat) : State :=
  let q := s.port p
  if q.nakSent ∧ q.nakFlits + 1 < 64 then s.setPort p { q with nakFlits := q.nakFlits + 1 }
  else (s.setPort p { q with nakSent := true, nakFlits := 0 }).emit (.control p q.accepted true)

/-- The input port of a link-local message (R355). -/
def linkLocalPort : Instr → Option PortId
  | .msgBeat p _ => some p
  | .timeSync p _ => some p
  | .timeDelayReq p _ => some p
  | .timeDelayRsp p _ => some p
  | .linkHello p _ => some p
  | .linkSlow p => some p
  | .linkFast p => some p
  | .linkWidth p _ => some p
  | _ => none

/-- A whole message that has come in by a port waits to be handled; of link-local ones an input port holds eight (R357). One
of a kind that no table names has no effect. -/
def State.takeMessage (s : State) (port : PortId) (bs : List Byte) : State :=
  match readMessage (BitVec.ofNat 12 s.selfDev) port bs with
  | none => s
  | some i =>
    if (linkLocalPort i).isSome ∧ 8 ≤ s.held.countP (fun j => decide (linkLocalPort j = some port)) then
      s.count (Reg.NRN_BAD_MSG port.val) 1
    else s.hold i

/-- The payload of an accepted data flit follows the bytes received before it; the messages that are whole are taken in order
(R354, R362). -/
def State.takeBytes (s : State) (port : PortId) (bs : List Byte) : State :=
  let all := (s.port port.val).rxBytes ++ bs
  let (ms, rest) := splitMessages (all.length + 1) all
  ms.foldl (fun s m => s.takeMessage port m) (s.modPort port.val fun q => { q with rxBytes := rest })

/-- A data flit in order with a good check (R347, R349): its credits, then its payload. -/
def State.acceptFlit (s : State) (port : PortId) (f : DataFlit) : State :=
  let q := s.port port.val
  ((s.setPort port.val { q with
    rxExpected := (q.rxExpected + 1) % 1024, nakSent := false, nakFlits := 0
    credits := q.credits.set f.cvc.toNat (min 4096 (q.credits.getD f.cvc.toNat 0 + f.ccount.toNat)) }).count
      (Reg.NRN_RX_FLITS port.val) 1).takeBytes port f.payload

/-- What a port has accepted is acknowledged by the data flits that it sends, and where it sends none by a control flit
(R347; DEDUCED). first: the number of its next data flit before. -/
def State.acknowledge (s : State) (p first : Nat) : State :=
  let q := s.port p
  if q.open_ ∧ q.txNext = first then s.emit (.control p q.accepted false) else s

/-- A data flit (R347, R349). One that was accepted before is discarded without a nak, its credits ignored, and acknowledged
again. -/
def State.dataFlit (s : State) (port : PortId) (f : DataFlit) : State :=
  let p := port.val
  let q := s.port p
  if !q.open_ then s
  else if !f.crcOk ∨ !f.fecOk then
    (if f.crcOk then s else s.count (Reg.NRN_CRC_ERRS p) 1).discardFlit p
  else
    let behind := (q.rxExpected + 1024 - f.seq.toNat % 1024) % 1024
    if 512 < behind then (s.discardFlit p).takeAck p f.ack.toNat f.nak
    else ((if behind = 0 then s.acceptFlit port f else s).takeAck p f.ack.toNat f.nak).acknowledge p q.txNext

/-- DATA_FLIT_RECEIVE (R349). -/
def execDataFlitReceive (port : PortId) (f : DataFlit) (s : State) : Answer := .next (s.dataFlit port f)

/-- FLIT_NAK (R349, R350). -/
def execFlitNak (port : PortId) (ack : BitVec 10) (s : State) : Answer :=
  .next (if (s.port port.val).open_ then s.takeAck port.val ack.toNat true else s)

/-- CONTROL_FLIT (R347). -/
def execControlFlit (port : PortId) (ack : BitVec 10) (nak : Bool) (s : State) : Answer :=
  .next (if (s.port port.val).open_ then s.takeAck port.val ack.toNat nak else s)

/-- A retrain in which no HELLO has come within its 50 µs ends without progress (R350; DEDUCED): the port retrains again, and
goes DOWN after the third in a row. -/
def State.retrainOver (s : State) (p : Nat) : State :=
  let s := s.modPort p fun q => { q with noProgress := q.noProgress + 1 }
  if 3 ≤ (s.port p).noProgress then s.portDown p 100000000 else s.retrainAlone p

/-- ACK_TIMEOUT (R350): flits outstanding for 10 µs without progress, or a retrain at the end of its 50 µs. -/
def execAckTimeout (port : PortId) (s : State) : Answer :=
  let p := port.val
  let q := s.port p
  .next (if q.state = .retrain then (if 50000 ≤ s.ticks - q.retrainAt then s.retrainOver p else s)
    else if q.open_ ∧ q.txNext ≠ q.txAcked ∧ 10000 ≤ s.ticks - q.lastProgress then s.retrainAlone p else s)

/-! ### Lanes -/

/-- The counts of one lane over one window (R351, R378): whether it is to be withdrawn, and the windows in a row that
exceed sym_limit. -/
def State.laneWindow (s : State) (p l : Nat) (k : LaneCount) : Bool × State :=
  let lim := s.reg (Reg.NRN_LANE_LIMIT p)
  let q := s.port p
  let run := if bits lim 0 16 < k.corrected then q.symRuns.getD l 0 + 1 else 0
  let s := s.setPort p { q with symRuns := q.symRuns.set l run }
  let s := (s.count (Reg.NRN_LANE_SYM p l) k.corrected).count (Reg.NRN_FEC_UNCORR p) k.uncorrectable
  (decide (3 ≤ run ∨ atLeastOne (bits lim 16 4) ≤ k.uncorrectable), s)

/-- The window of every active lane; one that is not active has no window, and none that three in a row count from. -/
def State.laneWindows (s : State) (p : Nat) : List (Nat × LaneCount) → BitVec 4 × State
  | [] => (0, s)
  | (l, k) :: ks =>
    if (s.port p).active.getLsbD l then
      let (bad, s) := s.laneWindow p l k
      let (w, s) := s.laneWindows p ks
      (if bad then w ||| BitVec.ofNat 4 (2 ^ l) else w, s)
    else (s.modPort p fun q => { q with symRuns := q.symRuns.set l 0 }).laneWindows p ks

/-- LANE_ERROR_WINDOW (R351, R352): lanes holds the counts of lanes 0 to 3. -/
def execLaneErrorWindow (port : PortId) (lanes : List LaneCount) (s : State) : Answer :=
  let p := port.val
  .next (if !(s.port p).open_ then s
    else
      let (w, s) := s.laneWindows p (lanes.zipIdx.map fun e => (e.2, e.1))
      if w = 0 then s
      else (s.withdraw p w).retrainAlone p)

/-! ### Long outages -/

/-- What a discarded message costs: it leaves its input buffer, and a request is answered UNREACH (R358, R364). -/
def State.dropMsg (s : State) (m : QMsg) : State :=
  let s := s.giveBack m
  if isResponse m.payload then s
  else
    let s := s.count Reg.NRN_UNREACH 1
    if m.hdr.src.toNat = s.selfDev then s.respond m.hdr.txn.toNat rspUnreach [] 0 else s.answerReq m.hdr rspUnreach []

/-- DOWN_LIMIT_EXPIRY (R364, R377). -/
def execDownLimitExpiry (port : PortId) (s : State) : Answer :=
  let p := port.val
  let msgs := (s.port p).queue
  .next (if !s.downLong p ∨ msgs = [] then s
    else
      let s := s.modPort p fun q => { q with queue := [] }
      (msgs.foldl State.dropMsg s).linkEvent evDiscard 0 p msgs.length)

end Sys2Proof.Machine
end

