-- ==== Sys2Proof/Machine/Time.lean ====
section
/-!
DEFINITION. Device time (R370 to R374): the exchanges that measure the offset, the corrections,
the lock and HOLDOVER.
-/

namespace Sys2Proof.Machine

/-! ### Exchanges -/

/-- A TIME message as this device forms it now, with timestamp a (R372); the port writes a send timestamp as it sends it. -/
def State.timeMsg (s : State) (number : Nat) : TimeMsg :=
  { a := BitVec.ofNat 72 s.time.now, depth := BitVec.ofNat 5 s.time.depth, locked := decide (s.time.state = .locked)
    bound := BitVec.ofNat 8 s.timeBound, exchange := BitVec.ofNat 16 number }

/-- Kinds of TIME messages (R372). -/
def kindSync : Nat := 0
def kindDelayReq : Nat := 1
def kindDelayRsp : Nat := 2

/-- What every TIME message shows of its sender (R371). -/
def State.hearTime (s : State) (p : Nat) (m : TimeMsg) : State :=
  (s.modPort p fun q => { q with neighbour := some ⟨m.depth.toNat, m.locked, m.bound.toNat⟩ }).chooseParent

/-- A TIME message is taken only over an open port. -/
def State.onTime (s : State) (p : Nat) (m : TimeMsg) (f : State → State) : State :=
  if (s.port p).open_ then f (s.hearTime p m) else s

/-- TIME SYNC (R372): the child notes t1 and t2, and sends DELAY_REQ; t3 is the time of its sending. -/
def State.timeSync (s : State) (p : Nat) (m : TimeMsg) : State :=
  if s.timeMaster ∨ s.time.parent ≠ some p then s
  else
    let x : Exchange := { port := p, number := m.exchange.toNat, t1 := m.a.toNat, t2 := s.time.now, t3 := s.time.now }
    State.sendLink { s with time := { s.time with exchange := some x } } p (.time kindDelayReq (s.timeMsg m.exchange.toNat))

/-- TIME_SYNC (R372). -/
def execTimeSync (port : PortId) (m : TimeMsg) (s : State) : Answer :=
  .next (s.onTime port.val m fun s => s.timeSync port.val m)

/-- TIME_DELAY_REQ (R372): the parent answers with t4. -/
def execTimeDelayReq (port : PortId) (m : TimeMsg) (s : State) : Answer :=
  .next (s.onTime port.val m fun s => s.sendLink port.val (.time kindDelayRsp (s.timeMsg m.exchange.toNat)))

/-! ### Corrections -/

/-- Whether |θ| lies within the trim range of 0.0016 · period_us µs (R373). -/
def withinTrim (theta : Int) (period : Nat) : Bool := decide (theta.natAbs * 10 ≤ 4096 * period)

/-- The correction for an offset θ (R373): a step forward, half rate, or a trim over 8 periods. -/
def TimeBase.correct (t : TimeBase) (theta : Int) (period : Nat) : TimeBase :=
  if withinTrim theta period then { t with trimNum := -theta, trimDen := 8000 * period, trimAcc := 0, half := 0 }
  else if theta < 0 then { t with now := t.now + theta.natAbs, half := 0 }
  else { t with half := theta.natAbs }

/-- Whether an offset lies within the trim range once it is corrected (R373): a step forward removes it at once, half rate
does not. -/
def inRange (theta : Int) (period : Nat) : Bool := withinTrim theta period || decide (theta < 0)

/-- A completed exchange with offset θ over port p (R373, R374). -/
def State.timeDone (s : State) (p : Nat) (theta : Int) : State :=
  let period := s.timePeriod
  let t := s.time.correct theta period
  let locks := decide (s.time.state = .holdover) || (decide (s.time.state = .free) && inRange theta period)
  let s : State := { s with time := { t with theta := theta, exchange := none, lastDone := s.ticks
                                             state := if locks then .locked else t.state } }
  let s := if withinTrim theta period then s
    else (s.count Reg.NRN_TIME_STEPS 1).linkEvent evStep 0 p (unsigned 64 theta)
  let s := s.chooseParent
  if locks then s.linkEvent evLocked 0 p 0 else s

/-- The offset of an exchange whose DELAY_RSP carries t4 (R372): half, rounded down. -/
def Exchange.theta (x : Exchange) (t4 : Nat) : Int := (((x.t2 : Int) - x.t1) - ((t4 : Int) - x.t3)) / 2

/-- TIME DELAY_RSP (R372). One that answers no exchange in progress changes nothing else. -/
def State.timeDelayRsp (s : State) (p : Nat) (m : TimeMsg) : State :=
  match s.time.exchange with
  | none => s
  | some x =>
    if x.port ≠ p ∨ x.number ≠ m.exchange.toNat ∨ s.timeMaster ∨ s.time.parent ≠ some p then s
    else s.timeDone p (x.theta m.a.toNat)

/-- TIME_DELAY_RSP (R372). -/
def execTimeDelayRsp (port : PortId) (m : TimeMsg) (s : State) : Answer :=
  .next (s.onTime port.val m fun s => s.timeDelayRsp port.val m)

/-- TIME_EXCHANGE (R372): a SYNC on every open port. -/
def execTimeExchange (s : State) : Answer :=
  let n := (s.time.exchangeNo + 1) % 65536
  let s : State := { s with time := { s.time with exchangeNo := n } }
  .next (((List.range 6).filter fun p => (s.port p).open_).foldl
    (fun s p => s.sendLink p (.time kindSync (s.timeMsg n))) s)

/-- HOLDOVER (R374): 1 ms without a completed exchange. -/
def execHoldover (s : State) : Answer :=
  .next (if s.timeMaster ∨ s.time.state ≠ .locked ∨ s.ticks - s.time.lastDone < 1000000 then s
    else
      State.linkEvent { s with time := { s.time with state := .holdover, holdSince := s.ticks } } evHoldover 0
        (s.time.parent.getD 7) 0)

/-- The role of the master changes (R370): the master is LOCKED with depth 0 and a bound of 0. -/
def State.setMaster (s : State) (on : Bool) : State :=
  let was := s.timeMaster
  let s := s.setFld Reg.NRN_TIME_CTRL 0 1 on.toNat
  if on then
    { s with time := { s.time with state := .locked, parent := none, depth := 0, bound := 0, exchange := none } }
  else if was then State.chooseParent { s with time := { s.time with lastDone := s.ticks } }
  else s

end Sys2Proof.Machine
end

