-- ==== Sys2Proof/Machine/Epoch.lean ====
section
/-!
DEFINITION. Configuration epochs (R379 to R388): the epoch registers and the digest, staging and arming, application and
retirement, direct writes; with the firmware slot that an epoch may carry (R459, R460).
-/

namespace Sys2Proof.Machine

/-! ### Epoch registers and the digest -/

/-- The epoch registers in ascending BAR0 offset (R379, R431). -/
def epochOffsets : List Nat :=
  [Reg.GLB_EXP_CTRL, Reg.HLS_POOL_CTRL, Reg.HLS_POOL_BUDGET] ++ (List.range 16).map Reg.HLS_POOL_FLOOR ++ [Reg.CFG_BEAT]
    ++ (List.range 32).map Reg.CFG_PREG
    ++ [Reg.NRN_ROUTE_CTRL, Reg.SMC_EXPORT_BASE, Reg.SMC_EXPORT_LIMIT, Reg.SHM_EXPORT_BASE, Reg.SHM_EXPORT_LIMIT,
        Reg.SYN_REMOTE_FIRST, Reg.SYN_REMOTE_COUNT, Reg.PLX_CTRL, Reg.PLX_SEED]

/-- The index of the persistent register at an offset. -/
def pregAt (off : Nat) : Option Nat :=
  if Reg.CFG_PREG 0 ≤ off ∧ off < Reg.CFG_PREG 64 ∧ off % 8 = 0 then some ((off - Reg.CFG_PREG 0) / 8) else none

/-- The current value of an epoch register: its RW and RWP fields (R379). -/
def State.epochValue (s : State) (off : Nat) : Word64 :=
  match pregAt off with
  | some i => (s.preg i).shadow
  | none => s.reg off &&& BitVec.ofNat 64 (rwMask off)

/-- The values of the epoch registers. -/
def State.epochValues (s : State) : List (Nat × Word64) := epochOffsets.map fun o => (o, s.epochValue o)

/-- Values overlaid by the entries of a staging list. -/
def overlay (vals entries : List (Nat × Word64)) : List (Nat × Word64) :=
  vals.map fun v => (entries.find? fun e => decide (e.1 = v.1)).getD v

/-- The configuration digest over register values and measurements (R380). -/
def digestOf (vals : List (Nat × Word64)) (meas : List (List Byte)) : BitVec 256 :=
  BitVec.ofNat 256 (ofBytes (shake256 (ascii "DLM2048-CFG-1" ++ (vals.flatMap fun v => toBytes 4 v.1 ++ toBytes 8 v.2.toNat)
    ++ toBytes 4 meas.length ++ meas.flatten) 32))

/-- The tag of a digest (R380). -/
def tagOf (d : BitVec 256) : Word32 := if d.extractLsb' 0 32 = 0 then 1 else d.extractLsb' 0 32

/-- The current digest and tag formed again (R381). -/
def State.redigest (s : State) : State :=
  let d := digestOf s.epochValues s.uarid.meas
  { s with cfg := { s.cfg with digest := d, tag := tagOf d } }

/-! ### Staging -/

/-- Codes of the staging status (R385). -/
def stIdle : Nat := 0
def stStaged : Nat := 1
def stArmed : Nat := 2
def stBadOffset : Nat := 3
def stListFull : Nat := 4
def stEpochOrder : Nat := 5
def stRetiring : Nat := 6
def stTooSoon : Nat := 7
def stNotBeat : Nat := 8
def stUnlocked : Nat := 9
def stWorn : Nat := 10
def stTooLate : Nat := 11

/-- The status set. -/
def State.stageStatus (s : State) (st : Nat) : State := { s with cfg := { s.cfg with status := st } }

/-- The status without a failure. -/
def Cfg.plain (c : Cfg) : Nat := if c.staged.isNone then stIdle else if c.armTime = 0 then stStaged else stArmed

/-- The staged epoch's number and tag, as events carry them. -/
def Cfg.stagedNum (c : Cfg) : Nat := c.staged.elim 0 (·.num.toNat)
def Cfg.stagedTag (c : Cfg) : Nat := c.staged.elim 0 (·.tag.toNat)

/-- A failed operation (R385). -/
def State.stageRefused (s : State) (st : Nat) : State :=
  (s.stageStatus st).cfgEvent 1 0 s.cfg.stagedNum s.cfg.stagedTag st

/-- CLEAR (R385). -/
def State.stageClear (s : State) : State :=
  { s with cfg := { s.cfg with stageList := [], status := s.cfg.plain } }

/-- STAGE_CLEAR (R385). -/
def execStageClear (s : State) : Answer := .next s.stageClear

/-- A write of CFG_STAGE_VALUE (R385). -/
def State.stageValue (s : State) (v : Word64) : State :=
  let off := (s.reg Reg.CFG_STAGE_OFFSET).toNat
  let l := s.cfg.stageList
  if l.any fun e => decide (e.1 = off) then
    { s with cfg := { s.cfg with stageList := l.map fun e => if e.1 = off then (off, v) else e } }
  else if 256 ≤ l.length then s.stageRefused stListFull
  else { s with cfg := { s.cfg with stageList := l ++ [(off, v)] } }

/-- STAGE_VALUE_WRITE (R385). -/
def execStageValueWrite (v : Word64) (s : State) : Answer := .next (s.stageValue v)

/-- What an entry of the list makes of its register (R379, R12). -/
def stagedEntry (e : Nat × Word64) : Nat × Word64 := if (pregAt e.1).isSome then e else (e.1, normalReg e.1 e.2)

/-- Why STAGE fails, if it does (R385), in the order of the codes. -/
def State.stageFault (s : State) : Option Nat :=
  let num := s.fld Reg.CFG_STAGE_EPOCH 0 32
  if s.cfg.stageList.any fun e => !epochOffsets.contains e.1 then some stBadOffset
  else if num ≤ s.cfg.cur.toNat ∨ num = 0xFFFFFFFF then some stEpochOrder
  else if s.cfg.retiring.isSome ∨ s.cfg.staged.isSome then some stRetiring
  else if s.cfg.stageList.any fun e => (pregAt e.1).elim false fun i => (s.preg i).worn then some stWorn
  else none

/-- The measurements that a staged epoch takes (R459). -/
def Uarid.stagedMeas (u : Uarid) : List (List Byte) := if u.prepared.isSome then u.measPend else u.meas

/-- STAGE (R385, R459). -/
def State.stage (s : State) : State :=
  match s.stageFault with
  | some st => s.stageRefused st
  | none =>
    let entries := s.cfg.stageList.map stagedEntry
    let d := digestOf (overlay s.epochValues entries) s.uarid.stagedMeas
    let e : Epoch := { num := BitVec.ofNat 32 (s.fld Reg.CFG_STAGE_EPOCH 0 32), values := entries, digest := d, tag := tagOf d
                       slot := s.uarid.prepared }
    let s : State := { s with cfg := { s.cfg with staged := some e, armTime := 0, status := stStaged } }
    s.cfgEvent 0 0 e.num.toNat e.tag.toNat 0

/-- STAGE (R385). -/
def execStage (s : State) : Answer := .next s.stage

/-! ### Jobs and epochs -/

/-- Unstarted jobs stand by their epochs anew (R267): a held job whose epoch took effect waits, a stale one ends. -/
def State.resort (s : State) : State :=
  { s with jobs := s.jobs.map fun j =>
      if j.unstarted && j.status.isNone then
        match s.epochPhase j.desc with
        | some p => { j with phase := p }
        | none => { j with phase := .stopped, status := some .epochStale }
      else j }

/-! ### Application -/

/-- Whether any port is UP or LOW. -/
def State.anyPort (s : State) : Bool := (List.range 6).any fun p => (s.port p).open_

/-- The beat period in ns (R399). -/
def State.beatNs (s : State) : Nat := 1000 * clampNat 10 10000 (s.fld Reg.CFG_BEAT 0 14)

/-- A staged entry takes effect (R386, R396): a persistent register that has worn out is skipped. -/
def State.applyEntry (s : State) (e : Nat × Word64) : State :=
  match pregAt e.1 with
  | some i =>
    if (s.preg i).worn then s.wearEvent 12 0 i (s.preg i).wear else s.writePreg i e.2
  | none => s.setReg e.1 ((s.reg e.1 &&& ~~~(BitVec.ofNat 64 (rwMask e.1))) ||| e.2)

/-- The firmware slot that an epoch carries becomes the active one (R460): the boot record names it with trial 1, its
measurements are current, the Heliostat's image switches, and the new alias certificate is being made. -/
def State.activate (s : State) (slot : Bool) : State :=
  let u := s.uarid
  let s : State := { s with uarid := { u with bootSlot := slot, trial := true, activeSlot := slot, meas := u.measPend, measPend := []
                                              prepared := none, certBusy := some s.ticks }
                            power := { s.power with switching := true } }
  (s.count Reg.UAR_ACTIVATIONS 1).secEvent 4 0 0 0 0

/-- The registers of the pool and its rounds (R428). -/
def isPoolReg (off : Nat) : Bool :=
  decide (off = Reg.CFG_BEAT ∨ off = Reg.HLS_POOL_CTRL ∨ off = Reg.HLS_POOL_BUDGET)
    || decide (Reg.HLS_POOL_FLOOR 0 ≤ off ∧ off < Reg.HLS_POOL_FLOOR 16)

/-- The staged epoch becomes current (R386, R428, R460). The record's second tag is that of the epoch applied (R398; log entry
149). -/
def State.applyEpoch (s : State) (e : Epoch) : State :=
  let c := s.cfg
  let old : Epoch := { num := c.cur, values := s.epochValues, digest := c.digest, tag := c.tag, slot := none }
  let s : State := { s with cfg := { c with cur := e.num, staged := none, retiring := some old, armTime := 0, status := stIdle
                                            appliedAt := s.deviceTime } }
  let s := e.values.foldl State.applyEntry s
  let s := e.slot.elim s s.activate
  let s := if e.values.any fun v => isPoolReg v.1 then s.poolChanged else s
  let s := (s.redigest.count Reg.CFG_APPLIED 1).resort
  s.cfgEvent 3 0 old.num.toNat e.tag.toNat c.armTime

/-- EPOCH_APPLY (R386): once device time has reached the arm time. -/
def execEpochApply (s : State) : Answer :=
  .next (match s.cfg.staged with
    | none => s
    | some e => if s.cfg.armTime ≠ 0 ∧ s.cfg.armTime ≤ s.deviceTime then s.applyEpoch e else s)

/-- Why ARM for time A fails, if it does (R385, R386). With no open port the epoch is applied whatever the arm time. -/
def State.armFault (s : State) (a : Nat) : Option Nat :=
  if s.cfg.staged.isNone then some stTooLate
  else if s.anyPort ∧ a < s.deviceTime + 5 * s.beatNs then some stTooSoon
  else if s.anyPort ∧ a % s.beatNs ≠ 0 then some stNotBeat
  else if s.time.state = .free ∧ !s.timeMaster then some stUnlocked
  else none

/-- ARM (R385, R386). -/
def State.arm (s : State) : State :=
  let a := (s.reg Reg.CFG_STAGE_TIME).toNat
  match s.armFault a, s.cfg.staged with
  | some st, _ => s.stageRefused st
  | none, none => s
  | none, some e =>
    let s : State := { s with cfg := { s.cfg with armTime := a, status := stArmed } }
    let s := s.cfgEvent 2 0 e.num.toNat e.tag.toNat a
    if s.anyPort then s else s.applyEpoch e

/-- ARM (R385). -/
def execArm (s : State) : Answer := .next s.arm

/-- CANCEL (R385, R267). -/
def State.cancel (s : State) : State :=
  let c := s.cfg
  match c.staged with
  | none => s.stageRefused stTooLate
  | some e =>
    if c.armTime ≠ 0 ∧ c.armTime < s.deviceTime + s.beatNs then s.stageRefused stTooLate
    else
      let s : State := { s with cfg := { c with staged := none, armTime := 0, status := stIdle } }
      (s.cfgEvent 4 0 e.num.toNat e.tag.toNat 0).resort

/-- CANCEL (R385). -/
def execCancel (s : State) : Answer := .next s.cancel

/-- EPOCH_RETIRE (R384): at a beat boundary. No staged or peer tag stands beside a retired epoch (R398; log entry 149). -/
def execEpochRetire (s : State) : Answer :=
  .next (match s.cfg.retiring with
    | none => s
    | some e =>
      if (s.jobs.any fun j => decide (j.num ≠ 0 ∧ j.epoch = e.num.toNat))
          ∨ s.deviceTime % s.beatNs ≠ 0 ∨ s.deviceTime < s.cfg.appliedAt + s.fld Reg.CFG_EPOCH_CTRL 0 12 * s.beatNs then s
      else
        let s : State := { s with cfg := { s.cfg with retiring := none } }
        s.cfgEvent 5 0 e.num.toNat 0 0)

/-! ### Direct writes -/

/-- An entry for a register in an epoch's values takes a new value. -/
def Epoch.rewrite (off : Nat) (v : Word64) (e : Epoch) : Epoch :=
  { e with values := e.values.map fun x => if x.1 = off then (off, v) else x }

/-- What follows a direct host write of an epoch register (R388): every epoch that the device holds takes the value, the
digest changes, and while a port is open the write is reported. -/
def State.direct (s : State) (off : Nat) : State :=
  let v := s.epochValue off
  let c := s.cfg
  let s : State := { s with cfg := { c with staged := c.staged.map (Epoch.rewrite off v)
                                            retiring := c.retiring.map (Epoch.rewrite off v) } }
  let s := if isPoolReg off then s.poolChanged else s
  let s := s.redigest
  if s.anyPort then s.cfgEvent 10 0 0 0 off else s

/-- The part of a 64-bit register that an access of so many bytes at an offset within it covers, as a value of the whole. -/
def mergeAt (old : Word64) (at_ size : Nat) (v : Word64) : Word64 := setBits old (8 * at_) (8 * size) v.toNat

/-- A host write to an epoch register that is not persistent (R388, R505): off is the register's, at_ the byte within it. -/
def State.directWrite (s : State) (off at_ size : Nat) (v : Word64) : State :=
  let new := normalReg off (mergeAt (s.reg off) at_ size v)
  (s.setReg off ((s.reg off &&& ~~~(BitVec.ofNat 64 (rwMask off))) ||| new)).direct off

/-- A host write to a persistent register (R388, R393, R394): SECRET and worn-out ones ignore it. -/
def State.hostPreg (s : State) (i : Nat) (v : Word64) : State :=
  if 56 ≤ i ∨ (s.preg i).worn then s
  else
    let s := s.writePreg i v
    if i < 32 then s.direct (Reg.CFG_PREG i) else s

/-- PREG_WRITE (R393, R394). -/
def execPregWrite (i : BitVec 6) (v : Word64) (s : State) : Answer := .next (s.hostPreg i.toNat v)

/-- The epoch register at an offset, and the byte of it that an access of this size begins at, where the access is one that
the register takes (R505). -/
def epochTarget (off size : Nat) : Option (Nat × Nat) :=
  (epochOffsets.find? fun o => decide (o ≤ off) && decide (off < o + if (regRow o).elim false (·.wide) then 8 else 4)).bind fun o =>
    let wide := (regRow o).elim false (·.wide)
    if (size = 4 ∧ off % 4 = 0 ∧ !((pregAt o).isSome)) ∨ (size = 8 ∧ off % 8 = 0 ∧ wide) then some (o, off - o) else none

/-- DIRECT_WRITE (R388): a host write to one epoch register. A write of another size, place or register changes nothing. -/
def execDirectWrite (off : BitVec 26) (size : Nat) (v : Word64) (s : State) : Answer :=
  .next (match epochTarget off.toNat size with
    | none => s
    | some (o, at_) =>
      match pregAt o with
      | some i => s.hostPreg i v
      | none => s.directWrite o at_ size v)

end Sys2Proof.Machine
end

