-- ==== Sys2Proof/Machine/Beat.lean ====
section
/-!
DEFINITION. The meridian beat: what the device sends (R375, R376, R423), how it compares what it receives (R392), and the
wait for a tag after a mismatch (R391).
-/

namespace Sys2Proof.Machine

/-- The beat number now (R375). -/
def State.beatNumber (s : State) : Nat := s.deviceTime / s.beatNs

/-- Whether the beat of the last boundary has not been sent: device time has reached a multiple of the period after that of the
last beat (R375). Beats of another period do not count by their numbers, which may be larger. -/
def State.beatDue (s : State) : Bool :=
  s.cfg.pastBeats.head?.elim true fun b => decide (b.boundary < s.beatNumber * s.beatNs)

/-- The device's own configuration in a beat (R392). -/
def State.beatSelf (s : State) (number : Nat) : BeatSelf :=
  { number := number, boundary := number * s.beatNs, epoch := s.cfg.cur, digest := s.cfg.digest, staged := BitVec.ofNat 32 s.cfg.stagedNum
    stagedTag := BitVec.ofNat 32 s.cfg.stagedTag, armTime := s.cfg.armTime }

/-- Code of a time state (R376, R378). -/
def TimeState.code : TimeState → Nat
  | .free => 0
  | .locked => 1
  | .holdover => 2

/-- The BEAT extension of a beat (R376). -/
def State.beatMsg (s : State) (number : Nat) : BeatMsg :=
  let b := s.beatSelf number
  { number := BitVec.ofNat 32 number, period := BitVec.ofNat 14 (s.beatNs / 1000)
    timeState := BitVec.ofNat 2 s.time.state.code, depth := BitVec.ofNat 5 s.time.depth
    bound := BitVec.ofNat 8 s.timeBound, time := BitVec.ofNat 64 s.deviceTime, epoch := b.epoch, staged := b.staged
    armTime := BitVec.ofNat 64 b.armTime, digest := b.digest, stagedTag := b.stagedTag
    pool := BitVec.ofNat 16 s.poolNumber, member := BitVec.ofNat 4 s.poolIndex
    membersM1 := BitVec.ofNat 4 (s.poolMembers - 1), onFloor := s.inPool && s.power.pool.onFloor
    entries := s.poolEntries number, budget := BitVec.ofNat 16 (s.fld Reg.HLS_POOL_BUDGET 0 16) }

/-- A beat on one port: it is sent over an open port, and ages the peer (R375). -/
def State.beatOn (s : State) (m : BeatMsg) (p : Nat) : State :=
  let s := if (s.port p).open_ then s.sendLink p (.beat m) else s
  let q := s.port p
  if !q.heard ∨ 15 ≤ q.beatAge then s
  else
    let s := s.setPort p { q with beatAge := q.beatAge + 1 }
    if q.beatAge + 1 = 3 then s.linkEvent evBeatLost 0 p 0 else s

/-- A contained job's wait for a tag at a beat boundary (R391): over when the current tag is the one it waits for, or after
tag_wait_beats boundaries. -/
def State.tagBeat (s : State) (j : Job) : Job :=
  { j with tagWait := j.tagWait.bind fun w =>
      if s.cfg.tag.toNat = w.1 ∨ atLeastOne (s.fld Reg.CFG_EPOCH_CTRL 12 8) ≤ w.2 + 1 then none else some (w.1, w.2 + 1) }

/-- The beat of a number (R375, R391, R392, R423). -/
def State.sendBeat (s : State) (number : Nat) : State :=
  let s : State := { s with cfg := { s.cfg with pastBeats := (s.beatSelf number :: s.cfg.pastBeats).take 4 }
                            jobs := s.jobs.map s.tagBeat }
  let s := (s.poolBeat number).notePublished number
  (List.range 6).foldl (fun s p => s.beatOn (s.beatMsg number) p) s

/-- BEAT_SEND (R375): device time has reached the next multiple of the beat period. -/
def execBeatSend (s : State) : Answer :=
  .next (if s.beatDue then s.sendBeat s.beatNumber else s)

/-- Outcomes of a comparison (R392, R399). -/
def agree : Nat := 0
def peerEpoch : Nat := 1
def peerDigest : Nat := 2
def peerStaged : Nat := 3

/-- A received beat against the device's own values of the same number (R392). -/
def BeatSelf.compare (b : BeatSelf) (m : BeatMsg) : Nat :=
  if b.epoch ≠ m.epoch then peerEpoch
  else if b.digest ≠ m.digest then peerDigest
  else if b.staged ≠ m.staged ∨ b.stagedTag ≠ m.stagedTag ∨ b.armTime ≠ m.armTime.toNat then peerStaged
  else agree

/-- The kind of the CONFIG event of an outcome (R398). -/
def outcomeKind (o : Nat) : Nat := if o = agree then 9 else 5 + o

/-- A port's outcome changes (R392). -/
def State.outcome (s : State) (p o : Nat) (m : BeatMsg) : State :=
  if (s.port p).outcome = o then s
  else
    let s := (s.modPort p fun q => { q with outcome := o }).count Reg.CFG_PEER_EVENTS 1
    let (e, t, a) := if o = peerStaged then (m.staged.toNat, m.stagedTag.toNat, m.armTime.toNat)
      else (m.epoch.toNat, (tagOf m.digest).toNat, 0)
    s.cfgEvent (outcomeKind o) (place p 4 3) e t a

/-- A BEAT received on port p (R375, R392, R423, R429). -/
def State.beatIn (s : State) (p : Nat) (m : BeatMsg) : State :=
  let s := s.modPort p fun q => { q with beatAge := 0, heard := true }
  let s := match s.cfg.pastBeats.find? fun b =>
      decide (b.number % 2 ^ 32 = m.number.toNat ∧ b.boundary = b.number * s.beatNs) with
    | some b => s.outcome p (b.compare m) m
    | none => s
  s.takeEntries m

/-- MSG_BEAT (R375, R392). -/
def execMsgBeat (port : PortId) (m : BeatMsg) (s : State) : Answer :=
  .next (if (s.port port.val).open_ then s.beatIn port.val m else s)

end Sys2Proof.Machine
end

