-- ==== Sys2Proof/Machine/Heliostat.lean ====
section
/-!
DEFINITION. The governor (R402 to R404, R409 to R421): the estimate and the bubbles, the governed point, telemetry and
DISTRUST, operating points, droop, and thermal limits.
-/

namespace Sys2Proof.Machine

/-! ### Clusters, dies and rails -/

/-- The Heliostat's state changed. -/
def State.modPower (s : State) (f : Power → Power) : State := { s with power := f s.power }

/-- CLK_F of a point in units of 10 MHz (R401). -/
def opFreq (op : Nat) : Nat := [175, 160, 140, 120, 100, 80, 60, 40].getD op 40

/-- VDD_C target of a point in mV (R401). -/
def opVdd (op : Nat) : Nat := [850, 820, 780, 740, 700, 660, 620, 580].getD op 580

/-- The clock of cluster k. -/
def State.cluster (s : State) (k : Nat) : ClusterClk := s.power.clusters.getD k ClusterClk.reset

/-- The clock of cluster k changed. -/
def State.modCluster (s : State) (k : Nat) (f : ClusterClk → ClusterClk) : State :=
  s.modPower fun p => { p with clusters := p.clusters.modify k f }

/-- Compute die d. -/
def State.die (s : State) (d : Nat) : DiePower := s.power.dies.getD d DiePower.reset

/-- Compute die d changed. -/
def State.modDie (s : State) (d : Nat) (f : DiePower → DiePower) : State :=
  s.modPower fun p => { p with dies := p.dies.modify d f }

/-- Where the rail of die d stands now: on its way to its target at 10 mV per µs (R402). -/
def State.railNow (s : State) (d : Nat) : Nat :=
  let x := s.die d
  let n := (s.ticks - x.railAt) / 100
  if x.railStart ≤ x.railMv then min x.railMv (x.railStart + n) else max x.railMv (x.railStart - n)

/-- The rail of die d goes from where it stands to a voltage (R402). -/
def State.railTo (s : State) (d mv : Nat) : State :=
  if (s.die d).railMv = mv then s
  else s.modDie d fun x => { x with railMv := mv, railStart := s.railNow d, railAt := s.ticks }

/-- The target of die d's rail (R402): that of the fastest point among its clusters whose clocks run; none where none runs. -/
def State.railTarget (s : State) (d : Nat) : Option Nat :=
  (((List.range 8).filter fun i => !(s.cluster (8 * d + i)).stopped).map fun i => opVdd (s.cluster (8 * d + i)).op.toNat).max?

/-- The rail of die d follows its clusters. -/
def State.railFollow (s : State) (d : Nat) : State := (s.railTarget d).elim s (s.railTo d)

/-! ### Requested points -/

/-- The requested point of core c while its job runs (R403). -/
def State.coreOp (s : State) (c : Nat) : Option Nat :=
  (s.jobOn c).map fun j =>
    match (s.core c).phaseOp with
    | some op => op.toNat
    | none => if j.desc.hintValid then j.desc.opHint.toNat else s.fld Reg.HLS_CTRL 2 3

/-- The requested point of cluster k (R403): the fastest of its cores; none while no core holds a running job. -/
def State.clusterOp (s : State) (k : Nat) : Option Nat :=
  (List.range 64).foldl (fun b i =>
    match s.coreOp (64 * k + i), b with
    | none, b => b
    | some op, none => some op
    | some op, some b => some (min op b)) none

/-! ### The estimate -/

/-- The power that cluster k's activity of this µs draws at a point and a rail voltage (R409), in units of 0.25 W. -/
def State.clusterPower (s : State) (k op rail : Nat) : Nat :=
  (((s.cluster k).activity.zipIdx).map fun e => Config.activityPower s.power.coefficients e.2 op rail e.1).sum

/-- The estimated power of the firing slots, refractors, DMA channels and sparse engines (R411), each cluster at the point and
the rail that a function gives it. -/
def State.dynPower (s : State) (at_ : Nat → Nat × Nat) : Nat :=
  ((List.range 32).map fun k => s.clusterPower k (at_ k).1 (at_ k).2).sum

/-- The power that link flits and the slices of this µs but FACET's draw (R409, R445). -/
def Power.devicePower (p : Power) : Nat :=
  (((p.flits :: p.slices).zipIdx).map fun e => Config.activityPower p.coefficients (9 + e.2) 0 0 e.1).sum

/-- The estimate P_est with the clusters at these points and rails (R409): activity and leakage, and the loss of the regulators. -/
def State.estimate (s : State) (at_ : Nat → Nat × Nat) : Nat :=
  Config.inputPower (s.dynPower at_ + s.power.devicePower
    + ((List.range 4).map fun d => Config.leakagePower (s.die d).hottest (at_ (8 * d)).2).sum)

/-- The points and rails in force. -/
def State.pointsNow (s : State) (k : Nat) : Nat × Nat := ((s.cluster k).op.toNat, s.railNow (k / 8))

/-- The points that the clusters request, each die's rail at the target of its fastest (R402, R403). -/
def State.pointsAsked (s : State) (k : Nat) : Nat × Nat :=
  let op (i : Nat) : Nat := (s.clusterOp i).getD (s.cluster i).op.toNat
  (op k, ((List.range 8).map fun i => opVdd (op (8 * (k / 8) + i))).foldl max 0)

/-- The Heliostat with the estimates of one µs (R409, R423): the sum of the telemetry window, and the pool's greatest demand. -/
def Power.sampled (p : Power) (est dyn asked : Nat) : Power :=
  { p with pest := est, pdyn := dyn, estSum := p.estSum + est, estCount := p.estCount + 1
           pool := { p.pool with want := max p.pool.want asked } }

/-- The activity counts of a µs are taken: the next begins. -/
def Power.taken (p : Power) : Power :=
  { p with flits := 0, slices := [0, 0, 0, 0], switching := false
           clusters := p.clusters.map fun q => { q with before := q.activity.sum, activity := noActivity } }

/-! ### Governing -/

/-- Ten times P_gov, in units of 0.25 W (R410). -/
def Power.gov10 (p : Power) : Nat := if p.distrust then 11 * max p.pest p.pmeas else 10 * p.pest

/-- ceil(64 · E / P_dyn) for E > 0 (R411). -/
def bubbleStep (e10 dyn : Nat) : Nat := ceilDiv (64 * e10) (10 * dyn)

/-- The bubble fraction while E > 0 (R411); with P_dyn = 0 the quotient has no value. -/
def State.bubblesUp (s : State) (e10 : Nat) : Nat × State :=
  if s.power.pdyn = 0 then
    let (b, s) := s.free
    (bits b 0 6, s)
  else (min 63 (s.power.beta + bubbleStep e10 s.power.pdyn), s)

/-- The runs of β ≥ 8 and of slack, in µs (R411). -/
def Power.runs (p : Power) (beta : Nat) (slack : Bool) : Power :=
  { p with beta := beta, betaHigh := if 8 ≤ beta then p.betaHigh + 1 else 0
           slack := if beta = 0 ∧ slack then p.slack + 1 else 0 }

/-- Whether E > 0 (R411). -/
def State.over (s : State) : Bool := decide (10 * s.capEff.1 < s.power.gov10)

/-- The bubble fraction of one µs (R411). -/
def State.governBeta (s : State) : State :=
  let gov := s.power.gov10
  let cap := 10 * s.capEff.1
  if s.over then
    let (beta, s) := s.bubblesUp (gov - cap)
    (s.modPower (·.runs beta false)).count Reg.HLS_THROTTLE_US 1
  else
    s.modPower (·.runs (s.power.beta - 1) (decide (cap ≤ 20 * (cap - gov))))

/-- The estimated VDD_C current of die d (R418, R420). -/
def State.dieCurrent (s : State) (d : Nat) : Nat :=
  let rail := s.railNow d
  Config.railCurrent (((List.range 8).map fun i => s.clusterPower (8 * d + i) (s.cluster (8 * d + i)).op.toNat rail).sum
    + Config.leakagePower (s.die d).hottest rail) rail

/-- The slew limits (R431). -/
def State.slewUp (s : State) : Nat := s.fld Reg.HLS_SLEW 0 8
def State.slewDown (s : State) : Nat := s.fld Reg.HLS_SLEW 8 8

/-- Heliostat ballast on a die (R420): on, in the clusters of it whose activity has fallen or that carry it still; off, in none. -/
def State.dieBallast (s : State) (d : Nat) (on : Bool) : State :=
  s.modPower fun p =>
    { p with dies := p.dies.modify d fun x => { x with ballast := on }
             clusters := p.clusters.mapIdx fun k q =>
               if k / 8 = d then { q with ballast := on && (q.ballast || decide (q.activity.sum < q.before)) } else q }

/-- The current of a die rises within slew_up: bubbles hold what work would raise beyond it (R418). How many of the 64 F-cycles they
take for that the spec does not state: from 1 to 63 of them, which the command brings (log entry 150). -/
def State.holdRise (s : State) (d level : Nat) : State :=
  s.modDie d fun x => { x with current := x.current + s.slewUp, slewBeta := max 1 level }

/-- The slew and the ballast of die d over one µs (R418, R420). -/
def State.slewDie (levels : List (BitVec 6)) (s : State) (d : Nat) : State :=
  let i := s.dieCurrent d
  let was := (s.die d).current
  if was + s.slewUp < i then (s.holdRise d (levels.getD d 0).toNat).dieBallast d false
  else if i + s.slewDown < was ∧ s.fld Reg.HLS_CTRL 0 1 = 1 ∧ !s.over then
    (s.modDie d fun x => { x with current := was - s.slewDown, slewBeta := 0 }).dieBallast d true
  else (s.modDie d fun x => { x with current := i, slewBeta := 0 }).dieBallast d false

/-- One governing boundary (R409, R411, R418, R420, R423); β holds at the first after the Heliostat's image was switched (R460). -/
def State.govern (s : State) (levels : List (BitVec 6)) : State :=
  let s := s.modPower (·.sampled (s.estimate s.pointsNow) (s.dynPower s.pointsNow) (s.estimate s.pointsAsked))
  let s := if s.power.switching then s else s.governBeta
  ((List.range 4).foldl (State.slewDie levels) s).modPower (·.taken)

/-- GOVERN_TICK (R409, R411, R423). -/
def execGovernTick (levels : List (BitVec 6)) (s : State) : Answer := .next (s.govern levels)

/-! ### Bubbles -/

/-- Whether die d's droop bubbles run in a cluster: from its second F-cycle after the detection on (R416). -/
def State.droopRuns (s : State) (d op : Nat) : Bool :=
  (s.die d).droop && decide (2 * 100 ≤ (s.ticks - (s.die d).droopSince) * opFreq op)

/-- The bubbles that cluster k takes in each 64 F-cycles (R411, R412, R416, R418, R421). -/
def State.clusterBeta (s : State) (k : Nat) : Nat :=
  let x := s.die (k / 8)
  if s.droopRuns (k / 8) (s.cluster k).op.toNat then 64
  else max s.power.beta (max x.slewBeta (if x.crit then 32 else 0))

/-- The bubbles among the n F-cycles of a cluster from its i-th on: β of each 64, spread evenly (R412). -/
def bubblesIn (beta i n : Nat) : Nat := (i + n) * beta / 64 - i * beta / 64

/-! ### The governed point -/

/-- G rises (R411). -/
def Power.slower (p : Power) : Power := { p with g := p.g + 1, betaHigh := 0 }

/-- G falls (R411); where only a die's own raise (R416) is left, that falls. -/
def Power.faster (p : Power) : Power :=
  if p.g = 0 then { p with slack := 0, dies := p.dies.map fun d => { d with extraG := d.extraG - 1 } }
  else { p with g := p.g - 1, slack := 0 }

/-- GOVERNED_POINT_STEP (R411); G holds from a switch of the Heliostat's image to the first governing boundary after it (R460). -/
def execGovernedPointStep (s : State) : Answer :=
  let p := s.power
  .next (if p.switching then s
    else if 50 ≤ p.betaHigh ∧ p.g < 7 then s.modPower (·.slower)
    else if 200 ≤ p.slack ∧ (0 < p.g ∨ (p.dies.any fun d => decide (0 < d.extraG))) then s.modPower (·.faster)
    else s)

/-! ### Telemetry and DISTRUST -/

/-- Requests a recalibration slice (R413, R414, R446, R447): it is released, and due, at once. -/
def State.requestRecal (s : State) : State :=
  let c := s.collim
  let x : Slice := { kind := .current, released := s.ticks, retryAt := 0, cycle := 0, recal := true }
  let w := if c.waiting.any fun y => decide (y.kind = .current) && y.recal then c.waiting else c.waiting ++ [x]
  { s with collim := { c with waiting := w, due := true }, power := { s.power with recal := true } }

/-- One attempt of R414 more. -/
def State.recalAttempt (s : State) : State :=
  (s.modPower fun p => { p with recalTries := min 3 (p.recalTries + 1), recalPassed := false, recalFailed := false }).requestRecal

/-- An attempt has failed (R414): in DISTRUST, after the third, RECAL_FAIL. -/
def State.recalMiss (s : State) : State :=
  let s := s.modPower fun p => { p with recalPassed := false, recalFailed := true, recalAt := s.ticks, agree := 0, disagree := 0 }
  if s.power.distrust ∧ 3 ≤ s.power.recalTries then s.helEvent .recalFail 0 0 else s

/-- Whether |P_meas - mean P_est| > 0.12 · P_meas (R413), the mean that of n estimates with a sum. -/
def disagrees (meas sum n : Nat) : Bool := decide (12 * meas * n < 100 * ((meas * n - sum) + (sum - meas * n)))

/-- The estimates of the window that ends: their sum and their number; the last P_est where none was formed. -/
def Power.estimates (p : Power) : Nat × Nat := if p.estCount = 0 then (p.pest, 1) else (p.estSum, p.estCount)

/-- The input energy of a window of 50 µs (R431): P_meas ÷ 80 mJ, with the remainder kept. -/
def State.addEnergy (s : State) : State :=
  let a := s.power.energyQuarter + s.power.pmeas
  (s.modPower fun p => { p with energyQuarter := a % 80 }).count Reg.HLS_ENERGY (a / 80)

/-- The consecutive windows that agree and disagree (R413). -/
def Power.window (p : Power) (now meas : Nat) : Power :=
  let bad := disagrees meas p.estimates.1 p.estimates.2
  { p with pmeas := meas, lastTele := now, gap := false, agree := if bad then 0 else min 16 (p.agree + 1)
           disagree := if bad then min 16 (p.disagree + 1) else 0 }

/-- The next window begins with no estimate. -/
def Power.nextWindow (p : Power) : Power := { p with estSum := 0, estCount := 0 }

/-- What the sixteenth window in a row does (R413, R414). -/
def State.judge (s : State) : State :=
  let p := s.power
  if !p.distrust then
    if p.disagree = 16 then
      ((s.modPower fun p => { p with distrust := true, agree := 0, disagree := 0, recalTries := 0 }).helEvent .distrustEnter 0 0)
        |>.recalAttempt
    else s
  else if p.recalPassed ∧ p.agree = 16 then
    (s.modPower fun p => { p with distrust := false, agree := 0, disagree := 0, recalTries := 0, recalPassed := false, recalFailed := false })
      |>.helEvent .distrustExit 0 0
  else if p.recalPassed ∧ p.disagree = 16 then s.recalMiss
  else s

/-- A telemetry window that arrives with a P_meas (R409, R413). -/
def State.telemetry (s : State) (meas : Nat) : State :=
  ((s.modPower (·.window s.ticks meas)).modPower (·.nextWindow)).addEnergy.judge

/-- A telemetry window that does not arrive (R415). -/
def State.telemetryMissing (s : State) : State :=
  let first := !s.power.gap
  let s := ((s.modPower fun p => { p with gap := true }).modPower (·.nextWindow)).addEnergy
  if first then s.helEvent .telemetryGap 0 0 else s

/-- TELEMETRY_WINDOW (R409, R413, R415): P_meas is the sum of the regulators' readings. -/
def execTelemetryWindow (arrived : Bool) (readings : List Nat) (s : State) : Answer :=
  .next (if arrived then s.telemetry readings.sum else s.telemetryMissing)

/-- TELEMETRY_LOST (R415): 1 ms without telemetry. -/
def execTelemetryLost (s : State) : Answer :=
  .next (if 1000000 ≤ s.ticks - s.power.lastTele then s.fatalFrom .telemetryLost else s)

/-- RECAL_RETRY (R414): 10 ms after a failed attempt, up to three attempts. -/
def execRecalRetry (s : State) : Answer :=
  let p := s.power
  .next (if p.distrust ∧ p.recalFailed ∧ p.recalTries < 3 ∧ 10000000 ≤ s.ticks - p.recalAt then s.recalAttempt else s)

/-- RECAL_REQUEST (R414): recal of HLS_CTRL is written. -/
def execRecalRequest (s : State) : Answer := .next s.requestRecal

/-- A recalibration slice has passed (R414): its coefficients are loaded and kept. -/
def State.recalDone (s : State) (coefficients : List Nat) : State :=
  s.modPower fun p => { p with coefficients := coefficients, recal := false, recalPassed := true, recalFailed := false, agree := 0
                               disagree := 0 }

/-! ### Operating points -/

/-- The point granted to cluster k (R404, R416, R421): the slowest of its requested point, G for its die, and the thermal
point of its die. -/
def State.grantedOp (s : State) (k : Nat) : Option Nat :=
  let d := s.die (k / 8)
  (s.clusterOp k).map fun r => max r (max (min 7 (s.power.g + d.extraG)) (if d.crit then 7 else 0))

/-- The clock of cluster k takes a granted point. -/
def State.setOp (s : State) (k op : Nat) : State :=
  ((s.modCluster k fun q => { q with op := BitVec.ofNat 3 op }).count Reg.HLS_OP_CHANGES 1).railFollow (k / 8)

/-- Whether every droop detector of die d has been clear for 2 µs (R417). -/
def State.droopClear (s : State) (d : Nat) : Bool := !(s.die d).droop && decide ((s.die d).droopClear ≤ s.ticks)

/-- OP_CHANGE of cluster k (R402, R404, R417): a fall at once; a rise once the rail has reached its target and the die's
droop detectors are clear, and until then it waits. -/
def State.opChange (s : State) (k : ClusterId) : State :=
  let n := k.toNat
  let d := n / 8
  match s.grantedOp n with
  | none => s
  | some op =>
    let now := (s.cluster n).op.toNat
    if op = now then s
    else if now < op then s.setOp n op
    else if (s.die d).railMv < opVdd op then
      (if s.droopClear d then s.railTo d (opVdd op) else s).hold (.opChange k)
    else if s.railNow d < opVdd op ∨ !s.droopClear d then s.hold (.opChange k)
    else s.setOp n op

/-- OP_CHANGE (R402). -/
def execOpChange (cluster : ClusterId) (s : State) : Answer := .next (s.opChange cluster)

/-! ### Droop -/

/-- DROOP_DETECT (R416): the die's clusters take bubbles. -/
def execDroopDetect (cluster : ClusterId) (s : State) : Answer :=
  .next ((s.modDie (cluster.toNat / 8) fun d =>
    { d with droop := true, droopSince := if d.droop then d.droopSince else s.ticks, droopClear := s.ticks + 2000 }).count
      Reg.HLS_DROOPS 1)

/-- Whether the detectors of die d have been clear for hold F-cycles of every cluster of it whose clock runs (R416); the last
firing lies 2 µs before droopClear. -/
def State.holdOver (s : State) (d : Nat) : Bool :=
  let since := s.ticks + 2000 - (s.die d).droopClear
  (List.range 8).all fun i =>
    let q := s.cluster (8 * d + i)
    q.stopped || decide (100 * atLeastOne (s.fld Reg.HLS_DROOP_CTRL 8 8) ≤ since * opFreq q.op.toNat)

/-- DROOP_HOLD_END (R416): the die's droop bubbles end once every detector of it has been clear for hold F-cycles. -/
def execDroopHoldEnd (die : DieId) (s : State) : Answer :=
  let d := die.toNat
  .next (if (s.die d).droop ∧ s.holdOver d then s.modDie d fun x => { x with droop := false } else s)

/-- DROOP_PERSIST (R416): 10 µs of droop bubbles without a break. -/
def execDroopPersist (die : DieId) (s : State) : Answer :=
  let d := die.toNat
  .next (if (s.die d).droop ∧ 10000 ≤ s.ticks - (s.die d).droopSince then
      (s.modDie d fun x => { x with extraG := min 7 (x.extraG + 1), droopSince := s.ticks }).helEvent .droopPersist d 0
    else s)

/-! ### Thermal limits -/

/-- A reading put into its place among rising ones. -/
def insertReading (x : Nat) : List Nat → List Nat
  | [] => [x]
  | y :: l => if x ≤ y then x :: y :: l else y :: insertReading x l

/-- The middle of 24 readings (R442): the mean of the two middle ones, rounded down. -/
def median (l : List Nat) : Nat :=
  let s := l.foldr insertReading []
  (s.getD ((s.length - 1) / 2) 0 + s.getD (s.length / 2) 0) / 2

/-- The readings of a die as the Heliostat takes them (R442): a flagged sensor below the median reads at least median + 3. -/
def flagged (flags l : List Nat) : List Nat :=
  let m := median l
  l.zipIdx.map fun e => if flags.contains e.2 then max e.1 (m + 3) else e.1

/-- The hottest of some readings. -/
def hottest (l : List Nat) : Nat := l.foldl max 0

/-- The request rate divisor of a stack at a temperature (R421). -/
def stackRate (old t : Nat) : Nat := if 100 ≤ t then 4 else if 95 ≤ t then max old 2 else if t < 92 then 1 else old

/-- The thermal throttle and critical temperatures (R421). -/
def State.throttleAt (s : State) : Nat := s.fld Reg.HLS_THERM_CTRL 0 8
def State.critAt (s : State) : Nat := s.fld Reg.HLS_THERM_CTRL 8 8

/-- The thermal point of die d after a reading (R421). -/
def State.dieThermal (s : State) (d t : Nat) : State :=
  let x := s.die d
  if s.critAt ≤ t ∧ !x.crit then
    ((s.modDie d fun x => { x with hottest := t, crit := true }).helEvent .thermalCrit d 0).pldmEvent pldmThermalCrit
  else s.modDie d fun x => { x with hottest := t, crit := x.crit && decide (s.throttleAt ≤ t) }

/-- The start of thermal throttling, from the cap then in force (R421). -/
def State.throttleStart (s : State) : State :=
  if s.throttleAt ≤ s.power.hottest ∧ !s.power.throttling then
    (s.modPower fun p => { p with throttling := true, thermalCap := min s.capEff.1 3000, lastThermStep := s.ticks }).helEvent
      .thermalThrottle 0 0
  else s

/-- THERMAL_READ (R421, R442): the junctions of the compute and base dies and the stacks. -/
def State.thermalRead (s : State) (r : ThermalReadings) : State :=
  let dies := (r.dies.take 4).zipIdx.map fun e => flagged (s.die e.2).sensorFlags e.1
  let all := dies.flatten ++ r.base
  let top := hottest all
  let s := s.modPower fun p =>
    { p with hottest := top, hotSensor := all.findIdx fun t => decide (t = top), baseTemp := hottest r.base
             stackTemp := hottest r.stackTemps, stackRate := p.stackRate.zipIdx.map fun e => stackRate e.1 (r.stackTemps.getD e.2 0) }
  let s := dies.zipIdx.foldl (fun s e => s.dieThermal e.2 (hottest e.1)) s
  let s := s.throttleStart
  if 115 ≤ top then s.fatalFrom .thermalTrip else s

/-- THERMAL_READ (R421). -/
def execThermalRead (r : ThermalReadings) (s : State) : Answer := .next (s.thermalRead r)

/-- THERMAL_CAP_STEP (R421): 5 W down each 100 µs while the hottest junction is at the throttle temperature or above, 5 W
up each 1 ms while it is below that less 2 °C. -/
def State.capStep (s : State) : State :=
  let p := s.power
  let since := s.ticks - p.lastThermStep
  if !p.throttling then s
  else if s.throttleAt ≤ p.hottest then
    if 100000 ≤ since then s.modPower fun p => { p with thermalCap := p.thermalCap - 20, lastThermStep := s.ticks } else s
  else if p.hottest + 2 < s.throttleAt ∧ 1000000 ≤ since then
    if 3000 < p.thermalCap + 20 then
      (s.modPower fun p => { p with thermalCap := unlimited, throttling := false, lastThermStep := s.ticks }).helEvent .thermalClear 0 0
    else s.modPower fun p => { p with thermalCap := p.thermalCap + 20, lastThermStep := s.ticks }
  else s

/-- THERMAL_CAP_STEP (R421). -/
def execThermalCapStep (s : State) : Answer := .next s.capStep

end Sys2Proof.Machine
end

