-- ==== Sys2Proof/Machine/Sleep.lean ====
section
/-!
DEFINITION. Cluster clocks on demand (R405) and the device states: DOZE (R406), DORMANT (R407, R353, R489) and the wake
(R408, R490, R8, R48, R65, R225, R506, R507).
-/

namespace Sys2Proof.Machine

/-! ### Cluster clocks -/

/-- The cores of cluster k. -/
def clusterCores (k : Nat) : List Nat := (List.range 64).map (64 * k + ·)

/-- Whether a core needs its cluster's clock: a job or a pending parallax check (R405). -/
def Core.busy (k : Core) : Bool := decide (k.job ≠ 0) || k.check.isSome

/-- The core that a held access to a per-core block needs (R507). -/
def accessCore : Instr → Option Nat
  | .registerWrite off _ _ => (coreOffset off.toNat).map (·.1)
  | .counterHalfRead off => (coreOffset off.toNat).map (·.1)
  | .cntClr off _ => (coreOffset off.toNat).map (·.1)
  | .perCoreAccessWake off _ _ => (coreOffset off.toNat).map (·.1)
  | _ => none

/-- Whether something needs the clock of cluster k (R405, R507). -/
def State.needsClock (s : State) (k : Nat) : Bool :=
  ((clusterCores k).any fun c => (s.core c).busy) || s.held.any fun i => (accessCore i).elim false fun c => decide (c / 64 = k)

/-- Whether every cluster clock is stopped. -/
def Power.allStopped (p : Power) : Bool := p.clusters.all (·.stopped)

/-- CLUSTER_CLOCK_STOP (R405): 256 F-cycles without need. -/
def execClusterClockStop (cluster : ClusterId) (s : State) : Answer :=
  let k := cluster.toNat
  let q := s.cluster k
  .next (if q.stopped ∨ s.power.state ≠ .run ∨ s.needsClock k ∨ (s.ticks - q.idleSince) * opFreq q.op.toNat < 25600 then s
    else
      let s := (s.modCluster k fun q => { q with stopped := true, idleSince := s.ticks }).railFollow (k / 8)
      s.modPower fun p => if p.allStopped then { p with idleFrom := s.ticks } else p)

/-- The clock of cluster k starts at its granted point (R405, R408), once the rail of its die has reached that point's voltage;
until then the rail rises to it, and the start waits (R402). -/
def State.startClock (s : State) (k : ClusterId) : State :=
  let n := k.toNat
  let d := n / 8
  let op := (s.grantedOp n).getD (s.cluster n).op.toNat
  if s.railNow d < opVdd op then (s.railTo d (max (s.die d).railMv (opVdd op))).hold (.clusterClockStart k)
  else
    let s := if op = (s.cluster n).op.toNat then s else s.count Reg.HLS_OP_CHANGES 1
    (s.modCluster n fun q => { q with op := BitVec.ofNat 3 op, stopped := false, idleSince := s.ticks }).railFollow d

/-- CLUSTER_CLOCK_START (R405), 32 F-cycles after the demand. -/
def execClusterClockStart (cluster : ClusterId) (s : State) : Answer :=
  let k := cluster.toNat
  .next (if (s.cluster k).stopped ∧ s.power.state = .run ∧ s.needsClock k then s.startClock cluster else s)

/-! ### Entering DOZE and DORMANT -/

/-- A device state entered, with its event (R430). -/
def State.enter (s : State) (st : DevState) : State :=
  (s.modPower fun p => { p with state := st, enteredAt := s.ticks }).helEvent .state 0 0

/-- Every cluster clock stopped; a stopped cluster counts its idle time from its stop. -/
def Power.stopClocks (p : Power) (now : Nat) : Power :=
  { p with clusters := p.clusters.map fun q => if q.stopped then q else { q with stopped := true, idleSince := now } }

/-- Whether no job is fetched without its completion record, pre-empted ones included (R406), and no slice is due (R447). -/
def State.quiet (s : State) : Bool := decide (s.jobs = []) && !s.collim.due

/-- DOZE is entered (R406). -/
def State.doze (s : State) : State := (s.modPower (·.stopClocks s.ticks)).enter .doze

/-- DOZE_ENTRY (R406): the conditions have held for doze_us. -/
def execDozeEntry (s : State) : Answer :=
  .next (if s.power.state = .run ∧ s.quiet ∧ s.power.allStopped ∧ !s.power.waking
      ∧ 1000 * atLeastOne (s.fld Reg.HLS_IDLE 0 16) ≤ s.ticks - s.power.idleFrom then s.doze
    else s)

/-- Whether nothing is present that keeps the device out of DORMANT (R407). -/
def State.dormantFree (s : State) : Bool :=
  decide (s.windows = []) && decide (s.pageReqs = []) && decide (s.staging = [])

/-- The host link goes low (R489). -/
def State.linkLow (s : State) : State :=
  let m := s.module
  let speed := if m.autoSpeedDis ∨ m.linkSpeed = 0 then m.linkSpeed else 1
  let width := if m.autoWidthDis ∨ m.linkWidth = 0 then m.linkWidth else 1
  let s : State := { s with module := { m with heldSpeed := m.linkSpeed, heldWidth := m.linkWidth, linkSpeed := speed
                                               linkWidth := width, low := true } }
  if speed = m.linkSpeed ∧ width = m.linkWidth then s
  else (s.count Reg.GLB_PCIE_RETRAINS 1).emit (.linkTrain speed width)

/-- The host link returns (R490). -/
def State.linkHigh (s : State) : State :=
  let m := s.module
  if !m.low then s
  else
    let s : State := { s with module := { m with linkSpeed := m.heldSpeed, linkWidth := m.heldWidth, low := false } }
    if m.heldSpeed = m.linkSpeed ∧ m.heldWidth = m.linkWidth then s
    else (s.count Reg.GLB_PCIE_RETRAINS 1).emit (.linkTrain m.heldSpeed m.heldWidth)

/-- DORMANT is entered (R407): SLOW on every UP port, the low rate, the host link low, the compute dies off. -/
def State.dormant (s : State) : State :=
  let s := (s.modPower (·.stopClocks s.ticks)).enter .dormant
  let s := (List.range 6).foldl (fun s p =>
    if (s.port p).state = .up then (s.sendLink p (.link kindSlow)).goLow p else s) s
  let s := s.modPower fun p => { p with dies := p.dies.map fun d => { d with railMv := 0, railStart := 0, railAt := s.ticks } }
  s.linkLow

/-- Whether DORMANT may be entered but for the time in DOZE (R407). -/
def State.mayDormant (s : State) : Bool := decide (s.fld Reg.HLS_CTRL 1 1 = 1) && s.quiet && s.dormantFree && !s.power.waking

/-- DORMANT_ENTRY (R407, R488): from DOZE after dormant_ms; in D3hot as soon as the conditions hold. -/
def execDormantEntry (s : State) : Answer :=
  let long := decide (s.power.state = .doze) && decide (1000000 * atLeastOne (s.fld Reg.HLS_IDLE 16 16) ≤ s.ticks - s.power.enteredAt)
  let d3 := s.module.d3 && decide (s.power.state ≠ .dormant)
  .next (if s.mayDormant ∧ (long ∨ d3) then s.dormant else s)

/-- A request finds its conditions unmet (R431). -/
def State.reqRefused (s : State) : State := s.modPower fun p => { p with reqRefused := true }

/-- HLS_STATE_CTRL req = 1 (R406). -/
def State.reqDoze (s : State) : State :=
  match s.power.state with
  | .run => if s.quiet ∧ !s.power.waking then s.doze else s.reqRefused
  | .doze => s
  | .dormant => s.reqRefused

/-- STATE_REQ_DOZE (R406). -/
def execStateReqDoze (s : State) : Answer := .next s.reqDoze

/-- HLS_STATE_CTRL req = 2, and a D3hot (R407, R488). -/
def State.reqDormant (s : State) : State :=
  if s.power.state = .dormant then s else if s.mayDormant then s.dormant else s.reqRefused

/-- STATE_REQ_DORMANT (R407). -/
def execStateReqDormant (s : State) : Answer := .next s.reqDormant

/-- A wake source (R408): the wake completes with DEVICE_WAKE. -/
def State.askWake (s : State) : State :=
  if s.power.state = .run then s else s.modPower fun p => { p with waking := true }

/-- STATE_REQ_WAKE (R408). -/
def execStateReqWake (s : State) : Answer := .next s.askWake

/-! ### Waking -/

/-- A facet after DORMANT (R48): EMPTY with nothing in it; a FAULTY one stays FAULTY. -/
def Facet.dark (f : Facet) : Facet := if f.state = .faulty then { Facet.reset with state := .faulty } else Facet.reset

/-- A core after DORMANT (R8, R48, R65, R225, R507): strike bits are kept, everything else is as after reset. -/
def Core.dark (k : Core) : Core :=
  { Core.reset with strikes := k.strikes
                    facets := (k.facets.map fun e => (e.1, e.2.dark)).filter fun e => decide (e.2 ≠ Facet.reset) }

/-- Every core after DORMANT. -/
def darkCores (m : Sparse Core) : Sparse Core := (m.map fun e => (e.1, e.2.dark)).filter fun e => decide (e.2 ≠ Core.reset)

/-- Whether a register of the per-core blocks is lost in DORMANT: all but the RW ones (R506, R507). -/
def darkReg (off : Nat) : Bool := (coreOffset off).elim false fun e => decide (e.2 ≠ 0x400)

/-- The compute dies are powered and cleared (R8, R507). -/
def State.relight (s : State) : State :=
  { s with cores := darkCores s.cores, regs := Sparse.drop darkReg s.regs, latches := Sparse.drop darkReg s.latches }

/-- FAST on every LOW port, and on one that retrains, whose peer may have heard SLOW; the links whose peer is awake
return (R353). -/
def State.linksFast (s : State) : State :=
  (List.range 6).foldl (fun s p =>
    if (s.port p).state = .low ∨ (s.port p).state = .retrain then (s.sendLink p (.link kindFast)).goFast p else s) s

/-- The device returns to RUN (R408). -/
def State.wake (s : State) : State :=
  let deep := decide (s.power.state = .dormant)
  let s := if deep then s.relight.linkHigh else s
  let s := (s.modPower fun p => { p with waking := false, idleFrom := s.ticks
                                         clusters := p.clusters.map fun q => { q with idleSince := s.ticks } }).enter .run
  if deep then s.linksFast else s

/-- DEVICE_WAKE (R408): the wake for a source that has come completes. -/
def execDeviceWake (s : State) : Answer :=
  .next (if s.power.state ≠ .run ∧ (s.power.waking ∨ s.collim.due) then s.wake else s)

end Sys2Proof.Machine
end

