-- ==== Sys2Proof/Machine/Collimation.lean ====
section
/-!
DEFINITION. Collimation (R432 to R449): the schedule, facet slices and re-qualification, and the analogue slices. A slice
runs whole in the command that names it.
-/

namespace Sys2Proof.Machine

/-! ### Waiting slices -/

/-- Collimation's state changed. -/
def State.modCollim (s : State) (f : Collim → Collim) : State := { s with collim := f s.collim }

/-- Releases a slice (R446). -/
def State.releaseSlice (s : State) (kind : SliceKind) (cycle : Nat) : State :=
  s.modCollim fun c => { c with waiting := c.waiting ++ [⟨kind, s.ticks, 0, cycle, false⟩] }

/-- The slice of a kind that may be tried now, the oldest first; a recalibration request's before others (R446). -/
def Collim.ready (c : Collim) (kind : SliceKind) : Option Slice :=
  let l := c.waiting.filter fun x => decide (x.kind = kind ∧ x.retryAt = 0)
  match l.find? (·.recal) with
  | some x => some x
  | none => l.head?

/-- Whether the condition of a waiting slice's kind stands now (R432, R434, R445); a FACET slice's is met when it is tried. -/
def State.sliceStands (s : State) (x : Slice) : Bool :=
  match x.kind with
  | .cluster k => (s.cluster k).stopped
  | .current => decide (s.power.gov10 + 2400 ≤ 10 * s.capEff.1)
  | _ => true

/-- Whether no slice of an older cycle, which runs before those of the next, could be tried now (R446). -/
def State.inTurn (s : State) (x : Slice) : Bool :=
  !(s.collim.waiting.any fun y => decide (y.retryAt = 0 ∧ 0 < y.cycle ∧ y.cycle < x.cycle) && s.sliceStands y)

/-- The slice of a kind whose turn it is. -/
def State.readySlice (s : State) (kind : SliceKind) : Option Slice := (s.collim.ready kind).filter s.inTurn

/-- Whether all releases of a cycle have been made and none of its slices waits (R446). -/
def Collim.cycleRan (c : Collim) (n : Nat) : Bool :=
  (decide (n < c.cycle) || decide (65536 ≤ c.position ∧ 32 ≤ c.clusterPos)) && c.waiting.all fun x => decide (x.cycle ≠ n)

/-- Reports the cycles whose slices have all run (R446, R448), and ends being due when nothing can be tried (R447). -/
def State.cyclesDone (s : State) : State :=
  let c := s.collim
  let ended := c.openCycles.filter c.cycleRan
  let s := s.modCollim fun c =>
    { c with openCycles := c.openCycles.filter fun n => !ended.contains n
             due := c.due && c.waiting.any fun x => decide (x.retryAt = 0) }
  ended.foldl (fun s _ => (s.count Reg.COL_CYCLES 1).colEvent 12 0 0 0 0 0) s

/-- A slice has completed (R449). -/
def State.sliceDone (s : State) (x : Slice) : State :=
  ((s.modCollim fun c => { c with waiting := c.waiting.erase x }).count Reg.COL_SLICES 1).cyclesDone

/-- A slice leaves the waiting ones without having run: its unit is no longer one that it tests. -/
def State.sliceDropped (s : State) (x : Slice) : State :=
  (s.modCollim fun c => { c with waiting := c.waiting.erase x }).cyclesDone

/-- A slice is tried again at a later time (R434, R438, R444, R445). -/
def State.sliceLater (s : State) (x : Slice) (at_ : Nat) : State :=
  s.modCollim fun c => { c with waiting := c.waiting.map fun y => if y = x then { y with retryAt := at_ } else y }

/-- 10 ms from now. -/
def State.in10ms (s : State) : Nat := s.ticks + 10000000

/-- An analogue slice runs: the Heliostat counts its power (R445). -/
def State.sliceRuns (s : State) (kind : Nat) : State :=
  s.modPower fun p => { p with slices := p.slices.modify kind (· + 1) }

/-- COL_LOG after a failure (R449). -/
def State.colLog (s : State) (kind unit sub phase : Nat) : State :=
  s.setReg Reg.COL_LOG (BitVec.ofNat 64 (place kind 0 4 + place unit 4 11 + place sub 15 5 + place phase 20 3 + 2 ^ 23))

/-! ### The schedule -/

/-- A cycle in ns of device time (R446). -/
def State.cycleNs (s : State) : Nat := clampNat 1 168 (s.fld Reg.COL_CTRL 8 8) * 3600000000000

/-- Facets that are FAULTY. -/
def State.faultyFacets (s : State) : Nat :=
  (s.cores.map fun e => (e.2.facets.filter fun f => decide (f.2.state = .faulty)).length).sum

/-- Core and facet of an index in the order of R446. -/
def facetOrder (i : Nat) : Nat × Nat := (64 * (i % 32) + i / 32 % 64, i / 2048)

/-- The first index from i on whose facet is not FAULTY; 65,536 when none is. -/
def State.nextFacet (s : State) (i : Nat) : Nat :=
  ((List.range (65536 - i)).find? fun k =>
    decide (((s.core (facetOrder (i + k)).1).facet (facetOrder (i + k)).2).state ≠ .faulty)).elim 65536 (i + ·)

/-- A cycle starts (R446). -/
def State.startCycle (s : State) (at_ : Nat) : State :=
  let n := s.collim.cycle + 1
  let s := s.modCollim fun c =>
    { c with cycle := n, cycleAt := at_, position := 0, facetStep := s.cycleNs / atLeastOne (65536 - s.faultyFacets), nextFacetAt := at_
             clusterPos := 0, nextClusterAt := at_, openCycles := c.openCycles ++ [n] }
  s.releaseSlice .current n

/-- The next FACET slice of the cycle, when its time has come (R446). -/
def State.releaseFacet (s : State) (now : Nat) : State :=
  let c := s.collim
  if now < c.nextFacetAt ∨ 65536 ≤ c.position then s
  else
    let i := s.nextFacet c.position
    let s := s.modCollim fun c => { c with position := i + 1, nextFacetAt := c.nextFacetAt + c.facetStep }
    if i < 65536 ∧ s.fld Reg.COL_CTRL 1 1 = 1 then s.releaseSlice (.facet (facetOrder i).1 (facetOrder i).2) c.cycle else s

/-- The next CLUSTER slice of the cycle, when its time has come (R446). -/
def State.releaseCluster (s : State) (now : Nat) : State :=
  let c := s.collim
  if now < c.nextClusterAt ∨ 32 ≤ c.clusterPos then s
  else
    let s := s.modCollim fun c => { c with clusterPos := c.clusterPos + 1, nextClusterAt := c.nextClusterAt + s.cycleNs / 32 }
    if s.fld Reg.COL_CTRL 2 1 = 1 then s.releaseSlice (.cluster c.clusterPos) c.cycle else s

/-- The THERMAL slice of each die and the LANE slice of each withdrawn lane, every 60 minutes (R446). -/
def State.releaseHourly (s : State) (now : Nat) : State :=
  if now < s.collim.nextHourlyAt then s
  else
    let s := s.modCollim fun c => { c with nextHourlyAt := now + 3600000000000 }
    if s.fld Reg.COL_CTRL 2 1 = 0 then s
    else
      let s := (List.range 4).foldl (fun s d => s.releaseSlice (.thermal d) 0) s
      (List.range 24).foldl (fun s i =>
        if (s.port (i / 4)).withdrawn.getLsbD (i % 4) then s.releaseSlice (.lane (i / 4) (i % 4)) 0 else s) s

/-- SLICE_RELEASE (R446): the slices whose time has come, one of FACET and of CLUSTER in each command. -/
def State.sliceRelease (s : State) : State :=
  let now := s.deviceTime
  if s.fld Reg.COL_CTRL 0 1 = 0 then s
  else
    let c := s.collim
    let s := if c.cycle = 0 then s.startCycle now
      else if c.cycleAt + s.cycleNs ≤ now then s.startCycle (c.cycleAt + s.cycleNs)
      else s
    (((s.releaseFacet now).releaseCluster now).releaseHourly now).cyclesDone

/-- SLICE_RELEASE (R446). -/
def execSliceRelease (s : State) : Answer := .next s.sliceRelease

/-- SLICE_DUE (R447): in DOZE and DORMANT, the oldest waiting slice has waited lag_s. -/
def execSliceDue (s : State) : Answer :=
  let lag := 1000000000 * atLeastOne (s.fld Reg.COL_CTRL 16 16)
  .next (if s.power.state ≠ .run ∧ s.collim.waiting.any (fun x => decide (x.retryAt = 0 ∧ x.released + lag ≤ s.ticks)) then
      s.modCollim fun c => { c with due := true }
    else s)

/-- SLICE_RETRY (R434, R444, R445): slices whose retry time has come may be tried again. -/
def execSliceRetry (s : State) : Answer :=
  .next (s.modCollim fun c =>
    { c with waiting := c.waiting.map fun x => if x.retryAt ≤ s.ticks then { x with retryAt := 0 } else x })

/-! ### Facet slices -/

/-- Whether a FACET slice finds facet f of core c free (R434). -/
def State.facetIdle (s : State) (c f : Nat) : Bool :=
  let k := s.core c
  !(k.issued.any fun e => !e.done && decide (facetOf e.cmd = some f))
    && !(k.check.elim false fun p => decide (p.facet = f)) && decide ((k.facet f).refills = [])

/-- The phase at which the tests of a facet slice first failed; phases 1, 3 and 7 test nothing by what they measure. -/
def testFail (r : FacetSliceResult) : Option Nat :=
  (r.firstFail.map (·.toNat)).filter fun p => decide (p = 2 ∨ 4 ≤ p ∧ p ≤ 6)

/-- F-cycles of a phase of a facet slice (R435). -/
def phaseCycles (loaded : Bool) (p : Nat) : Nat :=
  match p with
  | 1 => if loaded then 1025 else 0
  | 2 => 4096
  | 3 => 1024
  | 4 => 35
  | 5 => 79
  | 6 => 4
  | _ => if loaded then 1025 else 16

/-- F-cycles of phases 1 to n. -/
def phasesUpTo (loaded : Bool) (n : Nat) : Nat := ((List.range n).map fun i => phaseCycles loaded (i + 1)).sum

/-- F-cycles of a FACET slice from its start to its end, with the repeat of the phase that failed. -/
def sliceCycles (loaded : Bool) (r : FacetSliceResult) : Nat :=
  phasesUpTo loaded 7 + (testFail r).elim 0 (phaseCycles loaded)

/-- A facet with every row and its exponent store zero, as phase 7 leaves one that was not saved (R435, R439). -/
def Facet.zeroed (f : Facet) : Facet :=
  { f with rows := [], rowParity := [], colExp := [], offsets := [], expParity := [] }

/-- The first row that phase 1 finds in error, with its segment (R438). -/
def Facet.saveError (f : Facet) : Option (Nat × Nat) :=
  (List.range 1024).findSome? fun r => (f.badSegment r).map fun g => (r, g)

/-- info0 of a facet's COLLIMATION event (R448). -/
def facetInfo (c f : Nat) : Nat := place c 0 11 + place f 11 5

/-- A facet whose rows and exponent store phase 7 has restored: a clean visit of each, at a device time (R50). -/
def Facet.restored (f : Facet) (now : Nat) : Facet :=
  { f with lastClean := if now = 0 then [] else (List.range (1024 + 25)).map fun r => (r, now) }

/-- A facet slice that ends with phase 7 (R439, R440). -/
def State.facetKept (s : State) (c f : Nat) (loaded : Bool) (r : FacetSliceResult) : State :=
  let s := s.modFacet c f fun x => if loaded then x.restored s.deviceTime else x.zeroed
  match testFail r with
  | some p =>
    (s.count Reg.COL_TRANSIENTS 1).colEvent 1 p clsCorrected (facetInfo c f) r.at_.toNat
      (phasesUpTo loaded 7 + phaseCycles loaded p + r.waited)
  | none => s.modCore c fun k => { k with strikes := k.strikes &&& ~~~(BitVec.ofNat 32 (2 ^ f)) }

/-- A facet fails collimation (R439). -/
def State.facetFails (s : State) (c f p : Nat) (loaded : Bool) (r : FacetSliceResult) : State :=
  let s := (s.modFacet c f (·.zeroed)).markFacet c f .faulty 2 0 0
  let s := ((s.count Reg.COL_FAILS 1).colLog 0 c f p)
  s.colEvent 0 p clsDegraded (facetInfo c f) r.at_.toNat (phasesUpTo loaded p + phaseCycles loaded p + r.waited)

/-- A facet slice on a facet that is not FAULTY (R433 to R440). The vectors that its phases 4 and 5 fire are no firings of a
core's commands, and count in no FCT counter (DESIGN CHOICE, log entry 145). -/
def State.runFacet (s : State) (x : Slice) (c f : Nat) (r : FacetSliceResult) : State :=
  let k := (s.core c).facet f
  let loaded := decide (k.state = .loaded)
  if k.state = .faulty then s.sliceDropped x
  else if !s.facetIdle c f then s.sliceLater x s.in10ms
  else
    let s := s.count Reg.COL_WAIT_CYCLES r.waited
    match (if loaded then k.saveError else none) with
    | some (row, seg) =>
      let s := (s.active c 6 (phasesUpTo loaded 1)).parityFound c f ⟨row, seg, Sparse.get 0 k.lastClean row⟩
      let s := (s.count Reg.COL_ABANDONED 1).colEvent 2 1 0 (facetInfo c f) row (phasesUpTo loaded 1 + r.waited)
      s.sliceLater x (s.ticks + (s.collim.cycleAt + s.cycleNs - s.deviceTime))
    | none =>
      let s := s.active c 6 (sliceCycles loaded r)
      match testFail r, r.repeatFails with
      | some p, true => (s.facetFails c f p loaded r).sliceDone x
      | _, _ => (s.facetKept c f loaded r).sliceDone x

/-! ### Re-qualification -/

/-- COL_REQUAL_STAT (R449). -/
def State.requalStat (s : State) (passes : Nat) (busy result done : Bool) : State :=
  s.setReg Reg.COL_REQUAL_STAT (BitVec.ofNat 64 (place passes 0 2 + busy.toNat * 4 + result.toNat * 8
    + max done.toNat (s.fld Reg.COL_REQUAL_STAT 4 1) * 16))

/-- A facet returned to service (R441). -/
def State.requalPass (s : State) (c f : Nat) : State :=
  let s := s.modFacet c f fun _ => Facet.reset
  let s := s.modCore c fun k => { k with strikes := k.strikes &&& ~~~(BitVec.ofNat 32 (2 ^ f)) }
  { s with uarid := { s.uarid with faultLog := s.uarid.faultLog.filter fun e => decide (e ≠ (c, f)) } }

/-- A facet slice of a re-qualification (R441): repeats count as failures, three passes in a row end it. -/
def State.runRequal (s : State) (c f n : Nat) (r : FacetSliceResult) : State :=
  let s := ((s.count Reg.COL_WAIT_CYCLES r.waited).count Reg.COL_SLICES 1).active c 6 (sliceCycles false r)
  match testFail r with
  | some p =>
    let s := ((s.modCollim fun c => { c with requal := none }).requalStat 0 false false true).count Reg.COL_FAILS 1
    let s := s.modFacet c f (·.zeroed)
    (s.colLog 11 c f p).colEvent 11 p 0 (facetInfo c f) r.at_.toNat (phasesUpTo false p + r.waited)
  | none =>
    if n + 1 < 3 then ((s.modFacet c f (·.zeroed)).modCollim fun k => { k with requal := some (c, f, n + 1) }).requalStat (n + 1) true false false
    else
      let s := (s.modCollim fun k => { k with requal := none }).requalStat 3 false true true
      (s.requalPass c f).colEvent 10 0 0 (facetInfo c f) 0 (phasesUpTo false 7 + r.waited)

/-- The slice that a FACET_SLICE of core c and facet f runs: of a re-qualification, or a released one. -/
def State.facetSlice (s : State) (c f : Nat) (r : FacetSliceResult) : State :=
  if s.power.state ≠ .run ∨ s.module.fatal then s
  else
    match s.collim.requal with
    | some (c', f', n) =>
      if c' = c ∧ f' = f then (if s.facetIdle c f then s.runRequal c f n r else s)
      else (s.readySlice (.facet c f)).elim s fun x => s.runFacet x c f r
    | none => (s.readySlice (.facet c f)).elim s fun x => s.runFacet x c f r

/-- FACET_SLICE (R435). -/
def execFacetSlice (c : CoreId) (facet : FacetId) (r : FacetSliceResult) (s : State) : Answer :=
  .next (s.facetSlice c.toNat facet.toNat r)

/-- A write of COL_REQUAL (R441): go with a FAULTY facet, while no re-qualification runs. -/
def State.requal (s : State) (v : Word32) : State :=
  let c := bits v 0 11
  let f := bits v 11 5
  if !bit v 16 ∨ s.collim.requal.isSome ∨ ((s.core c).facet f).state ≠ .faulty then s
  else (s.modCollim fun k => { k with requal := some (c, f, 0) }).requalStat 0 true (bit (s.reg Reg.COL_REQUAL_STAT) 3) false

/-- REQUAL (R441). -/
def execRequal (v : Word32) (s : State) : Answer := .next (s.requal v)

/-! ### Analogue slices -/

/-- A COLLIMATION event of an analogue kind: its length in µs is not stated. -/
def State.colAnalog (s : State) (kind info0 info1 : Nat) : State :=
  let (b, s) := s.free
  s.colEvent kind 0 0 info0 info1 (bits b 0 64)

/-- A failed analogue slice (R442, R449). -/
def State.analogFail (s : State) (kind unit sub info0 info1 : Nat) : State :=
  ((s.count Reg.COL_FAILS 1).colLog kind unit sub 0).colAnalog kind info0 info1

/-- An abandoned slice (R444, R445): released again 10 ms later. -/
def State.abandon (s : State) (x : Slice) (info0 : Nat) : State :=
  ((s.count Reg.COL_ABANDONED 1).colAnalog 2 info0 0).sliceLater x s.in10ms

/-- A CLUSTER slice (R442, R444): abandoned when a job needs the cluster, whose clock then starts. -/
def State.clusterSlice (s : State) (x : Slice) (cluster : ClusterId) (r : ClusterSliceResult) : State :=
  let k := cluster.toNat
  if s.needsClock k then (s.startClock cluster).abandon x k
  else
    let s := s.sliceRuns 0
    if !r.pllOk then (s.analogFail 3 k 0 k r.measured).sliceDone x
    else if !r.droopOk then (s.analogFail 4 k 0 k r.measured).sliceDone x
    else s.sliceDone x

/-- CLUSTER_SLICE (R442): while the cluster's clock runs the slice waits. -/
def execClusterSlice (cluster : ClusterId) (r : ClusterSliceResult) (s : State) : Answer :=
  let k := cluster.toNat
  .next (if s.power.state ≠ .run ∨ s.module.fatal ∨ !(s.cluster k).stopped then s
    else (s.readySlice (.cluster k)).elim s fun x => s.clusterSlice x cluster r)

/-- Whether every cluster of die d has had its clock stopped for 1 ms (R432). -/
def State.dieStill (s : State) (d : Nat) : Bool :=
  (List.range 8).all fun i => (s.cluster (8 * d + i)).stopped && decide (1000000 ≤ s.ticks - (s.cluster (8 * d + i)).idleSince)

/-- Sensors that lie more than 3 °C from the median of their die (R442), with those below it. -/
def strayed (l : List Nat) : List (Nat × Nat) :=
  let m := median l
  (l.zipIdx.filter fun e => decide (e.1 + 3 < m ∨ m + 3 < e.1)).map fun e => (e.2, e.1)

/-- A THERMAL slice of die d (R442). -/
def State.thermalSlice (s : State) (x : Slice) (d : Nat) (l : List Nat) : State :=
  let s := s.sliceRuns 1
  let bad := strayed l
  if bad = [] then (s.modDie d fun q => { q with sensorFlags := [] }).sliceDone x
  else
    let low := (bad.filter fun e => decide (e.2 < median l)).map (·.1)
    let s := s.modDie d fun q => { q with sensorFlags := q.sensorFlags ++ low.filter fun i => !q.sensorFlags.contains i }
    let s := (s.count Reg.COL_FAILS 1).colLog 5 d 0 0
    (bad.foldl (fun s e => s.colAnalog 5 (place d 0 2 + place e.1 2 6) e.2) s).sliceDone x

/-- THERMAL_SLICE (R442). -/
def execThermalSlice (die : DieId) (junctions : List Nat) (s : State) : Answer :=
  let d := die.toNat
  .next (if s.power.state ≠ .run ∨ s.module.fatal ∨ !s.dieStill d then s
    else (s.readySlice (.thermal d)).elim s fun x => s.thermalSlice x d junctions)

/-- The lane is tried again in a retrain of its port (R443, R352); how the other lanes fare in it is free (log entry 148). -/
def State.laneBack (s : State) (p l : Nat) (ok : Bool) : State :=
  let b : BitVec 4 := BitVec.ofNat 4 (2 ^ l)
  let (h, s) := s.lanesPassing
  s.tryLanes p b (if ok then h ||| b else h &&& ~~~b)

/-- A LANE slice (R442, R443). -/
def State.laneSlice (s : State) (x : Slice) (p l : Nat) (ok retrainOk : Bool) : State :=
  let info := place p 0 3 + place l 4 2
  if !(s.port p).withdrawn.getLsbD l then s.sliceDropped x
  else if ok then (((s.sliceRuns 2).colAnalog 7 info 0).laneBack p l retrainOk).sliceDone x
  else ((s.sliceRuns 2).analogFail 6 p l info 0).sliceDone x

/-- LANE_SLICE (R442, R443): ok is the outcome of the loopback test, retrainOk the lane's in the retrain after it. -/
def execLaneSlice (port : PortId) (lane : BitVec 2) (ok retrainOk : Bool) (s : State) : Answer :=
  let p := port.val
  let l := lane.toNat
  .next (if s.power.state ≠ .run ∨ s.module.fatal then s
    else (s.readySlice (.lane p l)).elim s fun x => s.laneSlice x p l ok retrainOk)

/-- A CURRENT slice that has run (R414, R442). -/
def State.currentRan (s : State) (x : Slice) (r : CurrentSliceResult) : State :=
  let s := s.sliceRuns 3
  let s := if x.recal then s.modPower fun p => { p with recal := false } else s
  if r.pass then ((s.recalDone r.coefficients).colAnalog 8 0 r.measured).sliceDone x
  else
    let s := (s.analogFail 9 0 0 0 r.measured).sliceDone x
    if x.recal ∨ s.power.distrust then s.recalMiss else s

/-- CURRENT_SLICE (R445): it starts only with 60 W to spare; an abandoned one is no attempt. -/
def execCurrentSlice (r : CurrentSliceResult) (s : State) : Answer :=
  .next (if s.power.state ≠ .run ∨ s.module.fatal ∨ 10 * s.capEff.1 < s.power.gov10 + 2400 then s
    else
      (s.readySlice .current).elim s fun x => if r.abandoned then s.abandon x 0 else s.currentRan x r)

end Sys2Proof.Machine
end

