-- ==== Sys2Proof/Machine/Firmware.lean ====
section
/-!
DEFINITION. Firmware bundles and their checks (R452 to R454), boot and fallback (R455, R456), the operations of
UAR_FW_CTRL (R457 to R459), the sideband recovery (R494), and the keys and certificates (R451, R460, R462).
-/

namespace Sys2Proof.Machine

/-! ### Bundles -/

/-- Bytes of a slot (R452). -/
def slotBytes : Nat := 50331648

/-- A field of the first 512 bytes of a bundle's header. -/
def hdrField (m : Sparse Byte) (lo n : Nat) : Nat := (bundleNum m 0 512 >>> lo) % 2 ^ n

/-- A field of entry i (R452). -/
def entryField (m : Sparse Byte) (i lo n : Nat) : Nat := hdrField m (512 + 384 * i + lo) n

/-- Magic, version, count and reserved fields (R454). -/
def headerOk (m : Sparse Byte) : Bool :=
  decide (bundleNum m 0 4 = 0x31424C44) && decide (bundleNum m 4 1 = 1) && decide (bundleNum m 6 1 = 6)
    && decide (hdrField m 46 2 = 0 ∧ hdrField m 56 8 = 0 ∧ hdrField m 96 32 = 0 ∧ hdrField m 192 320 = 0 ∧ hdrField m 2816 1280 = 0)
    && (List.range 6).all (fun i => decide (entryField m i 96 32 = 0))
    && decide (bundleNum m 3821 275 = 0)

/-- The public key of a bundle. -/
def bundleKey (m : Sparse Byte) : List Byte := Sparse.getList 0 m 4096 1952

/-- The vendor key of a bundle (R454). -/
def keyOk (u : Uarid) (m : Sparse Byte) : Bool :=
  let k := hdrField m 40 2
  decide (shake256 (bundleKey m) 32 = u.vendorDigests.getD k []) && !u.vendorRevoke.getLsbD k

/-- The message that ML-DSA signs under a context string (FIPS 204). -/
def withContext (ctx : String) (m : List Byte) : List Byte := 0 :: BitVec.ofNat 8 (ascii ctx).length :: ascii ctx ++ m

/-- The signature of a bundle (R452, R454). -/
def signatureOk (m : Sparse Byte) : Bool :=
  Config.mldsaVerify (bundleKey m) (withContext "DLM2048-FW" (Sparse.getList 0 m 0 512)) (Sparse.getList 0 m 512 3309)

/-- The digest field of entry i. -/
def entryDigest (m : Sparse Byte) (i : Nat) : List Byte := Sparse.getList 0 m (64 + 48 * i + 16) 32

/-- Entry i: its id, its place and its digest (R454). -/
def entryOk (m : Sparse Byte) (i : Nat) : Bool :=
  let off := entryField m i 32 32
  let len := entryField m i 64 32
  decide (entryField m i 0 32 = i + 1) && decide (off + len ≤ slotBytes)
    && decide (shake256 (Sparse.getList 0 m off len) 32 = entryDigest m i)

/-- Statuses of UAR_FW_STAT (R478). -/
def fwDone : Nat := 2
def fwBadHeader : Nat := 3
def fwBadKey : Nat := 4
def fwBadSignature : Nat := 5
def fwRollback : Nat := 6
def fwBadDigest : Nat := 7
def fwActiveSlot : Nat := 8
def fwStaged : Nat := 9
def fwNoTrial : Nat := 10
def fwBadSource : Nat := 11

/-- Why a bundle does not pass (R454), if it does not. -/
def bundleFault (u : Uarid) (m : Sparse Byte) : Option Nat :=
  if !headerOk m then some fwBadHeader
  else if !keyOk u m then some fwBadKey
  else if !signatureOk m then some fwBadSignature
  else if bundleSvn m < u.rollback ∨ 64 < bundleSvn m then some fwRollback
  else if !(List.range 6).all (entryOk m) then some fwBadDigest
  else none

/-- The seven measurements of a bundle that passes (R453). -/
def bundleMeas (m : Sparse Byte) : List (List Byte) :=
  toBytes 32 Config.romMeasurement.toNat :: (List.range 6).map (entryDigest m)

/-- The Uarid changed. -/
def State.modUarid (s : State) (f : Uarid → Uarid) : State := { s with uarid := f s.uarid }

/-- A slot's contents replaced. -/
def Uarid.setSlot (u : Uarid) (b : Bool) (m : Sparse Byte) (valid : Bool) : Uarid :=
  if b then { u with slotB := m, validB := valid } else { u with slotA := m, validA := valid }

/-- Whether a slot is valid. -/
def Uarid.valid (u : Uarid) (b : Bool) : Bool := if b then u.validB else u.validA

/-- Both slots judged again (R457). -/
def Uarid.rejudge (u : Uarid) : Uarid :=
  { u with validA := (bundleFault u u.slotA).isNone, validB := (bundleFault u u.slotB).isNone }

/-! ### Keys -/

/-- The life-cycle class of the key seeds (R451). -/
def Uarid.lcc (u : Uarid) : Byte := if u.life = 2 then 1 else 0

/-- The seed of the DeviceID key (R451). -/
def Uarid.devidSeed (u : Uarid) : List Byte := shake256 (ascii "DLM2048-DEVID" ++ u.uds ++ [u.lcc]) 32

/-- The seed of the alias key (R451). -/
def Uarid.aliasSeed (u : Uarid) : List Byte := shake256 (ascii "DLM2048-ALIAS" ++ u.uds ++ [u.lcc] ++ u.meas.flatten) 32

/-- A new alias certificate over the current measurements (R460, R462, R474). -/
def Uarid.certify (u : Uarid) : Uarid := { u with aliasFor := u.meas, certBusy := none }

/-- The certificate chain of slot 0 (R462): root, intermediate, DeviceID with the serial number, alias with the
measurements. -/
def Uarid.chain (u : Uarid) : List Byte :=
  let devid := Config.mldsaPublic (shake256 (ascii "DLM2048-DEVID" ++ u.uds ++ [0]) 32)
  Config.certificate 0 [] ++ Config.certificate 1 [] ++ Config.certificate 2 (devid ++ toBytes 8 u.serial.toNat)
    ++ Config.certificate 3 (Config.mldsaPublic u.aliasSeed ++ u.aliasFor.flatten)

/-! ### Boot -/

/-- The DEGRADED record of the host link (R483, R484). -/
def State.linkRecord (s : State) (speed width : Nat) (failed : BitVec 16) : State :=
  s.raise { source := 0x13, cls := clsDegraded, detail := 6 + evLane * 16
            info0 := place speed 0 3 + place width 3 5 + place failed.toNat 16 16 }

/-- The host link has trained after a reset: what it reached is what later trainings are held against (R483, R484, R485). -/
def State.linkTrained (s : State) (speed width : Nat) (failed : BitVec 16) : State :=
  let s : State := { s with module := { s.module with linkSpeed := speed, linkWidth := width, flit := decide (6 ≤ speed), bootSpeed := speed
                                                      bootWidth := width, degraded := false, failed := failed, low := false } }
  let s := s.emit (.linkTrain speed width)
  if width = 1 then s.linkRecord speed width failed else s

/-- The host link trains (R483, R485). What the other end supports, and which lanes pass, is no part of the device: the speed, the
width and the failed lanes of one that is not ×16 are free (log entry 38). -/
def State.trainLink (s : State) : State :=
  let (b, s) := s.free
  let width := [16, 8, 4, 1].getD (bits b 8 2) 16
  s.linkTrained (1 + bits b 0 8 % 7) width (if width = 16 then 0 else BitVec.ofNat 16 (bits b 16 16))

/-- Steps 2 to 5 of boot from a slot that passes (R455, R56, R475). -/
def State.bootFrom (s : State) (slot : Bool) : State :=
  let u := s.uarid
  let s : State := { s with uarid := { u with activeSlot := slot, meas := bundleMeas (u.slot slot), measPend := [], prepared := none
                                              booted := true, ready := true, recoverMode := false
                                              tampered := u.tamperLogged } }
  let s := s.modUarid fun u => u.certify.rejudge
  let s := (u.faultLog.filter fun e => decide (e.1 < 2048)).foldl (fun s e => s.modFacet e.1 e.2 fun x => { x with state := .faulty }) s
  let s := (s.redigest).secEvent 0 0 0 0 0
  if s.module.perstN then s.trainLink else s

/-- Boot (R455, R456): the boot slot, then the other one; with neither the ROM awaits a recovery. -/
def State.boot (s : State) : State :=
  let u := s.uarid
  if !s.module.pwrGood ∨ u.booted ∨ u.recoverMode then s
  else if (bundleFault u (u.slot u.bootSlot)).isNone then s.bootFrom u.bootSlot
  else if (bundleFault u (u.slot !u.bootSlot)).isNone then
    State.bootFrom { s with uarid := { u with bootSlot := !u.bootSlot, trial := false, fallback := true } } !u.bootSlot
  else s.modUarid fun u => { u with recoverMode := true, validA := false, validB := false }

/-- BOOT (R455, R456). -/
def execBoot (s : State) : Answer := .next s.boot

/-- FW_FALLBACK, once the event ring is running (R456). -/
def State.tellFallback (s : State) : State :=
  if s.uarid.fallback ∧ s.eqEnabled then (s.modUarid fun u => { u with fallback := false }).secEvent 1 0 0 0 0 else s

/-- EVENT_RING_ENABLE (R256, R456). -/
def execEventRingEnable (en : Bool) (s : State) : Answer := .next (s.enableEvents en).tellFallback

/-- RECOVERY_WRITE (R494): answered only while the ROM awaits a recovery. -/
def execRecoveryWrite (off : Word32) (data : List Byte) (s : State) : Answer :=
  .next (if !s.uarid.recoverMode then s
    else if slotBytes < off.toNat + data.length ∨ 1000 < data.length then s.emit (.recovery 1)
    else
      (s.modUarid fun u => { u with slotA := Sparse.setList 0 u.slotA off.toNat data }).emit (.recovery 0))

/-- RECOVERY_DONE (R494). -/
def execRecoveryDone (_length : Word32) (s : State) : Answer :=
  .next (if !s.uarid.recoverMode then s
    else if (bundleFault s.uarid s.uarid.slotA).isNone then
      State.bootFrom ((s.modUarid fun u => { u with bootSlot := false, validA := true }).emit (.recovery 0)) false
    else (s.modUarid fun u => { u with validA := false }).emit (.recovery 1))

/-! ### UAR_FW_CTRL -/

/-- A firmware operation ends with a status. -/
def State.fwStatus (s : State) (st : Nat) : State := s.modUarid fun u => { u with fwStatus := st }

/-- A refused firmware operation (R477). -/
def State.fwRefused (s : State) (st : Nat) : State := (s.fwStatus st).secEvent 3 0 0 0 0

/-- The bundle that WRITE reads (R458): none where its source is not below 0x0F00_0000 or cannot be read. -/
def State.fwSource (s : State) : Option (List Byte) × State :=
  let src := (s.reg Reg.UAR_FW_SRC).toNat
  let len := s.fld Reg.UAR_FW_LEN 0 26
  if slotBytes < len ∨ barLimit < src + len ∨ barLimit ≤ src ∨ !(banksOf src len).all s.bankReady then (none, s)
  else readShared Who.none src len s

/-- The bytes of a bundle as a slot holds them. -/
def flashOf (bs : List Byte) : Sparse Byte := Sparse.setList 0 [] 0 bs

/-- Whether the Uarid serves (R455). -/
def State.uaridUp (s : State) : Bool := s.uarid.booted && !s.module.fatal

/-- WRITE (R458). -/
def State.fwWrite (s : State) (slot : Bool) : State :=
  if !s.uaridUp then s
  else if slot = s.uarid.activeSlot then s.fwRefused fwActiveSlot
  else if s.uarid.prepared = some slot then s.fwRefused fwStaged
  else
    match s.fwSource with
    | (none, s) => s.fwRefused fwBadSource
    | (some bs, s) =>
      match bundleFault s.uarid (flashOf bs) with
      | some st => s.fwRefused st
      | none =>
        ((s.modUarid fun u => { u.setSlot slot (flashOf bs) true with progress := 100 }).fwStatus fwDone).secEvent 2 0 0 0 0

/-- FW_WRITE (R458). -/
def execFwWrite (slot : Bool) (s : State) : Answer := .next (s.fwWrite slot)

/-- Whether a staged epoch carries a slot (R459). -/
def State.slotStaged (s : State) : Bool := s.cfg.staged.elim false fun e => e.slot.isSome

/-- PREPARE (R459). -/
def State.fwPrepare (s : State) (slot : Bool) : State :=
  let u := s.uarid
  if !s.uaridUp then s
  else if slot = u.activeSlot then s.fwRefused fwActiveSlot
  else if s.slotStaged then s.fwRefused fwStaged
  else
    match bundleFault u (u.slot slot) with
    | some st => s.fwRefused st
    | none =>
      (s.modUarid fun u => { u with prepared := some slot, measPend := bundleMeas (u.slot slot) }).fwStatus fwDone

/-- FW_PREPARE (R459). -/
def execFwPrepare (slot : Bool) (s : State) : Answer := .next (s.fwPrepare slot)

/-- UNPREPARE (R459). -/
def State.fwUnprepare (s : State) : State :=
  if !s.uaridUp then s
  else if s.slotStaged then s.fwRefused fwStaged
  else (s.modUarid fun u => { u with prepared := none, measPend := [] }).fwStatus fwDone

/-- FW_UNPREPARE (R459). -/
def execFwUnprepare (s : State) : Answer := .next s.fwUnprepare

/-- COMMIT (R457). -/
def State.fwCommit (s : State) : State :=
  let u := s.uarid
  let m := u.slot u.activeSlot
  if !s.uaridUp then s
  else if !u.trial then s.fwRefused fwNoTrial
  else
    let s := s.modUarid fun u =>
      Uarid.rejudge { u with rollback := max u.rollback (bundleSvn m), trial := false
                             vendorRevoke := u.vendorRevoke ||| BitVec.ofNat 4 (hdrField m 42 4) }
    (s.fwStatus fwDone).secEvent 5 0 0 0 0

/-- FW_COMMIT (R457). -/
def execFwCommit (s : State) : Answer := .next s.fwCommit

/-- CERT_READY (R460). -/
def execCertReady (s : State) : Answer :=
  .next (if s.uarid.certBusy.isSome then (s.modUarid (·.certify)).secEvent 6 0 0 0 0 else s)

end Sys2Proof.Machine
end

