-- ==== Sys2Proof/Machine/Session.lean ====
section
/-!
DEFINITION. Management (R464 to R476): messages and their ways in, sessions, the operations of R469, the life cycle, the
wipe (R236) and tamper; MGMT messages of the fabric (R355) and messages that only pass through (R360).
-/

namespace Sys2Proof.Machine

/-! ### Messages -/

/-- Statuses of a management response (R465). -/
def mOk : Nat := 0
def mRefused : Nat := 1
def mLocked : Nat := 2
def mBusy : Nat := 3
def mBadProof : Nat := 4
def mState : Nat := 5

/-- The 16 bytes of a message header (R465). -/
def mgmtHeader (op : Nat) (rsp : Bool) (session counter length status : Nat) : List Byte :=
  toBytes 16 (place op 0 8 + place rsp.toNat 8 1 + place session 16 16 + place counter 32 32 + place length 64 16
    + place status 80 8)

/-- A request read from a body (R465): its op, and its fields; none where the body is no well-formed request. -/
def parseMgmt (path : MgmtPath) (body : List Byte) : Option (Nat × MgmtReq) :=
  let h := ofBytes (body.take 16)
  let f (lo n : Nat) : Nat := (h >>> lo) % 2 ^ n
  let len := f 64 16
  let tag := if f 16 16 = 0 then 0 else 32
  if body.length < 16 + len + tag ∨ f 8 1 = 1 ∨ f 9 7 ≠ 0 ∨ f 80 48 ≠ 0 then none
  else
    some (f 0 8, { path := path, session := BitVec.ofNat 16 (f 16 16), counter := BitVec.ofNat 32 (f 32 32)
                   payload := (body.drop 16).take len, tag := (body.drop (16 + len)).take tag })

/-- The session of an identifier. -/
def State.session (s : State) (id : Nat) : Option Session := s.uarid.sessions.find? fun x => decide (x.id = id)

/-- The tag of a message in a session (R465). -/
def sessionTag (key header payload : List Byte) : List Byte := kmac256 key (header ++ payload) "DLM2048-MSG"

/-- The body of a response. -/
def responseBody (op : Nat) (q : MgmtReq) (key : Option (List Byte)) (status : Nat) (payload : List Byte) : List Byte :=
  let h := mgmtHeader op true q.session.toNat q.counter.toNat payload.length status
  h ++ payload ++ (key.elim [] fun k => sessionTag k h payload)

/-- A response leaves on the way its request came (R464, R478). -/
def State.deliver (s : State) (op : Nat) (q : MgmtReq) (key : Option (List Byte)) (status : Nat) (payload : List Byte) : State :=
  let body := responseBody op q key status payload
  match q.path with
  | .mailbox =>
    let s := s.modUarid fun u => { u with mbox := Sparse.setList 0 u.mbox 0 body, busy := false }
    (s.setFld Reg.UAR_MBOX_CTRL 0 13 body.length).setFld Reg.UAR_MBOX_CTRL 15 1 1
  | .sideband =>
    s.emit (.mgmt .sideband op q.session.toNat q.counter.toNat status payload (key.elim [] fun k =>
      sessionTag k (mgmtHeader op true q.session.toNat q.counter.toNat payload.length status) payload))
  | .fabric src => (s.request ⟨0, 0, 0, 0, 0⟩ src 0 (.mgmt body)).2

/-- A response outside a session. -/
def State.reply (s : State) (op : Nat) (q : MgmtReq) (status : Nat) (payload : List Byte) : State :=
  s.deliver op q none status payload

/-- A request discarded without a response (R467, R493); the mailbox is free again. -/
def State.ignore (s : State) (q : MgmtReq) : State :=
  match q.path with
  | .mailbox => s.modUarid fun u => { u with busy := false }
  | _ => s

/-! ### Keys and proofs -/

/-- Whether the Uarid holds a management key (R464). -/
def State.keyHeld (s : State) : Bool :=
  let l := (List.range 4).map fun i => s.preg (56 + i)
  l.any (fun p => decide (p.shadow ≠ 0)) && !l.any (·.worn)

/-- The management key (R464). -/
def State.mgmtKey (s : State) : List Byte := (List.range 4).flatMap fun i => toBytes 8 (s.preg (56 + i)).shadow.toNat

/-- A new management key (R469). -/
def State.writeKey (s : State) (k : List Byte) : State :=
  (List.range 4).foldl (fun s i => s.writePreg (56 + i) (BitVec.ofNat 64 (ofBytes ((k.drop (8 * i)).take 8)))) s

/-- The count f of failed proofs in a row (R468). -/
def State.fails (s : State) : Nat := (s.preg 63).shadow.toNat

/-- f set; the register is written only when f changes (R468). -/
def State.setFails (s : State) (f : Nat) : State := if s.fails = f then s else s.writePreg 63 (BitVec.ofNat 64 f)

/-- The path bits of a SECURITY event (R477). -/
def pathBits (q : MgmtReq) : Nat := place (pathCode q.path).1 5 3

/-- A failed proof (R468): counted, and OPEN_REQ is locked for 2^min(f - 1, 10) s. -/
def State.proofFailed (s : State) (q : MgmtReq) : State :=
  let f := s.fails + 1
  let s := (s.count Reg.UAR_AUTH_FAILS 1).setFails f
  let s := s.modUarid fun u => { u with lockedUntil := s.ticks + 2 ^ min (f - 1) 10 * 1000000000 }
  s.secEvent 10 (pathBits q) 0 (pathCode q.path).2 f

/-! ### The wipe, tamper and the life cycle -/

/-- The wipe of the secure region starts; during one, a new one follows (R236, R475). -/
def State.startWipe (s : State) : State :=
  s.modUarid fun u => if u.wiping.isSome then { u with wipeAgain := true } else { u with wiping := some s.ticks }

/-- WIPE_DONE (R236, R475), 2,048 S-cycles after its start. -/
def execWipeDone (s : State) : Answer :=
  .next (match s.uarid.wiping with
    | none => s
    | some t =>
      if (s.ticks - t) * 14 < 20480 then s
      else
        (s.modUarid fun u => { u with secure := [], wiping := if u.wipeAgain then some s.ticks else none, wipeAgain := false }).secEvent
          12 0 0 0 0)

/-- 0 in the SECRET registers (R474). -/
def State.clearSecrets (s : State) : State := (List.range 8).foldl (fun s i => s.writePreg (56 + i) 0) s

/-- Every session closed, every challenge discarded (R474). -/
def State.closeSessions (s : State) : State := s.modUarid fun u => { u with sessions := [], challenges := [] }

/-- A change of life-cycle state (R474): bit b of the fuses is blown. -/
def State.setLife (s : State) (b : Nat) : State :=
  let s := s.modUarid fun u => { u with lifecycle := u.lifecycle ||| BitVec.ofNat 3 (2 ^ b) }
  let s := s.startWipe.clearSecrets.closeSessions
  let s := if s.uarid.life = 3 then s else s.modUarid (·.certify)
  s.secEvent 13 0 0 0 0

/-- Code of a tamper detector (R477). -/
def tamperCode : TamperSource → Nat
  | .heatsink => 0
  | .mesh => 1
  | .glitch => 2
  | .debug => 3

/-- TAMPER (R473, R475): an access to the debug port counts only in PRODUCTION. -/
def State.tamper (s : State) (src : TamperSource) : State :=
  if src = .debug ∧ s.uarid.life ≠ 1 then s
  else
    let s := (s.modUarid fun u => { u with tampered := true, tamperLogged := true }).startWipe.clearSecrets.closeSessions
    (s.count Reg.UAR_TAMPERS 1).secEvent 11 (place (tamperCode src) 8 2) 0 0 0

/-- TAMPER (R475). -/
def execTamper (src : TamperSource) (s : State) : Answer := .next (s.tamper src)

/-! ### Opening a session -/

/-- The Uarid's next 32 random bytes. -/
def State.nonce (s : State) : List Byte × State :=
  let (b, s) := s.free
  (toBytes 32 b.toNat, s)

/-- A session identifier that no session or challenge uses. -/
def Uarid.freshId (u : Uarid) : Nat :=
  let used := u.sessions.map (·.id) ++ u.challenges.map (·.id)
  ((List.range 65535).find? fun i => !used.contains ((u.nextId + i - 1) % 65535 + 1)).elim u.nextId
    fun i => (u.nextId + i - 1) % 65535 + 1

/-- A new challenge on a path (R466). -/
def State.challenge (s : State) (path : MgmtPath) : List Byte × Nat × State :=
  let (nd, s) := s.nonce
  let id := s.uarid.freshId
  let x : Challenge := { id := id, nonce := nd, issued := s.ticks, path := path }
  (nd, id, s.modUarid fun u =>
    { u with challenges := (u.challenges.filter fun c => decide (c.path ≠ path)) ++ [x], nextId := id % 65535 + 1 })

/-- OPEN_REQ (R466, R468): the response carries the nonce and the identifier. -/
def State.openReq (s : State) (q : MgmtReq) : State :=
  if s.uarid.life = 3 then s.reply 1 q mState []
  else if s.ticks < s.uarid.lockedUntil then s.reply 1 q mLocked []
  else if !s.keyHeld then s.reply 1 q mRefused []
  else if 4 ≤ s.uarid.sessions.length then s.reply 1 q mBusy []
  else
    let (nd, id, s) := s.challenge q.path
    s.reply 1 q mOk (nd ++ toBytes 2 id)

/-- The serial number as the proofs take it. -/
def State.serialBytes (s : State) : List Byte := toBytes 8 s.uarid.serial.toNat

/-- A proof that passes opens the session (R466, R468). -/
def State.openSession (s : State) (q : MgmtReq) (x : Challenge) (nr : List Byte) : State :=
  let key := s.mgmtKey
  let ks := kmac256 key (x.nonce ++ nr ++ s.serialBytes) "DLM2048-SESSION"
  let answer := kmac256 key (nr ++ x.nonce ++ s.serialBytes) "DLM2048-DEVICE"
  let y : Session := { id := x.id, key := ks, counter := 0, last := s.ticks, path := q.path }
  let s := (s.modUarid fun u => { u with sessions := u.sessions ++ [y] }).setFails 0
  let s := (s.count Reg.UAR_SESSIONS 1).secEvent 7 (pathBits q) x.id (pathCode q.path).2 0
  s.reply 2 q mOk answer

/-- OPEN_RSP (R466, R468): the payload is the requester's nonce and its proof. -/
def State.openRsp (s : State) (q : MgmtReq) : State :=
  if s.uarid.life = 3 then s.reply 2 q mState []
  else
    match s.uarid.challenges.find? fun c => decide (c.path = q.path) with
    | none => s.reply 2 q mRefused []
    | some x =>
      if x.issued + 10000000000 ≤ s.ticks ∨ !s.keyHeld then s.reply 2 q mRefused []
      else if 4 ≤ s.uarid.sessions.length then s.reply 2 q mBusy []
      else
        let nr := q.payload.take 32
        let s := s.modUarid fun u => { u with challenges := u.challenges.filter fun c => decide (c.id ≠ x.id) }
        if (q.payload.drop 32) ≠ kmac256 s.mgmtKey (x.nonce ++ nr ++ s.serialBytes) "DLM2048-OPEN" then
          ((s.secEvent 8 (pathBits q) x.id (pathCode q.path).2 0).proofFailed q).reply 2 q mBadProof []
        else s.openSession q x nr

/-! ### Requests in a session -/

/-- A request of op within a session (R467): accepted with a greater counter and a good tag, else discarded and counted;
then f, with the session's key. -/
def State.inSession (s : State) (op : Nat) (q : MgmtReq) (f : List Byte → State → State) : State :=
  match s.session q.session.toNat with
  | none => (s.count Reg.UAR_AUTH_FAILS 1).ignore q
  | some x =>
    let h := mgmtHeader op false q.session.toNat q.counter.toNat q.payload.length 0
    if q.counter.toNat ≤ x.counter ∨ q.tag ≠ sessionTag x.key h q.payload then (s.count Reg.UAR_AUTH_FAILS 1).ignore q
    else
      f x.key (s.modUarid fun u =>
        { u with sessions := u.sessions.map fun y => if y.id = x.id then { y with counter := q.counter.toNat, last := s.ticks } else y })

/-- A session closes, with its event. -/
def State.closeSession (s : State) (x : Session) : State :=
  (s.modUarid fun u => { u with sessions := u.sessions.filter fun y => decide (y.id ≠ x.id) }).secEvent 9
    (place (pathCode x.path).1 5 3) x.id (pathCode x.path).2 0

/-- CLOSE (R467). -/
def State.closeOp (s : State) (q : MgmtReq) : State :=
  s.inSession 3 q fun key s =>
    ((s.session q.session.toNat).elim s s.closeSession).deliver 3 q (some key) mOk []

/-- A key set by a request (R469, R470). -/
def State.keySet (s : State) (q : MgmtReq) (k : List Byte) : State :=
  (s.writeKey k).secEvent 14 (pathBits q) q.session.toNat (pathCode q.path).2 0

/-- Whether the first key may be set through the mailbox without a session (R470). -/
def State.firstKey (s : State) (q : MgmtReq) : Bool :=
  decide (q.path = .mailbox) && !s.keyHeld
    && (decide (s.uarid.life = 0) || (decide (s.uarid.life = 2) && s.uarid.ownerDigest.isNone))

/-- SET_KEY (R469, R470). -/
def State.setKeyOp (s : State) (q : MgmtReq) : State :=
  if q.session = 0 then
    if s.uarid.life = 3 then s.reply 0x10 q mState []
    else if !s.firstKey q ∨ q.payload.length ≠ 32 then s.reply 0x10 q mRefused []
    else (s.keySet q q.payload).reply 0x10 q mOk []
  else
    s.inSession 0x10 q fun key s =>
      if s.uarid.life = 3 then s.deliver 0x10 q (some key) mState []
      else if q.payload.length ≠ 32 then s.deliver 0x10 q (some key) mRefused []
      else (s.keySet q q.payload).deliver 0x10 q (some key) mOk []

/-- SET_OWNER (R469, R474). -/
def State.setOwnerOp (s : State) (q : MgmtReq) : State :=
  s.inSession 0x11 q fun key s =>
    if s.uarid.life ≠ 0 then s.deliver 0x11 q (some key) mState []
    else if q.path ≠ .mailbox ∨ q.payload.length ≠ 1952 then s.deliver 0x11 q (some key) mRefused []
    else
      ((s.modUarid fun u => { u with ownerDigest := some (shake256 q.payload 32) }).setLife 0).deliver 0x11 q (some key) mOk []

/-- LIFECYCLE (R469, R472): to RMA or to SCRAPPED. -/
def State.lifecycleOp (s : State) (q : MgmtReq) : State :=
  s.inSession 0x12 q fun key s =>
    let to_ := ofBytes q.payload
    if s.uarid.life = 3 then s.deliver 0x12 q (some key) mState []
    else if to_ = 3 then (s.setLife 2).deliver 0x12 q (some key) mOk []
    else if to_ = 2 ∧ s.uarid.life ≠ 2 then (s.setLife 1).deliver 0x12 q (some key) mOk []
    else s.deliver 0x12 q (some key) mRefused []

/-- CLEAR_TAMPER (R469, R475). -/
def State.clearTamperOp (s : State) (q : MgmtReq) : State :=
  s.inSession 0x13 q fun key s =>
    if s.uarid.life = 0 ∨ s.uarid.life = 3 then s.deliver 0x13 q (some key) mState []
    else (s.modUarid fun u => { u with tampered := false, tamperLogged := false }).deliver 0x13 q (some key) mOk []

/-- n bytes that the spec does not give. -/
def freeBytes : Nat → State → List Byte × State
  | 0, s => ([], s)
  | n + 1, s =>
    let (b, s) := s.free
    let (l, s) := freeBytes n s
    (toBytes 32 b.toNat ++ l, s)

/-- READ_LOG (R469): up to 960 bytes of the fault log, whose format and length the spec does not give. -/
def State.readLogOp (s : State) (q : MgmtReq) : State :=
  s.inSession 0x14 q fun key s =>
    if s.uarid.life = 3 then s.deliver 0x14 q (some key) mState []
    else
      let (b, s) := s.free
      let (l, s) := freeBytes 30 s
      s.deliver 0x14 q (some key) mOk (l.take (bits b 0 10 % 961))

/-- NONCE (R469). -/
def State.nonceOp (s : State) (q : MgmtReq) : State :=
  if s.uarid.life = 0 ∨ s.uarid.life = 3 then s.reply 0x15 q mState []
  else if q.path ≠ .mailbox ∨ q.session ≠ 0 then s.reply 0x15 q mRefused []
  else
    let (n, s) := s.nonce
    (s.modUarid fun u => { u with recoverNonce := some (n, s.ticks) }).reply 0x15 q mOk n

/-- Whether RECOVER is accepted (R476): its payload is the new key, the nonce, the owner's public key and the signature. -/
def State.recoverOk (s : State) (p : List Byte) : Bool :=
  let key := p.take 32
  let nonce := (p.drop 32).take 32
  let pub := (p.drop 64).take 1952
  let sig := p.drop 2016
  let ctx := "DLM2048-RECOVER"
  decide (s.uarid.ownerDigest = some (shake256 pub 32))
    && s.uarid.recoverNonce.elim false (fun n => decide (n.1 = nonce ∧ s.ticks < n.2 + 60000000000))
    && Config.mldsaVerify pub (withContext ctx (ascii ctx ++ s.serialBytes ++ nonce ++ key)) sig

/-- RECOVER (R476). -/
def State.recoverOp (s : State) (q : MgmtReq) : State :=
  if s.uarid.life = 0 ∨ s.uarid.life = 3 then s.reply 0x16 q mState []
  else if q.path ≠ .mailbox ∨ q.session ≠ 0 then s.reply 0x16 q mRefused []
  else if s.recoverOk q.payload then ((s.keySet q (q.payload.take 32)).setFails 0).reply 0x16 q mOk []
  else (s.proofFailed q).reply 0x16 q mRefused []

/-! ### The ways in -/

/-- What a request of an op does (R469); one of no op of the table is refused. -/
def State.serveMgmt (s : State) (op : Nat) (q : MgmtReq) : State :=
  match op with
  | 0x01 => s.openReq q
  | 0x02 => s.openRsp q
  | 0x03 => s.closeOp q
  | 0x10 => s.setKeyOp q
  | 0x11 => s.setOwnerOp q
  | 0x12 => s.lifecycleOp q
  | 0x13 => s.clearTamperOp q
  | 0x14 => s.readLogOp q
  | 0x15 => s.nonceOp q
  | 0x16 => s.recoverOp q
  | _ => s.reply op q mRefused []

/-- Whether an op is one of the table's (R469). -/
def knownOp (op : Nat) : Bool := [0x01, 0x02, 0x03, 0x10, 0x11, 0x12, 0x13, 0x14, 0x15, 0x16].contains op

/-- Bytes of a request's body. -/
def mgmtSize (q : MgmtReq) : Nat := 16 + q.payload.length + q.tag.length

/-- The request in the mailbox (R478). -/
def State.mailbox (s : State) : Option (Nat × MgmtReq) :=
  let n := s.fld Reg.UAR_MBOX_CTRL 0 13
  parseMgmt .mailbox (Sparse.getList 0 s.uarid.mbox 0 (if n = 0 then 8192 else n))

/-- Whether a request has come: by the mailbox while it is in service there, on the other paths with a body of at most
1,024 bytes (R464, R478, R493). -/
def State.hasCome (s : State) (op : Nat) (q : MgmtReq) : Bool :=
  match q.path with
  | .mailbox => s.uarid.busy && decide (s.mailbox = some (op, q))
  | _ => decide (mgmtSize q ≤ 1024)

/-- A management request as a row of its own. Requests wait while the secure region is wiped (R236). -/
def State.mgmtRow (s : State) (op : Nat) (q : MgmtReq) (i : Instr) : State :=
  if !s.uaridUp ∨ !s.hasCome op q then s
  else if s.uarid.wiping.isSome then s.hold i
  else s.serveMgmt op q

/-- OPEN_REQ (R466). -/
def execOpenReq (q : MgmtReq) (s : State) : Answer := .next (s.mgmtRow 0x01 q (.openReq q))

/-- OPEN_RSP (R466). -/
def execOpenRsp (q : MgmtReq) (s : State) : Answer := .next (s.mgmtRow 0x02 q (.openRsp q))

/-- CLOSE (R467). -/
def execClose (q : MgmtReq) (s : State) : Answer := .next (s.mgmtRow 0x03 q (.close q))

/-- SET_KEY (R470). -/
def execSetKey (q : MgmtReq) (s : State) : Answer := .next (s.mgmtRow 0x10 q (.setKey q))

/-- SET_OWNER (R469). -/
def execSetOwner (q : MgmtReq) (s : State) : Answer := .next (s.mgmtRow 0x11 q (.setOwner q))

/-- LIFECYCLE (R474). -/
def execLifecycle (q : MgmtReq) (s : State) : Answer := .next (s.mgmtRow 0x12 q (.lifecycle q))

/-- CLEAR_TAMPER (R475). -/
def execClearTamper (q : MgmtReq) (s : State) : Answer := .next (s.mgmtRow 0x13 q (.clearTamper q))

/-- READ_LOG (R469). -/
def execReadLog (q : MgmtReq) (s : State) : Answer := .next (s.mgmtRow 0x14 q (.readLog q))

/-- NONCE (R469). -/
def execNonce (q : MgmtReq) (s : State) : Answer := .next (s.mgmtRow 0x15 q (.nonce q))

/-- RECOVER (R476). -/
def execRecover (q : MgmtReq) (s : State) : Answer := .next (s.mgmtRow 0x16 q (.recover q))

/-- CHALLENGE_EXPIRY (R466). -/
def execChallengeExpiry (session : BitVec 16) (s : State) : Answer :=
  .next (s.modUarid fun u =>
    { u with challenges := u.challenges.filter fun c => !decide (c.id = session.toNat ∧ c.issued + 10000000000 ≤ s.ticks) })

/-- SESSION_IDLE_CLOSE (R467). -/
def execSessionIdleClose (session : BitVec 16) (s : State) : Answer :=
  .next (match s.session session.toNat with
    | none => s
    | some x => if x.last + 60000000000 ≤ s.ticks then s.closeSession x else s)

/-- go of UAR_MBOX_CTRL with a length (R478): ignored, with err, while a request is in service. A request that R469 does not
name is refused at once. -/
def State.mboxGo (s : State) (length : Nat) : State :=
  if s.uarid.busy then s.setFld Reg.UAR_MBOX_CTRL 16 1 1
  else
    let s := s.setFld Reg.UAR_MBOX_CTRL 0 13 length
    if !s.uaridUp then s
    else
      let s := s.modUarid fun u => { u with busy := true }
      match s.mailbox with
      | none =>
        s.reply 0 { path := .mailbox, session := 0, counter := 0, payload := [], tag := [] } mRefused []
      | some (op, q) => if knownOp op then s else s.reply op { q with session := 0 } mRefused []

/-- UAR_MBOX_GO (R478). -/
def execUarMboxGo (length : BitVec 13) (s : State) : Answer := .next (s.mboxGo length.toNat)

/-- A MGMT message for this device (R464): its body is served on the path it came by. -/
def fabricMgmt (src : DevNum) (body : List Byte) (s : State) : State :=
  if !s.uaridUp then s
  else
    match parseMgmt (.fabric src) body with
    | some (op, q) => if mgmtSize q ≤ 1024 then s.serveMgmt op q else s
    | none => s

/-- Whether a message is for this device's Uarid. -/
def State.forUarid (s : State) (m : QMsg) : Bool :=
  match m.payload with
  | .mgmt _ => decide (m.hdr.dst.toNat = s.selfDev)
  | _ => false

/-- A message of the fabric with whatever it carries: one for the Uarid waits while the secure region is wiped (R236). -/
def State.arriveAll (s : State) (i : Instr) (m : QMsg) : State :=
  if s.uarid.wiping.isSome ∧ s.forUarid m ∧ s.arrives m.hdr then s.hold i else s.arrive i m fabricMgmt

/-- MSG_MGMT (R355, R464). -/
def execMsgMgmt (h : MsgHdr) (body : List Byte) (s : State) : Answer :=
  .next (s.arriveAll (.msgMgmt h body) { hdr := h, len := payloadWords (.mgmt body), payload := .mgmt body })

/-- MESSAGE_FORWARD (R360, R361): a message for another device goes on; one for this device arrives. -/
def execMessageForward (h : MsgHdr) (len : BitVec 13) (p : Payload) (s : State) : Answer :=
  .next (s.arriveAll (.messageForward h len p) { hdr := h, len := len.toNat, payload := p })

end Sys2Proof.Machine
end

