-- ==== Sys2Proof/Machine/Spdm.lean ====
section
/-!
DEFINITION. The SPDM responder (R463), with the codes of DMTF DSP0274 (PRESUMED from that standard; the log says so).
-/

namespace Sys2Proof.Machine

/-! ### Codes -/

/-- Response codes. -/
def spdmDigests : Nat := 0x01
def spdmCertificate : Nat := 0x02
def spdmChallengeAuth : Nat := 0x03
def spdmVersion : Nat := 0x04
def spdmMeasurements : Nat := 0x60
def spdmCapabilities : Nat := 0x61
def spdmAlgorithms : Nat := 0x63
def spdmError : Nat := 0x7F

/-- Error codes. -/
def errInvalidRequest : Nat := 0x01
def errUnexpectedRequest : Nat := 0x04
def errUnsupportedRequest : Nat := 0x07
def errResponseNotReady : Nat := 0x42

/-! ### Connections -/

/-- The connection of a transport. -/
def Uarid.conn (u : Uarid) (t : SpdmPath) : Spdm :=
  match t with
  | .doe => u.doe
  | .mctp => u.mctp

/-- The connection of a transport replaced. -/
def State.setConn (s : State) (t : SpdmPath) (c : Spdm) : State :=
  s.modUarid fun u => match t with
    | .doe => { u with doe := c }
    | .mctp => { u with mctp := c }

/-- An error response. -/
def State.spdmErr (s : State) (t : SpdmPath) (code : Nat) : State := s.emit (.spdm t spdmError [BitVec.ofNat 8 code])

/-- A request of the attestation part: it needs boot step 5 (R455), is unsupported in SCRAPPED (R472), comes after the
algorithms are agreed, is answered ResponseNotReady while a new alias certificate is made (R460), and waits while the secure
region, where the keys lie, is wiped (R236). -/
def State.attest (s : State) (t : SpdmPath) (i : Instr) (f : State → State) : State :=
  if !s.uarid.ready ∨ s.module.fatal then s
  else if s.uarid.life = 3 then s.spdmErr t errUnsupportedRequest
  else if !(s.uarid.conn t).algs then s.spdmErr t errUnexpectedRequest
  else if s.uarid.certBusy.isSome then s.spdmErr t errResponseNotReady
  else if s.uarid.wiping.isSome then s.hold i
  else f s

/-- GET_VERSION (R463): 1.2 and 1.3; the connection starts. -/
def execGetVersion (t : SpdmPath) (s : State) : Answer :=
  .next (if !s.uarid.ready ∨ s.module.fatal then s
    else (s.setConn t ⟨true, false, false⟩).emit (.spdm t spdmVersion [0x00, 0x12, 0x00, 0x13]))

/-- The capability flags of R463: CERT_CAP, CHAL_CAP, MEAS_CAP with signature. -/
def capFlags : Nat := 2 ^ 1 + 2 ^ 2 + 2 ^ 4

/-- GET_CAPABILITIES (R463). -/
def execGetCapabilities (t : SpdmPath) (s : State) : Answer :=
  .next (if !s.uarid.ready ∨ s.module.fatal then s
    else if !(s.uarid.conn t).version then s.spdmErr t errUnexpectedRequest
    else (s.setConn t ⟨true, true, false⟩).emit (.spdm t spdmCapabilities (toBytes 4 capFlags)))

/-- NEGOTIATE_ALGORITHMS (R463): ML-DSA-65 as the extended algorithm of its registry entry, and SHA3-384. -/
def execNegotiateAlgorithms (t : SpdmPath) (mldsa65 sha3 : Bool) (s : State) : Answer :=
  .next (if !s.uarid.ready ∨ s.module.fatal then s
    else if s.uarid.life = 3 then s.spdmErr t errUnsupportedRequest
    else if !(s.uarid.conn t).caps then s.spdmErr t errUnexpectedRequest
    else if !mldsa65 ∨ !sha3 then s.spdmErr t errInvalidRequest
    else (s.setConn t ⟨true, true, true⟩).emit (.spdm t spdmAlgorithms (toBytes 4 0x0001F3A5 ++ toBytes 2 1)))

/-! ### Attestation -/

/-- The digest of the certificate chain of slot 0. -/
def State.chainDigest (s : State) : List Byte := sha3_384 s.uarid.chain

/-- GET_DIGESTS (R463). -/
def execGetDigests (t : SpdmPath) (s : State) : Answer :=
  .next (s.attest t (.getDigests t) fun s => s.emit (.spdm t spdmDigests (BitVec.ofNat 8 1 :: s.chainDigest)))

/-- GET_CERTIFICATE (R463): a portion of the chain of slot 0. -/
def execGetCertificate (t : SpdmPath) (slot : BitVec 4) (off len : BitVec 16) (s : State) : Answer :=
  .next (s.attest t (.getCertificate t slot off len) fun s =>
    let c := s.uarid.chain
    if slot ≠ 0 ∨ c.length ≤ off.toNat then s.spdmErr t errInvalidRequest
    else
      let part := (c.drop off.toNat).take len.toNat
      s.emit (.spdm t spdmCertificate (toBytes 2 part.length ++ toBytes 2 (c.length - off.toNat - part.length) ++ part)))

/-- A signature with the alias key (R463). -/
def State.aliasSign (s : State) (m : List Byte) : List Byte × State :=
  (Config.mldsaSign s.freeCount s.uarid.aliasSeed m, { s with freeCount := s.freeCount + 1 })

/-- CHALLENGE (R463): the signature covers the nonce and the chain's digest. -/
def execChallenge (t : SpdmPath) (slot : BitVec 4) (nonce : List Byte) (s : State) : Answer :=
  .next (s.attest t (.challenge t slot nonce) fun s =>
    if slot ≠ 0 then s.spdmErr t errInvalidRequest
    else
      let d := s.chainDigest
      let (own, s) := s.nonce
      let (sig, s) := s.aliasSign (nonce ++ d ++ own)
      s.emit (.spdm t spdmChallengeAuth (d ++ own ++ sig)))

/-- The indices of the measurement blocks (R463). -/
def measIndices : List Nat := [1, 2, 3, 4, 5, 6, 7, 0x10, 0x11]

/-- The content of a measurement block (R463): raw bit streams. -/
def State.measBlock (s : State) (i : Nat) : List Byte :=
  let u := s.uarid
  if i = 0x10 then
    [BitVec.ofNat 8 u.life, BitVec.ofNat 8 u.tampered.toNat, BitVec.ofNat 8 u.rollback, BitVec.ofNat 8 u.activeSlot.toNat
     , BitVec.ofNat 8 u.trial.toNat, BitVec.ofNat 8 (bundleSvn (u.slot u.activeSlot)), 0, 0]
  else if i = 0x11 then toBytes 32 s.cfg.digest.toNat ++ toBytes 4 s.cfg.cur.toNat
  else u.meas.getD (i - 1) []

/-- A block with its index and length. -/
def State.measEntry (s : State) (i : Nat) : List Byte :=
  let b := s.measBlock i
  BitVec.ofNat 8 i :: toBytes 2 b.length ++ b

/-- The blocks that an index asks for: 0 none but their number, 0xFF all, else one; none where there is no such block. -/
def State.measAnswer (s : State) (i : Nat) : Option (List Byte) :=
  if i = 0 then some [BitVec.ofNat 8 measIndices.length]
  else if i = 0xFF then some (BitVec.ofNat 8 measIndices.length :: measIndices.flatMap s.measEntry)
  else if measIndices.contains i then some (1 :: s.measEntry i)
  else none

/-- GET_MEASUREMENTS (R463): signed answers carry a nonce and a signature with the alias key. -/
def execGetMeasurements (t : SpdmPath) (index : Byte) (signed : Bool) (nonce : List Byte) (s : State) : Answer :=
  .next (s.attest t (.getMeasurements t index signed nonce) fun s =>
    match s.measAnswer index.toNat with
    | none => s.spdmErr t errInvalidRequest
    | some b =>
      if signed then
        let (own, s) := s.nonce
        let (sig, s) := s.aliasSign (nonce ++ b ++ own)
        s.emit (.spdm t spdmMeasurements (b ++ own ++ sig))
      else s.emit (.spdm t spdmMeasurements b))

end Sys2Proof.Machine
end

