-- ==== Sys2Proof/Machine/Module.lean ====
section
/-!
DEFINITION. The module (R482 to R501): power, resets and what survives them (R485 to R487, R497, R498, R506), D3hot and D0
(R488), the host link's changes (R484), the sideband's sensors and EID (R491, R492).
-/

namespace Sys2Proof.Machine

/-! ### Configuration space -/

/-- What the function says of itself in configuration space (R479). -/
structure PciIdentity where
  vendor : BitVec 16
  device : BitVec 16
  classCode : BitVec 24
  serial : Word64
deriving DecidableEq, Repr

/-- The identity of the one physical function (R479): the serial number is the fuses'. -/
def State.pciIdentity (s : State) : PciIdentity :=
  { vendor := 0x1F3A, device := 0x2048, classCode := 0x120000, serial := s.uarid.serial }

/-- A double word of configuration space that identifies the function (R479), at its offset in the header (PRESUMED: the offsets
are those of PCI Express); part 0 and 1 of the Device Serial Number capability hold the serial number's low and high half. -/
inductive PciWord where
  | ids | classRevision (revision : Byte) | serialLow | serialHigh
deriving DecidableEq, Repr

/-- What a configuration read of such a word gives. -/
def PciIdentity.read (p : PciIdentity) (w : PciWord) : Word32 :=
  match w with
  | .ids => p.device ++ p.vendor
  | .classRevision r => p.classCode ++ r
  | .serialLow => p.serial.setWidth 32
  | .serialHigh => (p.serial >>> 32).setWidth 32

/-- A base address register of the function (R481): its number, its size in bytes, and whether it is prefetchable. All are 64-bit. -/
structure PciBar where
  number : Nat
  size : Nat
  prefetchable : Bool
deriving DecidableEq, Repr

/-- The BARs (R481): the register blocks; the doorbells and the MSI-X structures; the shared-memory aperture. -/
def pciBars : List PciBar := [⟨0, 0x4000000, false⟩, ⟨2, 0x40000, false⟩, ⟨4, 0x10000000, true⟩]

/-- The capabilities of the function that carry a number (R480); what the table does not list is not implemented. -/
structure PciFeatures where
  speeds : List Nat
  widths : List Nat
  maxPayload : Nat
  maxReadRequest : Nat
  tagBits : List Nat
  atsQueueDepth : Nat
  atsPageAligned : Bool
  atsGlobalInvalidate : Bool
  priCapacity : Nat
  priPasidRequired : Bool
  noSoftReset : Bool
  functionLevelReset : Bool
deriving DecidableEq, Repr

/-- The values of R480: speeds by the codes of GLB_PCIE_STAT (R501). -/
def pciFeatures : PciFeatures :=
  { speeds := [1, 2, 3, 4, 5, 6, 7], widths := [16, 8, 4, 1], maxPayload := 512, maxReadRequest := 4096, tagBits := [10, 14]
    atsQueueDepth := 32, atsPageAligned := true, atsGlobalInvalidate := false, priCapacity := 64, priPasidRequired := false
    noSoftReset := true, functionLevelReset := true }

/-! ### Power-up and resets -/

/-- The Uarid after power-up: fuses, flash, boot record and fault log are kept (R450, R506). -/
def Uarid.powerUp (u : Uarid) : Uarid :=
  { Uarid.reset with uds := u.uds, serial := u.serial, vendorDigests := u.vendorDigests, vendorRevoke := u.vendorRevoke
                     ownerDigest := u.ownerDigest, lifecycle := u.lifecycle, rollback := u.rollback, slotA := u.slotA
                     slotB := u.slotB, validA := u.validA, validB := u.validB, bootSlot := u.bootSlot, trial := u.trial
                     faultLog := u.faultLog, tamperLogged := u.tamperLogged }

/-- Persistent registers after power-up (R395, R397). -/
def powerUpPregs (m : Sparse Preg) : Sparse Preg :=
  (m.map fun e => (e.1, e.2.powerUp)).filter fun e => decide (e.2 ≠ Preg.reset)

/-- The registers of which neither slot passes are reported (R395). -/
def State.reportLost (s : State) (old : Sparse Preg) : State :=
  old.foldl (fun s e => if e.2.torn.lost then s.wearEvent 12 1 e.1 e.2.wear else s) s

/-- The whole device after power-up, or after PERST_N while fatal is 1 (R487, R506): durable state, what lies outside the
device, and the model's own time and indices are kept. -/
def State.powerUp (s : State) : State :=
  let r := State.reset
  let s' : State :=
    { r with pending := s.pending, ticks := s.ticks, freeCount := s.freeCount, host := s.host, hostPages := s.hostPages
             out := s.out, pregs := powerUpPregs s.pregs, uarid := s.uarid.powerUp
             power := { r.power with coefficients := s.power.coefficients, lastTele := s.ticks, idleFrom := s.ticks }
             module := { r.module with slotId := s.module.slotId, eid := 0x60 + s.module.slotId.setWidth 8
                                       inlet := s.module.inlet, vin := s.module.vin, current := s.module.current
                                       pwrEn := s.module.pwrEn, pwrGood := s.module.pwrGood } }
  s'.reportLost s.pregs

/-- PERST_N asserted while fatal is 1 (R487). -/
def State.fullReset (s : State) : State := if s.module.fatal then s.powerUp else s

/-- PERST_N_FULL_RESET (R487). -/
def execPerstNFullReset (s : State) : Answer := .next s.fullReset

/-- A job stopped without a record (R277, R486): its cores are free, its dirty pairs are discarded, and the devices that
hold its identities are told. -/
def State.dropJob (s : State) (j : Job) : State :=
  let cs := s.coresOf j
  let s := s.discardJob j
  let s := cs.foldl (fun s c =>
    ((s.core c).issued.foldl State.release s).modCore c fun k => { k.halt with job := 0, check := none }) s
  let s : State := { s with held := s.held.filter fun i => !heldOn cs i }
  j.syncDevs.foldl (fun s d =>
    (s.request ⟨j.num, j.ring, 0, 0, 0⟩ (BitVec.ofNat 12 d) 0 (.jobend (BitVec.ofNat 24 j.num))).2) s

/-- Whether a register belongs to the HQ block. -/
def hqReg (off : Nat) : Bool := decide (off / 0x100000 = 1)

/-- Function Level Reset, and PERST_N while fatal is 0 (R486): the host-facing state alone. -/
def State.hostReset (s : State) : State :=
  let js := s.jobs
  let s := js.foldl State.dropJob { s with jobs := [] }
  { s with rings := [], eq := State.reset.eq, vectors := [], regs := Sparse.drop hqReg s.regs
           latches := Sparse.drop hqReg s.latches, windows := [], pageReqs := []
           requests := s.requests.filter fun r => r.job = 0 ∨ r.isJobend
           power := { s.power with idleFrom := s.ticks
                                   clusters := s.power.clusters.map fun q => { q with idleSince := s.ticks } }
           module := { s.module with d3 := false, priEnabled := Module.reset.priEnabled, priFailed := false, autoSpeedDis := false
                                     autoWidthDis := false } }

/-- FUNCTION_LEVEL_RESET (R486). With fatal set, PERST_N resets the whole device, and an FLR finds the device stopped. -/
def execFunctionLevelReset (s : State) : Answer := .next (if s.module.fatal then s else s.hostReset)

/-- PERST_N_DEASSERT (R485): the link trains once boot step 4 is complete. -/
def execPerstNDeassert (s : State) : Answer :=
  .next (if s.module.perstN ∨ !s.module.pwrGood then s
    else
      let s : State := { s with module := { s.module with perstN := true } }
      if s.uarid.booted then s.trainLink else s)

/-! ### Power input -/

/-- PWR_EN_ASSERT (R497): the rails come up, PWR_GOOD follows, and boot may begin. -/
def execPwrEnAssert (s : State) : Answer :=
  .next (if s.module.pwrEn then s
    else
      let s : State := { s with module := { s.module with pwrEn := true, pwrGood := true } }
      s.powerUp)

/-- PWR_EN_DEASSERT (R497): the module stops as at a loss of input, and its rails discharge. -/
def execPwrEnDeassert (s : State) : Answer :=
  .next (if !s.module.pwrEn then s
    else
      let s := s.fatalFrom .input
      let s : State := { s with module := { s.module with pwrEn := false, pwrGood := false } }
      s.powerUp)

/-- INPUT_OUT_OF_RANGE for a time in µs (R498): the module rides through 500 µs. -/
def execInputOutOfRange (us : Nat) (s : State) : Answer :=
  .next (if us ≤ 500 then s
    else
      let s := s.fatalFrom .input
      { s with module := { s.module with pwrGood := false } })

/-! ### D3hot and D0 -/

/-- D3HOT (R488): no descriptor is fetched; with every job reported it acts as a DORMANT request. -/
def execD3hot (s : State) : Answer :=
  let s : State := { s with module := { s.module with d3 := true } }
  .next (if s.jobs = [] then s.reqDormant else s)

/-- D0 (R488): a wake source. -/
def execD0 (s : State) : Answer :=
  let s : State := { s with module := { s.module with d3 := false } }
  .next s.askWake

/-! ### The host link -/

/-- The link has retrained (R484): one narrower than ×16, or slower than at boot, is reported DEGRADED. -/
def State.linkOutcome (s : State) (speed width : Nat) (failed : BitVec 16) : State :=
  let bad := decide (width < 16 ∨ speed < s.module.bootSpeed)
  let s : State := { s with module := { s.module with linkSpeed := speed, linkWidth := width, failed := failed, flit := decide (6 ≤ speed)
                                                      degraded := decide (width < s.module.bootWidth ∨ speed < s.module.bootSpeed)
                                                      low := false } }
  let s := (s.count Reg.GLB_PCIE_RETRAINS 1).emit (.linkTrain speed width)
  if !bad then s
  else
    ((s.linkRecord speed width failed).count Reg.GLB_PCIE_DEGRADES 1).pldmEvent pldmPcie

/-- PCIE_LINK_DEGRADE (R484). A link that has not trained has nothing to lose. -/
def execPcieLinkDegrade (speed : BitVec 3) (width : BitVec 5) (failed : BitVec 16) (s : State) : Answer :=
  .next (if s.module.linkSpeed = 0 ∨ (s.module.linkWidth ≤ width.toNat ∧ s.module.linkSpeed ≤ speed.toNat) then s
    else s.linkOutcome speed.toNat width.toNat failed)

/-- RETRAIN_LINK (R484): every lane is trained again. -/
def execRetrainLink (speed : BitVec 3) (width : BitVec 5) (failed : BitVec 16) (s : State) : Answer :=
  .next (if s.module.linkSpeed = 0 then s else s.linkOutcome speed.toNat width.toNat failed)

/-! ### The sideband -/

/-- EID_ASSIGNMENT (R491). -/
def execEidAssignment (eid : Byte) (s : State) : Answer := .next { s with module := { s.module with eid := eid } }

/-- The module's own sensors, read anew: no command brings these readings, so they are free values. -/
def State.refresh (s : State) : State :=
  let (b, s) := s.free
  { s with module := { s.module with vin := bits b 0 16, current := bits b 16 16, inlet := bits b 32 8 } }

/-- The value of a PLDM sensor (R492), rounded down to its unit. -/
def State.sensor (s : State) (n : Nat) : Option Nat :=
  let p := s.power
  match n with
  | 1 => some (p.pmeas / 4)
  | 2 => some (s.module.vin / 100)
  | 3 => some s.module.current
  | 4 => some (hottest (p.dies.map (·.hottest)))
  | 5 => some p.baseTemp
  | 6 => some p.stackTemp
  | 7 => some s.module.inlet
  | 8 => some (s.capEff.1 / 4)
  | 9 => some ((s.reg Reg.HLS_ENERGY).toNat / 1000)
  | 10 => some (if s.module.fatal then 3 else p.state.code)
  | _ => none

/-- NUMERIC_SENSOR_READ (R492). -/
def execNumericSensorRead (sensor : BitVec 8) (s : State) : Answer :=
  let s := if sensor = 2 ∨ sensor = 3 ∨ sensor = 7 then s.refresh else s
  .next ((s.sensor sensor.toNat).elim s fun v => s.emit (.sensor v))

end Sys2Proof.Machine
end

