-- ==== Sys2Proof/Machine/Views.lean ====
section
/-!
DEFINITION. What the registers of BAR0 read as (R12, R504, R510): the stored value, or the view of other state that the
field map of the register's chapter gives (R58, R94, R156, R254, R293, R317, R341, R378, R399, R431, R449, R478, R501).
-/

namespace Sys2Proof.Machine

/-- Fields of a register: (value, lowest bit, width). -/
def fields (l : List (Nat × Nat × Nat)) : Word64 := BitVec.ofNat 64 ((l.map fun f => place f.1 f.2.1 f.2.2).sum)

/-- The bits of a list of truth values, the first one bit 0. -/
def flags (l : List Bool) : Word64 := BitVec.ofNat 64 (ofBits l)

/-- Eight bytes of a list, from byte 8·k on. -/
def octet (bs : List Byte) (k : Nat) : Word64 := BitVec.ofNat 64 (ofBytes ((bs.drop (8 * k)).take 8))

/-! ### GLB -/

/-- The speed, width and state of the host link (R501). -/
def Module.linkStat (m : Module) : Word64 :=
  fields [(m.linkSpeed, 0, 3), (m.linkWidth, 3, 5), (m.low.toNat, 8, 1), (m.flit.toNat, 9, 1), (m.degraded.toNat, 10, 1),
          (m.failed.toNat, 16, 16)]

/-- The views of the GLB block (R341, R501). -/
def State.viewGlb (s : State) (off : Nat) : Word64 :=
  if off = 0x6008 then fields [(s.journalUsed, 0, 17), (s.identities.length / 16, 17, 15)]
  else if off = 0x6020 then flags ((List.range 64).map fun g => (s.pageReqs.any fun r => decide (r.group = g) && !r.answered))
  else if off = 0x7000 then s.module.linkStat
  else if off = 0x7004 then fields [(s.module.slotId.toNat, 0, 3), (s.module.inlet, 8, 8), (s.module.vin, 16, 16)]
  else 0

/-! ### HQ -/

/-- HQ_SQ_STAT(n) (R293). -/
def State.ringStat (s : State) (n : Nat) : Word64 :=
  let r := s.ring n
  let js := s.jobsOf n
  fields [((decide (js = [])).toNat, 0, 1), (r.stopped.toNat, 1, 1), (r.errDoorbell.toNat, 2, 1), (r.errFetch.toNat, 3, 1),
          (r.errCqHead.toNat, 4, 1), (r.phase.toNat, 5, 1), (r.saveFail.toNat, 6, 1),
          (min 255 (js.filter fun j => decide (j.num ≠ 0)).length, 8, 8)]

/-- The views of ring n, at an offset of its registers (R293). -/
def State.viewRing (s : State) (n o : Nat) : Word64 :=
  let r := s.ring n
  if o = 0x00 then setBit (s.reg (ringReg n 0)) 1 r.aborting
  else if o = 0x04 then s.ringStat n
  else if o = 0x20 then fields [(r.sqHead, 0, 16), (r.sqTail, 16, 16)]
  else if o = 0x24 then fields [(r.cqHead, 0, 16), (r.cqTail, 16, 16)]
  else if o = 0x28 then fields [(r.mbox.length, 0, 4), (r.underrun.toNat, 4, 1), (r.overflow.toNat, 5, 1)]
  else if o = 0x30 then r.mboxValue
  else s.reg (ringReg n o)

/-- The views of the HQ block. -/
def State.viewHq (s : State) (off : Nat) : Word64 :=
  if off = Reg.HQ_EQ_PTR then fields [(s.eq.head, 0, 16), (s.eq.tail, 16, 16)]
  else if 0x00101000 ≤ off ∧ off < 0x00103000 then s.viewRing ((off - 0x00101000) / 0x100) ((off - 0x00101000) % 0x100)
  else s.reg off

/-! ### HLS -/

/-- HLS_STAT (R431). -/
def Power.stat (p : Power) : Word64 :=
  fields [(p.distrust.toNat, 0, 1), (p.recalTries, 1, 2), (ofBits (p.dies.map (·.droop)), 3, 4),
          ((decide (p.thermalCap < 3000)).toNat, 7, 1), (ofBits (p.dies.map (·.crit)), 8, 4), (p.g, 12, 3), (p.beta, 15, 6)]

/-- The views of the HLS block (R431). -/
def State.viewHls (s : State) (off : Nat) : Word64 :=
  let p := s.power
  let o := off - 0x00200000
  if o = 0x00 then setBit (s.reg off) 5 p.recal
  else if o = 0x04 then fields [(if p.waking then 3 else p.state.code, 2, 2), (p.reqRefused.toNat, 4, 1)]
  else if o = 0x10 then fields [(s.capEff.1, 0, 12), (s.capEff.2, 12, 2)]
  else if o = 0x20 then p.stat
  else if o = 0x24 then fields [(hottest (p.dies.map (·.hottest)), 0, 8), (p.baseTemp, 8, 8), (p.stackTemp, 16, 8)]
  else if o = 0x28 then fields [(p.pest, 0, 16), (p.pmeas, 16, 16)]
  else if 0x30 ≤ o ∧ o < 0x40 then
    fields ((List.range 8).map fun j =>
      let q := s.cluster (8 * ((o - 0x30) / 4) + j)
      (q.op.toNat + 8 * q.stopped.toNat, 4 * j, 4))
  else if o = 0x108 then
    fields [(p.pool.cap, 0, 12), (p.pool.complete.toNat, 12, 1), (p.pool.onFloor.toNat, 13, 1), (p.pool.conflict.toNat, 14, 1),
            (p.pool.err.toNat, 15, 1)]
  else s.reg off

/-! ### CFG -/

/-- CFG_PEER_STAT(p) (R392, R399). -/
def Port.peerStat (q : Port) : Word64 :=
  let st := if !q.heard then 0 else if 3 ≤ q.beatAge then 2 else if q.outcome = agree then 1 else 3
  fields [(st, 0, 2), (q.outcome, 2, 3)]

/-- CFG_PREG_WEAR(i) (R396, R399). -/
def Preg.wearStat (p : Preg) : Word64 :=
  fields [(min p.wear 100000, 0, 17), (p.worn.toNat, 17, 1), (p.programming.isSome.toNat, 18, 1),
          ((decide (90000 ≤ p.wear)).toNat, 19, 1)]

/-- The views of the CFG block (R393, R399): SECRET registers read 0. -/
def State.viewCfg (s : State) (off : Nat) : Word64 :=
  let c := s.cfg
  let o := off - 0x00300000
  let num (e : Option Epoch) : Nat := e.elim 0 (·.num.toNat)
  let tag (e : Option Epoch) : Nat := e.elim 0 (·.tag.toNat)
  if o = 0x00 then BitVec.ofNat 64 c.cur.toNat
  else if o = 0x04 then BitVec.ofNat 64 (num c.staged)
  else if o = 0x08 then BitVec.ofNat 64 (num c.retiring)
  else if o = 0x0C then BitVec.ofNat 64 c.tag.toNat
  else if o = 0x10 then BitVec.ofNat 64 (tag c.staged)
  else if o = 0x14 then BitVec.ofNat 64 (tag c.retiring)
  else if o = 0x1C then fields [(c.status, 4, 4), (c.stageList.length, 8, 9)]
  else if o = 0x38 then BitVec.ofNat 64 c.armTime
  else if 0x40 ≤ o ∧ o < 0x60 then BitVec.ofNat 64 (bits c.digest (8 * (o - 0x40)) 32)
  else if 0x60 ≤ o ∧ o < 0x78 then (s.port ((o - 0x60) / 4)).peerStat
  else if o = 0xD8 then flags ((List.range 64).map fun i => (s.preg i).worn)
  else if 0x1000 ≤ o ∧ o < 0x1200 then
    let i := (o - 0x1000) / 8
    if 56 ≤ i then 0 else (s.preg i).shadow
  else if 0x1200 ≤ o ∧ o < 0x1300 then (s.preg ((o - 0x1200) / 4)).wearStat
  else s.reg off

/-! ### NRN -/

/-- Codes of port states (R378). -/
def PortState.code : PortState → Nat
  | .down => 0
  | .training => 1
  | .up => 2
  | .low => 3
  | .retrain => 4

/-- NRN_PORT_STAT (R378). -/
def Port.stat (q : Port) : Word64 :=
  fields [(q.state.code, 0, 3), (popCount 4 q.active.toNat, 3, 3), (q.active.toNat, 6, 4), (q.withdrawn.toNat, 10, 4),
          (q.peer.toNat, 14, 12), (min 15 q.beatAge, 26, 4)]

/-- NRN_TIME_STAT (R378). -/
def State.timeStat (s : State) : Word64 :=
  fields [(s.time.state.code, 0, 2), (s.time.parent.getD 7, 2, 3), (s.time.depth, 5, 5), (s.timeBound, 10, 8)]

/-- The views of the NRN block (R378). -/
def State.viewNrn (s : State) (off : Nat) : Word64 :=
  let o := off - 0x00400000
  if o < 0x60000 then
    let q := s.port (o / 0x10000)
    if o % 0x10000 = 0 then setBit (s.reg off) 7 q.retrainAsked else if o % 0x10000 = 4 then q.stat else s.reg off
  else if o = 0x6000C then s.timeStat
  else if o = 0x60018 then BitVec.ofNat 64 s.deviceTime
  else if o = 0x60020 then BitVec.ofNat 64 (unsigned 64 s.time.theta)
  else s.reg off

/-! ### SHM, SYN, COL, UAR -/

/-- The 32 banks, or windows, from n on as bits. -/
def bits32 (n : Nat) (f : Nat → Bool) : Word64 := flags ((List.range 32).map fun i => f (n + i))

/-- The views of the SHM block (R254): banks 60 to 63 are always powered. -/
def State.viewShm (s : State) (off : Nat) : Word64 :=
  let o := off - 0x00600000
  if o = 0x10 then bits32 0 s.bankReady
  else if o = 0x14 then bits32 32 fun b => decide (60 ≤ b) || s.bankReady b
  else if o = 0x30 ∨ o = 0x34 then bits32 (8 * (o - 0x30)) fun w => s.windows.any fun e => decide (e.1 = w)
  else s.reg off

/-- UAR_STAT (R478). -/
def State.uarStat (s : State) : Word64 :=
  let u := s.uarid
  fields [(u.life, 0, 2), (u.tampered.toNat, 2, 1), (s.keyHeld.toNat, 3, 1), (u.activeSlot.toNat, 4, 1), (u.trial.toNat, 5, 1),
          (u.rollback, 6, 7), (u.sessions.length, 13, 3), (u.vendorRevoke.toNat, 16, 4), (u.ready.toNat, 20, 1)]

/-- UAR_FW_STAT (R478). -/
def Uarid.fwStat (u : Uarid) : Word64 :=
  fields [(u.fwStatus, 0, 4), (u.prepared.isSome.toNat, 4, 1), ((u.prepared.getD false).toNat, 5, 1), (u.validA.toNat, 6, 1),
          (u.validB.toNat, 7, 1), (bundleSvn u.slotA, 8, 7), (bundleSvn u.slotB, 15, 7), (u.progress, 22, 7)]

/-- The views of the UAR block (R478). -/
def State.viewUar (s : State) (off : Nat) : Word64 :=
  let u := s.uarid
  let o := off - 0x00A00000
  if o = 0x00 then s.uarStat
  else if o = 0x08 then u.fwStat
  else if o = 0x14 then setBit (s.reg off) 14 u.busy
  else if o = 0x20 then u.serial
  else if 0x100 ≤ o ∧ o < 0x1E0 then octet (u.meas.getD ((o - 0x100) / 0x20) []) (o % 0x20 / 8)
  else if 0x200 ≤ o ∧ o < 0x2E0 then octet (u.measPend.getD ((o - 0x200) / 0x20) []) (o % 0x20 / 8)
  else if 0x1000 ≤ o ∧ o < 0x3000 then BitVec.ofNat 64 (ofBytes (Sparse.getList 0 u.mbox (o - 0x1000) 8))
  else s.reg off

/-- The views of the SMC, SHM, SYN, COL, PLX and UAR blocks. A read of SMC_PHYS_DATA is physRead's. -/
def State.viewBase (s : State) (off : Nat) : Word64 :=
  match off / 0x100000 with
  | 6 => s.viewShm off
  | 7 => if off < 0x00710000 then s.ctr ((off - 0x00700000) / 8) else s.reg off
  | 8 => if off = 0x00800004 then fields [(s.collim.due.toNat, 7, 1), (s.collim.position, 8, 16)] else s.reg off
  | 10 => s.viewUar off
  | _ => s.reg off

/-! ### The per-core blocks -/

/-- Codes of facet states (R58). -/
def FacetState.code : FacetState → Nat
  | .empty => 0
  | .loaded => 1
  | .stale => 2
  | .faulty => 3

/-- The base and the bound of each space of a task record, in the order of CORE_TASK_BASE and _BOUND (R254). -/
def TaskRec.words (t : TaskRec) : List Nat :=
  [t.coreBase, t.coreBound, t.shBase, t.shBound, t.stBase, t.stBound, t.hoBase, t.hoBound]

/-- The state that CORE_SEQ_STAT shows (R317): 3 while a pre-empted job keeps the core for itself. -/
def State.seqCode (s : State) (c : Nat) : Nat :=
  let k := s.core c
  if k.job = 0 then (if s.jobs.any fun j => decide (j.phase = .preempted) && j.cores.contains c then 3 else 0)
  else
    match k.seqState with
    | .idle => 0
    | .running => 1
    | .waiting => 2
    | .preempted => 3

/-- The views of core c, at an offset of its block (R58, R94, R156, R254, R317). -/
def State.viewCore (s : State) (c o : Nat) : Word64 :=
  let k := s.core c
  if o = 0x404 ∨ o = 0x408 then fields ((List.range 16).map fun i => ((k.facet (4 * (o - 0x404) + i)).state.code, 2 * i, 2))
  else if o = 0x40C then flags ((List.range 32).map fun f => decide ((k.facet f).state ≠ .faulty))
  else if 0x410 ≤ o ∧ o < 0x420 then fields ((List.range 8).map fun i => ((k.facet (2 * (o - 0x410) + i)).fmt.toNat, 4 * i, 4))
  else if 0x500 ≤ o ∧ o < 0x520 then BitVec.ofNat 64 (bits k.live (8 * (o - 0x500)) 32)
  else if o = 0x600 then BitVec.ofNat 64 k.strikes.toNat
  else if 0x780 ≤ o ∧ o < 0x7C0 then BitVec.ofNat 64 (k.task.words.getD ((o - 0x780) / 8) 0)
  else if o = 0x800 then fields [(s.seqCode c, 0, 2), (k.nextSeq, 16, 16)]
  else if o = 0x808 then fields [(k.x, 0, 32), (k.xExhausted.toNat, 32, 1), (k.xAlready.toNat, 33, 1)]
  else s.reg (coreReg c o)

/-- What the register that starts at off reads as. -/
def State.view (s : State) (off : Nat) : Word64 :=
  match coreOffset off with
  | some (c, o) => s.viewCore c o
  | none =>
    match off / 0x100000 with
    | 0 => if (regRow off).elim true (·.derived) then s.viewGlb off else s.reg off
    | 1 => s.viewHq off
    | 2 => s.viewHls off
    | 3 => s.viewCfg off
    | 4 => s.viewNrn off
    | _ => s.viewBase off

end Sys2Proof.Machine
end

