-- ==== Sys2Proof/Machine/Registers.lean ====
section
/-!
DEFINITION. Host accesses to BAR0: which accesses the device takes (R504, R505), reads by halves with their latches (R59),
writes by field type (R12) with what each written register starts, counter clears (R508), and accesses to per-core blocks
that wait for a clock or a wake (R507).
-/

namespace Sys2Proof.Machine

/-! ### Which register an access reaches -/

/-- The register that an aligned 32-bit access at off falls in: where it starts, and whether it has 64 bits (R505). -/
def regOf (off : Nat) : Option (Nat × Bool) :=
  match regRow off with
  | some r => some (off, r.wide)
  | none => if off % 8 = 4 then ((regRow (off - 4)).filter (·.wide)).map fun _ => (off - 4, true) else none

/-- Whether an offset lies in UAR_MBOX, a register of 8 KiB (R478). -/
def inMbox (off : Nat) : Bool := decide (0x00A01000 ≤ off ∧ off < 0x00A03000)

/-- The ring whose mailbox register starts at off. -/
def mboxRing (off : Nat) : Option Nat :=
  if 0x00101000 ≤ off ∧ off < 0x00103000 ∧ off % 0x100 = 0x30 then some ((off - 0x00101000) / 0x100) else none

/-- An access to a per-core block (R408, R507): in DOZE and DORMANT it asks for the wake, and it is held until the device
is awake and the clock of the core's cluster runs. -/
def State.atCore (s : State) (i : Instr) (off : Nat) (f : State → State) : State :=
  match coreOffset off with
  | none => f s
  | some (c, _) => if s.power.state ≠ .run then s.askWake.hold i else if s.clockStopped c then s.hold i else f s

/-! ### Reads -/

/-- A read of a 64-bit register, whole or by half, with what the read does (R59, R285, R289, R341). -/
def State.readReg (s : State) (off : Nat) (w : ReadWidth) : State :=
  if off = Reg.SMC_PHYS_DATA then s.physRead w
  else if off = Reg.HQ_EQ_LOST then s.readWide off w (s.reg off) fun s => s.setReg off 0
  else
    match mboxRing off with
    | some n => s.readWide off w (s.ring n).mboxValue (·.takeMbox n)
    | none => s.readWide off w (s.view off) id

/-- A 32-bit read at an aligned offset (R59, R504). -/
def State.read32 (s : State) (off : Nat) : State :=
  match regOf off with
  | none => s.answer 0
  | some (_, false) => s.answer (s.view off)
  | some (r, true) =>
    if inMbox r then s.answer (BitVec.ofNat 64 (bits (s.view r) (8 * (off - r)) 32))
    else s.readReg r (if off = r then .low else .high)

/-- The number that a read returned. -/
def ReadData.num : ReadData → Nat
  | .value v => v.toNat
  | _ => 0

/-- A 64-bit read at an aligned offset: of a 64-bit register, or as two 32-bit reads, the lower first (R505). -/
def State.read64 (s : State) (off : Nat) : State :=
  match regRow off with
  | some ⟨_, _, _, true, _, _, _, _⟩ => s.readReg off .whole
  | _ =>
    let a := s.read32 off
    let b := a.read32 (off + 4)
    b.answer (BitVec.ofNat 64 (a.hostRead.num + b.hostRead.num * 2 ^ 32))

/-- A read of BAR0 (R505): another size or alignment reads 0. -/
def State.barRead0 (s : State) (off size : Nat) : State :=
  if size = 4 ∧ off % 4 = 0 then s.read32 off else if size = 8 ∧ off % 8 = 0 then s.read64 off else s.answer 0

/-- COUNTER_HALF_READ (R59, R507): a 32-bit read. -/
def execCounterHalfRead (off : BitVec 26) (s : State) : Answer :=
  .next (s.atCore (.counterHalfRead off) off.toNat fun s => s.barRead0 off.toNat 4)

/-! ### Counter clears -/

/-- The CNT_CLR registers of the per-core blocks, each with its first and its last counter (R58, R94, R156, R254, R317). -/
def coreClears : List (Nat × Nat × Nat) :=
  [(0x428, 0x440, 0x488), (0x528, 0x540, 0x570), (0x608, 0x640, 0x650), (0x700, 0x740, 0x760), (0x804, 0x840, 0x860)]

/-- The other CNT_CLR registers but the ports', each with its first and its last counter. -/
def deviceClears : List (Nat × Nat × Nat) :=
  [(0x2008, 0x2040, 0x2070), (0x3008, 0x8000, 0x8FC0), (0x400C, 0x4040, 0x4040), (0x500C, 0x5040, 0x5040),
   (0x6014, 0x6040, 0x6068), (0x7008, 0x7040, 0x7048), (0x0020002C, 0x00200048, 0x00200070), (0x0030007C, 0x003000C0, 0x003000D0),
   (0x00460010, 0x00460040, 0x00460068), (0x00500004, 0x00500040, 0x00500050), (0x00600028, 0x00600040, 0x00600070),
   (0x00710010, 0x00710040, 0x00710068), (0x00800014, 0x00800040, 0x00800068), (0x0090000C, 0x00900040, 0x009000F8),
   (0x00A00018, 0x00A00040, 0x00A00058)]

/-- The counters that the CNT_CLR register at off clears: the first and the last. -/
def clearSpan (off : Nat) : Option (Nat × Nat) :=
  match coreOffset off with
  | some (c, o) => (coreClears.find? fun e => decide (e.1 = o)).map fun e => (coreReg c e.2.1, coreReg c e.2.2)
  | none =>
    if 0x00400000 ≤ off ∧ off < 0x00460000 ∧ off % 0x10000 = 0x0C then some (off - 0x0C + 0x40, off - 0x0C + 0x98)
    else (deviceClears.find? fun e => decide (e.1 = off)).map (·.2)

/-- A write of v to a CNT_CLR register (R508): latched high halves stay. -/
def State.clearCounters (s : State) (off : Nat) (v : Word64) : State :=
  match clearSpan off with
  | some (lo, hi) => if bit v 0 then { s with regs := Sparse.drop (fun k => decide (lo ≤ k ∧ k ≤ hi)) s.regs } else s
  | none => s

/-- CNT_CLR (R508). -/
def execCntClr (off : BitVec 26) (v : Word32) (s : State) : Answer :=
  .next (s.atCore (.cntClr off v) off.toNat fun s => s.clearCounters off.toNat (v.setWidth 64))

/-! ### Writes of stored fields -/

/-- A write of size bytes at byte at_ of the register at off, by its fields' types: RW fields take it, clamped as their map
says, ones clear W1C bits, other fields stay (R12, R505). -/
def State.store (s : State) (off at_ size : Nat) (v : Word64) : State :=
  let old := s.reg off
  let cleared := mergeAt 0 at_ size v &&& BitVec.ofNat 64 ((regRow off).elim 0 (·.w1c))
  let kept := old &&& ~~~(BitVec.ofNat 64 (rwMask off)) &&& ~~~cleared
  s.setReg off (kept ||| normalReg off (mergeAt old at_ size v))

/-- Whether R256 keeps the register at off as it is: the ring, or the event ring, that it sets up is in use. -/
def State.ringLocked (s : State) (off : Nat) : Bool :=
  if off = Reg.HQ_EQ_BASE then s.eqEnabled
  else if 0x00101000 ≤ off ∧ off < 0x00103000 then
    s.ringEn ((off - 0x00101000) / 0x100) && decide ((off - 0x00101000) % 0x100 ≠ 0x0C)
  else false

/-- A write of stored fields: an epoch register's is a direct write (R388), and those of a ring in use are ignored (R256). -/
def State.writeFields (s : State) (off at_ size : Nat) (v : Word64) : State :=
  if epochOffsets.contains off then s.directWrite off at_ size v
  else if s.ringLocked off then s
  else s.store off at_ size v

/-! ### Rings -/

/-- HQ_SQ_CTRL(n) (R256, R277, R287, R293): while en is 1, only en, abort and notice take the write. -/
def State.writeSqCtrl (s : State) (n : Nat) (v : Word64) : State :=
  let off := Reg.HQ_SQ_CTRL n
  let new := if s.ringEn n then setBits (s.reg off) 10 2 (bits v 10 2) else setBits v 0 1 0
  let s := s.setReg off (normalReg off new)
  let s := if bit v 0 then s.enableRing n else s.disableRing n
  if bit v 1 then s.abortRing n false else s

/-- The W1C bits of HQ_SQ_STAT(n) (R293). -/
def Ring.clearStat (r : Ring) (v : Word64) : Ring :=
  { r with errDoorbell := r.errDoorbell && !bit v 2, errFetch := r.errFetch && !bit v 3, errCqHead := r.errCqHead && !bit v 4
           saveFail := r.saveFail && !bit v 6 }

/-- The W1C bits of HQ_MBOX_STAT(n) (R293). -/
def Ring.clearMbox (r : Ring) (v : Word64) : Ring :=
  { r with underrun := r.underrun && !bit v 4, overflow := r.overflow && !bit v 5 }

/-- HQ_EQ_CTRL (R256, R289, R456): while en is 1, only en and notice take the write. -/
def State.writeEqCtrl (s : State) (v : Word64) : State :=
  let off := Reg.HQ_EQ_CTRL
  let new := if s.eqEnabled then setBits (s.reg off) 6 1 (bits v 6 1) else setBits v 0 1 0
  ((s.setReg off (normalReg off new)).enableEvents (bit v 0)).tellFallback

/-- A 32-bit register of the HQ block. -/
def State.writeHq (s : State) (off : Nat) (v : Word64) : State :=
  if off = Reg.HQ_EQ_CTRL then s.writeEqCtrl v
  else if off = Reg.HQ_EQ_PTR then s.releaseEvents (bits v 0 16)
  else
    let n := (off - 0x00101000) / 0x100
    let o := (off - 0x00101000) % 0x100
    if o = 0x00 then s.writeSqCtrl n v
    else if o = 0x04 then s.setRing n ((s.ring n).clearStat v)
    else if o = 0x28 then s.setRing n ((s.ring n).clearMbox v)
    else s.writeFields off 0 4 v

/-! ### The other blocks -/

/-- HLS_STATE_CTRL (R406 to R408, R431): req_refused is cleared before the request is judged. -/
def State.writeStateCtrl (s : State) (v : Word64) : State :=
  let s := if bit v 4 then s.modPower fun p => { p with reqRefused := false } else s
  match bits v 0 2 with
  | 1 => s.reqDoze
  | 2 => s.reqDormant
  | 3 => s.askWake
  | _ => s

/-- A 32-bit register of the HLS block. -/
def State.writeHls (s : State) (off : Nat) (v : Word64) : State :=
  if off = Reg.HLS_STATE_CTRL then s.writeStateCtrl v
  else if off = Reg.HLS_CTRL ∧ bit v 5 then (s.writeFields off 0 4 v).requestRecal
  else s.writeFields off 0 4 v

/-- A 32-bit register of the CFG block: op of CFG_STAGE_CTRL (R385). -/
def State.writeCfg (s : State) (off : Nat) (v : Word64) : State :=
  if off = Reg.CFG_STAGE_CTRL then
    match bits v 0 3 with
    | 1 => s.stageClear
    | 2 => s.stage
    | 3 => s.arm
    | 4 => s.cancel
    | _ => s
  else s.writeFields off 0 4 v

/-- en of a port becomes 0: the port no longer runs (R378). -/
def State.disablePort (s : State) (p : Nat) : State :=
  let s := s.setFld (Reg.NRN_PORT_CTRL p) 0 1 0
  if (s.port p).state = .down then s else s.portDown p 0

/-- NRN_PORT_CTRL (R345, R352, R378). -/
def State.writePortCtrl (s : State) (p : Nat) (v : Word64) : State :=
  let off := Reg.NRN_PORT_CTRL p
  let was := s.portEn p
  let s := s.setReg off (normalReg off (setBits v 0 1 was.toNat))
  if bit v 0 && !was then
    let (h, s) := s.lanesPassing
    s.portTrain p h
  else if was && !bit v 0 then s.disablePort p
  else if was && bit v 7 then
    let (h, s) := s.lanesPassing
    s.retrainPort p h
  else s

/-- Whether any port is enabled. -/
def State.anyEnabled (s : State) : Bool := (List.range 6).any s.portEn

/-- A 32-bit register of the NRN block (R368, R370, R378). -/
def State.writeNrn (s : State) (off : Nat) (v : Word64) : State :=
  if off < 0x00460000 ∧ off % 0x10000 = 0 then s.writePortCtrl ((off - 0x00400000) / 0x10000) v
  else if off = Reg.NRN_TOPO ∧ s.anyEnabled then s
  else if off = Reg.NRN_TIME_CTRL then
    (s.store off 0 4 (setBits v 0 1 (s.fld off 0 1))).setMaster (bit v 0)
  else if off = Reg.NRN_ROUTE_CTRL ∧ bit v 15 then (s.writeFields off 0 4 v).flushStaging
  else s.writeFields off 0 4 v

/-- SHM_PWR_MODEn (R237): banks that are off and come to mode ON wake. -/
def State.writePwrMode (s : State) (off : Nat) (v : Word64) : State :=
  let n := (off - Reg.SHM_PWR_MODE 0) / 4
  ((List.range 16).map (16 * n + ·)).foldl (fun s b => if b < 60 then s.wakeIfOn b else s) (s.store off 0 4 v)

/-- UAR_FW_CTRL (R457 to R459, R478). -/
def State.writeFwCtrl (s : State) (v : Word64) : State :=
  match bits v 0 3 with
  | 1 => s.fwWrite (bit v 3)
  | 2 => s.fwPrepare (bit v 3)
  | 3 => s.fwUnprepare
  | 4 => s.fwCommit
  | _ => s

/-- UAR_MBOX_CTRL (R478). -/
def State.writeMboxCtrl (s : State) (v : Word64) : State :=
  let s := s.store Reg.UAR_MBOX_CTRL 0 4 (setBits v 0 13 (s.fld Reg.UAR_MBOX_CTRL 0 13))
  if bit v 13 then s.mboxGo (bits v 0 13) else s.setFld Reg.UAR_MBOX_CTRL 0 13 (bits v 0 13)

/-- A 32-bit register of the SMC, SHM, SYN, COL, PLX and UAR blocks. -/
def State.writeBase (s : State) (off : Nat) (v : Word64) : State :=
  if off = Reg.SMC_TLB_INV then (if bit v 0 then { s with tlb := [] } else s)
  else if Reg.SHM_PWR_MODE 0 ≤ off ∧ off ≤ Reg.SHM_PWR_MODE 3 then s.writePwrMode off v
  else if off = 0x00800008 then s.requal (v.setWidth 32)
  else if off = 0x00A00004 then s.writeFwCtrl v
  else if off = Reg.UAR_MBOX_CTRL then s.writeMboxCtrl v
  else s.writeFields off 0 4 v

/-- A write of all of a 32-bit register. -/
def State.writeReg (s : State) (off : Nat) (v : Word64) : State :=
  if (clearSpan off).isSome then s.clearCounters off v
  else if (coreOffset off).isSome then s.store off 0 4 v
  else
    match off / 0x100000 with
    | 0 => if off = 0x600C then s.answerPage (bits v 0 6) (bit v 8) else s.writeFields off 0 4 v
    | 1 => s.writeHq off v
    | 2 => s.writeHls off v
    | 3 => s.writeCfg off v
    | 4 => s.writeNrn off v
    | _ => s.writeBase off v

/-! ### 64-bit registers -/

/-- Bytes written into the mailbox of the Uarid (R478). -/
def State.writeMbox (s : State) (off size : Nat) (v : Word64) : State :=
  { s with uarid := { s.uarid with mbox := Sparse.setList 0 s.uarid.mbox (off - 0x00A01000) (toBytes size v.toNat) } }

/-- A write of all of a 64-bit register (R309, R341, R385, R393). -/
def State.writeWide (s : State) (off : Nat) (v : Word64) : State :=
  if inMbox off then s.writeMbox off 8 v
  else if off = Reg.CFG_STAGE_VALUE then s.stageValue v
  else if off = Reg.SMC_PHYS_DATA then s.physWrite v
  else if off = 0x00710000 then s.hostAdd v
  else if 0x00700000 ≤ off ∧ off < 0x00710000 then s.ctrOp .set ((off - 0x00700000) / 8) v 0
  else
    match pregAt off with
    | some i => s.hostPreg i v
    | none => s.writeFields off 0 8 v

/-- A 32-bit write to one half of the 64-bit register r (R505): discarded where a write of it acts beyond storing a value;
every register that is a view of other state is of that kind, or read only. -/
def State.writeHalf (s : State) (r off : Nat) (v : Word64) : State :=
  if inMbox r then s.writeMbox off 4 v
  else if (regRow r).elim true (·.derived) ∨ (pregAt r).isSome then s
  else s.writeFields r (off - r) 4 v

/-- A 32-bit write at an aligned offset (R504, R505). -/
def State.write32 (s : State) (off : Nat) (v : Word64) : State :=
  match regOf off with
  | none => s
  | some (_, false) => s.writeReg off v
  | some (r, true) => s.writeHalf r off v

/-- The low 32 bits of a word. -/
def low32 (v : Word64) : Word64 := BitVec.ofNat 64 (bits v 0 32)

/-- A 64-bit write at an aligned offset: of a 64-bit register, or as two 32-bit writes, the lower first (R505). -/
def State.write64 (s : State) (off : Nat) (v : Word64) : State :=
  match regRow off with
  | some ⟨_, _, _, true, _, _, _, _⟩ => s.writeWide off v
  | _ => (s.write32 off (low32 v)).write32 (off + 4) (v >>> 32)

/-- A write to BAR0 (R505): one of another size or alignment is discarded. -/
def State.barWrite0 (s : State) (off size : Nat) (v : Word64) : State :=
  if size = 4 ∧ off % 4 = 0 then s.write32 off (low32 v) else if size = 8 ∧ off % 8 = 0 then s.write64 off v else s

/-- REGISTER_WRITE (R12, R504, R505, R507). -/
def execRegisterWrite (off : BitVec 26) (size : Nat) (v : Word64) (s : State) : Answer :=
  .next (s.atCore (.registerWrite off size v) off.toNat fun s => s.barWrite0 off.toNat size v)

/-- A read, or a write, of BAR0. -/
def State.access (s : State) (off size : Nat) (write : Option Word64) : State :=
  match write with
  | some v => s.barWrite0 off size v
  | none => s.barRead0 off size

/-- PER_CORE_ACCESS_WAKE (R408, R507): an access to a per-core block, made once the device is awake and the clock of the
core's cluster runs. -/
def execPerCoreAccessWake (off : BitVec 26) (size : Nat) (write : Option Word64) (s : State) : Answer :=
  .next (s.atCore (.perCoreAccessWake off size write) off.toNat fun s => s.access off.toNat size write)

end Sys2Proof.Machine
end

