-- ==== Sys2Proof/Machine/TileCommands.lean ====
section
/-!
DEFINITION. The meanings of the tile commands: each takes the path of Tile.lean with its own work.
-/

namespace Sys2Proof.Machine

/-- FLOAD (R41 to R47, R54). -/
def execFload (c : CoreId) (h : Hdr) (f : FloadArgs) (s : State) : Answer := tile c h (.fload c h f) (floadBody f) s

/-- FIRE (R20 to R34, R62, R143 to R145). -/
def execFire (c : CoreId) (h : Hdr) (f : FireArgs) (s : State) : Answer := tile c h (.fire c h f) (fireBody false f) s

/-- FIRET (R35 to R37, R62, R143 to R145). -/
def execFiret (c : CoreId) (h : Hdr) (f : FireArgs) (s : State) : Answer := tile c h (.firet c h f) (fireBody true f) s

/-- ACMINIT (R64, R67, R80). -/
def execAcminit (c : CoreId) (h : Hdr) (f : AcminitArgs) (s : State) : Answer := tile c h (.acminit c h f) (acminitBody f) s

/-- ACMOUT (R76, R90, R99 to R109, R199); its completion is a commit point (R68). -/
def execAcmout (c : CoreId) (h : Hdr) (f : AcmoutArgs) (s : State) : Answer := tile c h (.acmout c h f) (acmoutBody f) s

/-- REFMM (R128 to R135). -/
def execRefmm (c : CoreId) (h : Hdr) (f : RefmmArgs) (s : State) : Answer := tile c h (.refmm c h f) (refmmBody f) s

/-- REFEW (R136 to R139). -/
def execRefew (c : CoreId) (h : Hdr) (f : RefewArgs) (s : State) : Answer := tile c h (.refew c h f) (refewBody f) s

/-- REDUCE (R87 to R89, R140 to R142). -/
def execReduce (c : CoreId) (h : Hdr) (f : ReduceArgs) (s : State) : Answer := tile c h (.reduce c h f) (reduceBody f) s

/-- TRANSIT (R91 to R93). -/
def execTransit (c : CoreId) (h : Hdr) (f : TransitArgs) (s : State) : Answer := tile c h (.transit c h f) (transitBody f) s

/-- MOVE in mode PLAIN (R196, R243). -/
def execMovePlain (c : CoreId) (h : Hdr) (f : MoveArgs) (s : State) : Answer := tile c h (.movePlain c h f) (moveBody .plain f) s

/-- MOVE in mode TILE (R194 to R196, R243). -/
def execMoveTile (c : CoreId) (h : Hdr) (f : MoveArgs) (s : State) : Answer := tile c h (.moveTile c h f) (moveBody .tile f) s

/-- MOVE in mode TRANSPOSE (R243, R244). -/
def execMoveTranspose (c : CoreId) (h : Hdr) (f : MoveArgs) (s : State) : Answer := tile c h (.moveTranspose c h f) (moveBody .transpose f) s

/-- MOVE in mode COMPRESS (R180 to R182, R245). -/
def execMoveCompress (c : CoreId) (h : Hdr) (f : MoveArgs) (s : State) : Answer := tile c h (.moveCompress c h f) (compressBody f) s

/-- MOVE in mode EXPAND (R183, R245). -/
def execMoveExpand (c : CoreId) (h : Hdr) (f : MoveArgs) (s : State) : Answer := tile c h (.moveExpand c h f) (expandBody f) s

/-- GATHER in mode EMB (R157 to R173). -/
def execGatherEmb (c : CoreId) (h : Hdr) (f : GatherEmbArgs) (s : State) : Answer := tile c h (.gatherEmb c h f) (gatherEmbBody f) s

/-- GATHER in mode SPT (R180 to R187). -/
def execGatherSpt (c : CoreId) (h : Hdr) (f : GatherSptArgs) (s : State) : Answer := tile c h (.gatherSpt c h f) (gatherSptBody f) s

/-- UPDATE (R174 to R179). -/
def execUpdate (c : CoreId) (h : Hdr) (f : UpdateArgs) (s : State) : Answer := tile c h (.update c h f) (updateBody f) s

/-- SYNC ADD (R304, R306, R313 to R315). -/
def execSyncAdd (c : CoreId) (h : Hdr) (f : SyncArgs) (s : State) : Answer := tile c h (.syncAdd c h f) (syncBody .add f) s

/-- SYNC SET (R304, R306, R313 to R315). -/
def execSyncSet (c : CoreId) (h : Hdr) (f : SyncArgs) (s : State) : Answer := tile c h (.syncSet c h f) (syncBody .set f) s

/-- SYNC MAX (R304, R306, R313 to R315). -/
def execSyncMax (c : CoreId) (h : Hdr) (f : SyncArgs) (s : State) : Answer := tile c h (.syncMax c h f) (syncBody .max f) s

/-- SYNC MIN (R304, R306, R313 to R315). -/
def execSyncMin (c : CoreId) (h : Hdr) (f : SyncArgs) (s : State) : Answer := tile c h (.syncMin c h f) (syncBody .min f) s

/-- SYNC OR (R304, R306, R313 to R315). -/
def execSyncOr (c : CoreId) (h : Hdr) (f : SyncArgs) (s : State) : Answer := tile c h (.syncOr c h f) (syncBody .or f) s

/-- SYNC AND (R304, R306, R313 to R315). -/
def execSyncAnd (c : CoreId) (h : Hdr) (f : SyncArgs) (s : State) : Answer := tile c h (.syncAnd c h f) (syncBody .and f) s

/-- SYNC CAS (R304, R306, R313 to R315). -/
def execSyncCas (c : CoreId) (h : Hdr) (f : SyncArgs) (s : State) : Answer := tile c h (.syncCas c h f) (syncBody .cas f) s

/-- SYNC POST (R284, R304, R306). -/
def execSyncPost (c : CoreId) (h : Hdr) (f : SyncArgs) (s : State) : Answer := tile c h (.syncPost c h f) (postBody f) s

/-- CLAIM in mode NEXT (R304, R310, R312). -/
def execClaimNext (c : CoreId) (h : Hdr) (f : ClaimArgs) (s : State) : Answer := tile c h (.claimNext c h f) (claimBody (·.claimNext f) f) s

/-- CLAIM in mode EXPLICIT (R304, R311, R312). -/
def execClaimExplicit (c : CoreId) (h : Hdr) (f : ClaimArgs) (s : State) : Answer := tile c h (.claimExplicit c h f) (claimBody (·.claimExplicit f) f) s

/-- WAIT (R307). -/
def execWait (c : CoreId) (h : Hdr) (f : WaitArgs) (s : State) : Answer := tile c h (.wait c h f) (waitBody f none) s

/-- EXPO SAVE (R119, R120, R122). -/
def execExpoSave (c : CoreId) (h : Hdr) (f : ExpoArgs) (s : State) : Answer := tile c h (.expoSave c h f) (expoSaveBody f) s

/-- EXPO RESTORE (R119 to R122). -/
def execExpoRestore (c : CoreId) (h : Hdr) (f : ExpoArgs) (s : State) : Answer := tile c h (.expoRestore c h f) (expoRestoreBody f) s

/-- EXPO CLEAR (R119, R122). -/
def execExpoClear (c : CoreId) (h : Hdr) (f : ExpoArgs) (s : State) : Answer := tile c h (.expoClear c h f) (expoClearBody f) s

/-- PHASE (R403): issue sets the core's requested point. -/
def execPhase (c : CoreId) (h : Hdr) (op : BitVec 3) (s : State) : Answer := tile c h (.phase c h op) (fun _ => pure ()) s

/-- BALLAST FIXED (R419). -/
def execBallastFixed (c : CoreId) (h : Hdr) (f : BallastArgs) (cycles : BitVec 25) (s : State) : Answer :=
  tile c h (.ballastFixed c h f cycles) (ballastBody f cycles) s

/-- BALLAST UNTIL (R302, R307, R419): a WAIT with filler work. -/
def execBallastUntil (c : CoreId) (h : Hdr) (f : BallastArgs) (w : WaitArgs) (s : State) : Answer :=
  tile c h (.ballastUntil c h f w) (waitBody w (some f)) s

/-- FENCE (R303). -/
def execFence (c : CoreId) (h : Hdr) (f : FenceArgs) (s : State) : Answer :=
  tile c h (.fence c h f) (fenceBody f) s

/-- TASK (R219, R221): issue sets the entry of one space for the commands after it. -/
def execTask (c : CoreId) (h : Hdr) (f : TaskArgs) (s : State) : Answer := tile c h (.task c h f) (fun _ => pure ()) s

/-- WINDOW OPEN (R246). -/
def execWindowOpen (c : CoreId) (h : Hdr) (f : WindowArgs) (s : State) : Answer :=
  tile c h (.windowOpen c h f) (windowOpenBody f) s

/-- WINDOW CLOSE (R249). -/
def execWindowClose (c : CoreId) (h : Hdr) (window : BitVec 6) (s : State) : Answer :=
  tile c h (.windowClose c h window) (windowCloseBody window) s

/-- NOP (R265). -/
def execNop (c : CoreId) (h : Hdr) (s : State) : Answer := tile c h (.nop c h) (fun _ => pure ()) s

end Sys2Proof.Machine
end

