-- ==== Sys2Proof/Machine/Dispatch.lean ====
section
/-!
DEFINITION. Which meaning each command has: one direct call for each row of the table.
-/

namespace Sys2Proof.Machine

def exec (i : Instr) (s : State) : Host.Outcome State Fault Refusal :=
  match i with
  -- tile commands
  | .fload c h f => Sys2Proof.Machine.execFload c h f s
  | .fire c h f => Sys2Proof.Machine.execFire c h f s
  | .firet c h f => Sys2Proof.Machine.execFiret c h f s
  | .acminit c h f => Sys2Proof.Machine.execAcminit c h f s
  | .acmout c h f => Sys2Proof.Machine.execAcmout c h f s
  | .refmm c h f => Sys2Proof.Machine.execRefmm c h f s
  | .refew c h f => Sys2Proof.Machine.execRefew c h f s
  | .reduce c h f => Sys2Proof.Machine.execReduce c h f s
  | .transit c h f => Sys2Proof.Machine.execTransit c h f s
  | .movePlain c h f => Sys2Proof.Machine.execMovePlain c h f s
  | .moveTile c h f => Sys2Proof.Machine.execMoveTile c h f s
  | .moveTranspose c h f => Sys2Proof.Machine.execMoveTranspose c h f s
  | .moveCompress c h f => Sys2Proof.Machine.execMoveCompress c h f s
  | .moveExpand c h f => Sys2Proof.Machine.execMoveExpand c h f s
  | .gatherEmb c h f => Sys2Proof.Machine.execGatherEmb c h f s
  | .gatherSpt c h f => Sys2Proof.Machine.execGatherSpt c h f s
  | .update c h f => Sys2Proof.Machine.execUpdate c h f s
  | .syncAdd c h f => Sys2Proof.Machine.execSyncAdd c h f s
  | .syncSet c h f => Sys2Proof.Machine.execSyncSet c h f s
  | .syncMax c h f => Sys2Proof.Machine.execSyncMax c h f s
  | .syncMin c h f => Sys2Proof.Machine.execSyncMin c h f s
  | .syncOr c h f => Sys2Proof.Machine.execSyncOr c h f s
  | .syncAnd c h f => Sys2Proof.Machine.execSyncAnd c h f s
  | .syncCas c h f => Sys2Proof.Machine.execSyncCas c h f s
  | .syncPost c h f => Sys2Proof.Machine.execSyncPost c h f s
  | .claimNext c h f => Sys2Proof.Machine.execClaimNext c h f s
  | .claimExplicit c h f => Sys2Proof.Machine.execClaimExplicit c h f s
  | .wait c h f => Sys2Proof.Machine.execWait c h f s
  | .expoSave c h f => Sys2Proof.Machine.execExpoSave c h f s
  | .expoRestore c h f => Sys2Proof.Machine.execExpoRestore c h f s
  | .expoClear c h f => Sys2Proof.Machine.execExpoClear c h f s
  | .phase c h op => Sys2Proof.Machine.execPhase c h op s
  | .ballastFixed c h f cycles => Sys2Proof.Machine.execBallastFixed c h f cycles s
  | .ballastUntil c h f w => Sys2Proof.Machine.execBallastUntil c h f w s
  | .fence c h f => Sys2Proof.Machine.execFence c h f s
  | .task c h f => Sys2Proof.Machine.execTask c h f s
  | .windowOpen c h f => Sys2Proof.Machine.execWindowOpen c h f s
  | .windowClose c h window => Sys2Proof.Machine.execWindowClose c h window s
  | .nop c h => Sys2Proof.Machine.execNop c h s
  -- rings and jobs
  | .sqTailDoorbell ring tail => Sys2Proof.Machine.execSqTailDoorbell ring tail s
  | .cqHeadDoorbell ring head => Sys2Proof.Machine.execCqHeadDoorbell ring head s
  | .descriptorFetch ring readOk => Sys2Proof.Machine.execDescriptorFetch ring readOk s
  | .jobAdmit => Sys2Proof.Machine.execJobAdmit s
  | .jobComplete job => Sys2Proof.Machine.execJobComplete job s
  | .preempt ring => Sys2Proof.Machine.execPreempt ring s
  | .resume job => Sys2Proof.Machine.execResume job s
  | .ringEnable ring => Sys2Proof.Machine.execRingEnable ring s
  | .ringDisable ring => Sys2Proof.Machine.execRingDisable ring s
  | .abort ring => Sys2Proof.Machine.execAbort ring s
  | .eventRingEnable en => Sys2Proof.Machine.execEventRingEnable en s
  | .eventHeadRelease head => Sys2Proof.Machine.execEventHeadRelease head s
  | .hqEqLostRead w => Sys2Proof.Machine.execHqEqLostRead w s
  | .hqMboxRead ring w => Sys2Proof.Machine.execHqMboxRead ring w s
  | .idleTimeoutNotice ring => Sys2Proof.Machine.execIdleTimeoutNotice ring s
  | .msixUnmask vector => Sys2Proof.Machine.execMsixUnmask vector s
  -- facet care, parallax, replay, faults
  | .scrubRead c => Sys2Proof.Machine.execScrubRead c s
  | .facetRefill c facet => Sys2Proof.Machine.execFacetRefill c facet s
  | .parallaxCheckDone c => Sys2Proof.Machine.execParallaxCheckDone c s
  | .parallaxForce c => Sys2Proof.Machine.execParallaxForce c s
  | .rescaleRetry c => Sys2Proof.Machine.execRescaleRetry c s
  | .replayStart job => Sys2Proof.Machine.execReplayStart job s
  | .watchdog c => Sys2Proof.Machine.execWatchdog c s
  | .fatalFault src => Sys2Proof.Machine.execFatalFault src s
  -- translation
  | .pageResponse group failed => Sys2Proof.Machine.execPageResponse group failed s
  | .prgResponse group code => Sys2Proof.Machine.execPrgResponse group code s
  | .pageRequestTimeout group => Sys2Proof.Machine.execPageRequestTimeout group s
  | .atsInvalidate addr pages => Sys2Proof.Machine.execAtsInvalidate addr pages s
  | .smcTlbInv => Sys2Proof.Machine.execSmcTlbInv s
  | .smcPhysDataRead w => Sys2Proof.Machine.execSmcPhysDataRead w s
  | .smcPhysDataWrite v => Sys2Proof.Machine.execSmcPhysDataWrite v s
  -- shared memory
  | .bar4Read off len => Sys2Proof.Machine.execBar4Read off len s
  | .bar4Write off data => Sys2Proof.Machine.execBar4Write off data s
  | .bankOffDecision bank => Sys2Proof.Machine.execBankOffDecision bank s
  | .bankWakeDone bank => Sys2Proof.Machine.execBankWakeDone bank s
  -- counters and registers
  | .synCtrWrite counter v => Sys2Proof.Machine.execSynCtrWrite counter v s
  | .synHostAdd v => Sys2Proof.Machine.execSynHostAdd v s
  | .counterHalfRead off => Sys2Proof.Machine.execCounterHalfRead off s
  | .cntClr off v => Sys2Proof.Machine.execCntClr off v s
  | .registerWrite off size v => Sys2Proof.Machine.execRegisterWrite off size v s
  | .perCoreAccessWake off size write => Sys2Proof.Machine.execPerCoreAccessWake off size write s
  -- fabric messages
  | .msgWr h stacked addr data => Sys2Proof.Machine.execMsgWr h stacked addr data s
  | .msgRd h stacked addr count => Sys2Proof.Machine.execMsgRd h stacked addr count s
  | .msgSync h m => Sys2Proof.Machine.execMsgSync h m s
  | .msgTransit h m => Sys2Proof.Machine.execMsgTransit h m s
  | .msgJobend h job => Sys2Proof.Machine.execMsgJobend h job s
  | .msgMgmt h body => Sys2Proof.Machine.execMsgMgmt h body s
  | .msgRsp h status data => Sys2Proof.Machine.execMsgRsp h status data s
  | .msgBeat port m => Sys2Proof.Machine.execMsgBeat port m s
  | .timeSync port m => Sys2Proof.Machine.execTimeSync port m s
  | .timeDelayReq port m => Sys2Proof.Machine.execTimeDelayReq port m s
  | .timeDelayRsp port m => Sys2Proof.Machine.execTimeDelayRsp port m s
  | .linkHello port m => Sys2Proof.Machine.execLinkHello port m s
  | .linkSlow port => Sys2Proof.Machine.execLinkSlow port s
  | .linkFast port => Sys2Proof.Machine.execLinkFast port s
  | .linkWidth port lanes => Sys2Proof.Machine.execLinkWidth port lanes s
  | .messageForward h len p => Sys2Proof.Machine.execMessageForward h len p s
  | .dataFlitReceive port f => Sys2Proof.Machine.execDataFlitReceive port f s
  | .flitNak port ack => Sys2Proof.Machine.execFlitNak port ack s
  | .ackTimeout port => Sys2Proof.Machine.execAckTimeout port s
  | .laneErrorWindow port lanes => Sys2Proof.Machine.execLaneErrorWindow port lanes s
  | .portTrain port healthy => Sys2Proof.Machine.execPortTrain port healthy s
  | .portRetry port healthy => Sys2Proof.Machine.execPortRetry port healthy s
  | .portRetrainRequest port healthy => Sys2Proof.Machine.execPortRetrainRequest port healthy s
  | .downLimitExpiry port => Sys2Proof.Machine.execDownLimitExpiry port s
  | .responseTimeout txn => Sys2Proof.Machine.execResponseTimeout txn s
  | .transitBusyRetry txn => Sys2Proof.Machine.execTransitBusyRetry txn s
  | .jobendResend txn => Sys2Proof.Machine.execJobendResend txn s
  | .xtFlush => Sys2Proof.Machine.execXtFlush s
  | .beatSend => Sys2Proof.Machine.execBeatSend s
  | .timeExchange => Sys2Proof.Machine.execTimeExchange s
  | .holdover => Sys2Proof.Machine.execHoldover s
  -- configuration epochs and persistent registers
  | .stageClear => Sys2Proof.Machine.execStageClear s
  | .stageValueWrite v => Sys2Proof.Machine.execStageValueWrite v s
  | .stage => Sys2Proof.Machine.execStage s
  | .arm => Sys2Proof.Machine.execArm s
  | .cancel => Sys2Proof.Machine.execCancel s
  | .epochApply => Sys2Proof.Machine.execEpochApply s
  | .epochRetire => Sys2Proof.Machine.execEpochRetire s
  | .directWrite off size v => Sys2Proof.Machine.execDirectWrite off size v s
  | .pregWrite reg v => Sys2Proof.Machine.execPregWrite reg v s
  | .pregProgramDone reg => Sys2Proof.Machine.execPregProgramDone reg s
  -- power and clocks
  | .governTick levels => Sys2Proof.Machine.execGovernTick levels s
  | .governedPointStep => Sys2Proof.Machine.execGovernedPointStep s
  | .telemetryWindow arrived readings => Sys2Proof.Machine.execTelemetryWindow arrived readings s
  | .telemetryLost => Sys2Proof.Machine.execTelemetryLost s
  | .recalRetry => Sys2Proof.Machine.execRecalRetry s
  | .opChange cluster => Sys2Proof.Machine.execOpChange cluster s
  | .droopDetect cluster => Sys2Proof.Machine.execDroopDetect cluster s
  | .droopHoldEnd die => Sys2Proof.Machine.execDroopHoldEnd die s
  | .droopPersist die => Sys2Proof.Machine.execDroopPersist die s
  | .thermalRead r => Sys2Proof.Machine.execThermalRead r s
  | .thermalCapStep => Sys2Proof.Machine.execThermalCapStep s
  | .clusterClockStop cluster => Sys2Proof.Machine.execClusterClockStop cluster s
  | .clusterClockStart cluster => Sys2Proof.Machine.execClusterClockStart cluster s
  | .dozeEntry => Sys2Proof.Machine.execDozeEntry s
  | .dormantEntry => Sys2Proof.Machine.execDormantEntry s
  | .deviceWake => Sys2Proof.Machine.execDeviceWake s
  | .stateReqDoze => Sys2Proof.Machine.execStateReqDoze s
  | .stateReqDormant => Sys2Proof.Machine.execStateReqDormant s
  | .stateReqWake => Sys2Proof.Machine.execStateReqWake s
  | .recalRequest => Sys2Proof.Machine.execRecalRequest s
  -- collimation
  | .sliceRelease => Sys2Proof.Machine.execSliceRelease s
  | .sliceDue => Sys2Proof.Machine.execSliceDue s
  | .facetSlice c facet r => Sys2Proof.Machine.execFacetSlice c facet r s
  | .sliceRetry => Sys2Proof.Machine.execSliceRetry s
  | .clusterSlice cluster r => Sys2Proof.Machine.execClusterSlice cluster r s
  | .thermalSlice die junctions => Sys2Proof.Machine.execThermalSlice die junctions s
  | .laneSlice port lane ok retrainOk => Sys2Proof.Machine.execLaneSlice port lane ok retrainOk s
  | .currentSlice r => Sys2Proof.Machine.execCurrentSlice r s
  | .requal v => Sys2Proof.Machine.execRequal v s
  -- boot, firmware, identity, sessions
  | .boot => Sys2Proof.Machine.execBoot s
  | .fwWrite slot => Sys2Proof.Machine.execFwWrite slot s
  | .fwPrepare slot => Sys2Proof.Machine.execFwPrepare slot s
  | .fwUnprepare => Sys2Proof.Machine.execFwUnprepare s
  | .fwCommit => Sys2Proof.Machine.execFwCommit s
  | .certReady => Sys2Proof.Machine.execCertReady s
  | .uarMboxGo length => Sys2Proof.Machine.execUarMboxGo length s
  | .openReq q => Sys2Proof.Machine.execOpenReq q s
  | .openRsp q => Sys2Proof.Machine.execOpenRsp q s
  | .close q => Sys2Proof.Machine.execClose q s
  | .setKey q => Sys2Proof.Machine.execSetKey q s
  | .setOwner q => Sys2Proof.Machine.execSetOwner q s
  | .lifecycle q => Sys2Proof.Machine.execLifecycle q s
  | .clearTamper q => Sys2Proof.Machine.execClearTamper q s
  | .readLog q => Sys2Proof.Machine.execReadLog q s
  | .nonce q => Sys2Proof.Machine.execNonce q s
  | .recover q => Sys2Proof.Machine.execRecover q s
  | .challengeExpiry session => Sys2Proof.Machine.execChallengeExpiry session s
  | .sessionIdleClose session => Sys2Proof.Machine.execSessionIdleClose session s
  | .tamper src => Sys2Proof.Machine.execTamper src s
  | .wipeDone => Sys2Proof.Machine.execWipeDone s
  | .getVersion t => Sys2Proof.Machine.execGetVersion t s
  | .getCapabilities t => Sys2Proof.Machine.execGetCapabilities t s
  | .negotiateAlgorithms t mldsa65 sha3 => Sys2Proof.Machine.execNegotiateAlgorithms t mldsa65 sha3 s
  | .getDigests t => Sys2Proof.Machine.execGetDigests t s
  | .getCertificate t slot off len => Sys2Proof.Machine.execGetCertificate t slot off len s
  | .challenge t slot nonce => Sys2Proof.Machine.execChallenge t slot nonce s
  | .getMeasurements t index signed nonce => Sys2Proof.Machine.execGetMeasurements t index signed nonce s
  | .recoveryWrite off data => Sys2Proof.Machine.execRecoveryWrite off data s
  | .recoveryDone length => Sys2Proof.Machine.execRecoveryDone length s
  -- sideband, module, host link
  | .numericSensorRead sensor => Sys2Proof.Machine.execNumericSensorRead sensor s
  | .pwrEnAssert => Sys2Proof.Machine.execPwrEnAssert s
  | .pwrEnDeassert => Sys2Proof.Machine.execPwrEnDeassert s
  | .perstNDeassert => Sys2Proof.Machine.execPerstNDeassert s
  | .perstNFullReset => Sys2Proof.Machine.execPerstNFullReset s
  | .functionLevelReset => Sys2Proof.Machine.execFunctionLevelReset s
  | .d3hot => Sys2Proof.Machine.execD3hot s
  | .d0 => Sys2Proof.Machine.execD0 s
  | .pcieLinkDegrade speed width failed => Sys2Proof.Machine.execPcieLinkDegrade speed width failed s
  | .inputOutOfRange us => Sys2Proof.Machine.execInputOutOfRange us s
  | .controlFlit port ack nak => Sys2Proof.Machine.execControlFlit port ack nak s
  | .retrainLink speed width failed => Sys2Proof.Machine.execRetrainLink speed width failed s
  | .priEnable => Sys2Proof.Machine.execPriEnable s
  | .powerModeWrite bank => Sys2Proof.Machine.execPowerModeWrite bank s
  | .eidAssignment eid => Sys2Proof.Machine.execEidAssignment eid s

end Sys2Proof.Machine
end

