-- ==== Sys2Proof/Machine/Strike.lean ====
section
/-!
DEFINITION. What a physical fault does to the state that it strikes, and the detectors that meet it at once (R320, R326).
When faults come the spec does not say: they are free values of the tick (log entry 127).
-/

namespace Sys2Proof.Machine

/-- What the code of a word says after one more fault (R253). -/
def Ecc.worse (e : Ecc) (double : Bool) : Ecc :=
  match e with
  | .good => if double then .double else .single
  | _ => .double

/-- What a slot of stacked memory says when it is next read (R252). -/
def slotEcc (kind : Fin 4) : Ecc :=
  match kind with
  | 0 => .corrected
  | 1 => .retry
  | 2 => .codeBad
  | 3 => .reportBad

/-- A bit of row r of a facet flips; its parity stays (R47). -/
def Facet.strikeRow (f : Facet) (r b : Nat) : Facet :=
  { f with rows := Sparse.set 0 f.rows r (Sparse.get 0 f.rows r ^^^ BitVec.ofNat 128 (2 ^ (b % 128))) }

/-- A bit of the exponent of logical column j flips; its parity stays (R18). -/
def Facet.strikeExp (f : Facet) (j b : Nat) : Facet :=
  { f with colExp := Sparse.set 0 f.colExp j (Sparse.get 0 f.colExp j ^^^ BitVec.ofNat 8 (2 ^ (b % 8))) }

/-- A parity check of core c's sequencer fails (R320). -/
def State.strikeSequencer (s : State) (c : Nat) : State :=
  (s.jobOn c).elim s fun j => s.contain j.num 3 c (s.core c).nextSeq 0 0

/-- A record of a job in bank 60 is struck (R326). -/
def State.strikeLog (s : State) (num : Nat) : State :=
  match (s.findJob num).filter fun j => decide (j.journal ≠ []) with
  | none => s
  | some j =>
    match s.loseJournal j with
    | (true, s) => s.endJob num .lost 0 0
    | (false, s) => s

/-- Bank 61 is struck (R326): the jobs that hold entries in it are those whose replays it can no longer serve. -/
def State.strikeIdentities (s : State) : State :=
  { s with identityBroken :=
      (s.identityBroken ++ s.identities.map fun (i : Identity) => i.dev.toNat * 2 ^ 24 + i.job).eraseDups }

/-- A physical fault. One at a place that the device does not have strikes nothing. -/
def State.strike (s : State) (x : Strike) : State :=
  match x with
  | .coreWord c w d =>
    if 2047 < c ∨ 65535 < w then s
    else s.modCore c fun k => { k with ecc := Sparse.set Ecc.good k.ecc w ((Sparse.get Ecc.good k.ecc w).worse d) }
  | .sharedWord w d =>
    if 0x0F000000 ≤ 8 * w ∨ !s.bankReady (bankOf (8 * w)) then s
    else { s with sharedEcc := Sparse.set Ecc.good s.sharedEcc w ((Sparse.get Ecc.good s.sharedEcc w).worse d) }
  | .stackedSlot t k =>
    if 287997689856 ≤ 64 * t ∨ Sparse.get Ecc.good s.stackedEcc t ≠ .good then s
    else { s with stackedEcc := Sparse.set Ecc.good s.stackedEcc t (slotEcc k) }
  | .facetRow c f r b => if 2047 < c ∨ 31 < f ∨ 1023 < r then s else s.modFacet c f (·.strikeRow r b)
  | .facetExp c f j b => if 2047 < c ∨ 31 < f ∨ 24 < j then s else s.modFacet c f (·.strikeExp j b)
  | .acm c r e b => if 2047 < c ∨ 511 < r ∨ 64 < e then s else s.modCore c (·.strikeRow r e b)
  | .sequencer c => s.strikeSequencer c
  | .jobLog num => s.strikeLog num
  | .identities => s.strikeIdentities

end Sys2Proof.Machine
end

