-- ==== Sys2Proof/Machine/Fetch.lean ====
section
/-!
DEFINITION. What happens as time passes with no command waiting: the dispatch units fill the command buffers and the
sequencers bring the heads forward (R294), the cluster clocks run with their bubbles (R412), the F-cycles that cores wait
are counted, held commands are tried again, physical faults strike, and the time bases advance
(DESIGN CHOICE, log entry 3).
-/

namespace Sys2Proof.Machine

/-! ### Filling the command buffers -/

/-- Commands that a buffer holds (R294). -/
def bufferSize : Nat := 64

/-- What the fetch of a command of core c's list knows of itself: the command has no opcode yet. -/
def fetchCx (s : State) (j : Job) (c n : Nat) : Cx :=
  let h : Hdr := { commit := false, serial := false, satFp := false, indexed := false, prmN := 0, reserved := false
                   seq := BitVec.ofNat 16 n, prm := 0 }
  let i : Instr := .nop (BitVec.ofNat 11 c) h
  { site := { job := j.num, ring := j.ring, core := c, seq := n, op := 0 }, h := h
    iss := s.issueRecord j c i h, replay := j.desc.replay, wake := j.desc.wake }

/-- The dispatch unit brings core c the next n commands of its list, as far as they can be had now. -/
def fetchMore (j : Job) (o : Opnd) (c : Nat) : Nat → State → State
  | 0, s => s
  | n + 1, s =>
    let k := s.core c
    let at_ := k.nextSeq + k.buffer.length
    if j.desc.cmdCount ≤ at_ then s
    else
      match (fetchCode (fetchCx s j c at_) j o at_).run s with
      | .ok w s => fetchMore j o c n (s.modCore c fun k => { k with buffer := k.buffer ++ [w] })
      | .error _ s => s

/-- The dispatch unit refills the buffer of core c whenever it has 2 free entries (R294). -/
def State.fillBuffer (s : State) (c : Nat) : State :=
  match s.jobOn c with
  | none => s
  | some j =>
    let n := (s.core c).buffer.length
    if bufferSize < n + 2 ∨ s.clockStopped c then s
    else (j.listOf c).elim s fun o => fetchMore j o c (bufferSize - n) s

/-! ### The heads of the buffers -/

/-- The job whose next command core c could bring to the head of its buffer now: its cluster's clock runs, its list is not at
its end, and nothing keeps the command away (R294, R405). -/
def State.fetchFor (s : State) (c : Nat) : Option Job :=
  (s.jobOn c).filter fun j =>
    !s.clockStopped c && decide ((s.core c).nextSeq < j.desc.cmdCount) && !blocked s c
      && decide ((s.core c).issued.length < 16)

/-- F-cycles of core c's cluster in the tick that begins now (R401): none while its clock is stopped (R405). -/
def State.fCycles (s : State) (c : Nat) : Nat :=
  let f := opFreq (s.cluster (c / 64)).op.toNat
  if s.clockStopped c then 0 else (s.ticks + 1) * f / 100 - s.ticks * f / 100

/-- The command at the head of core c's buffer: it comes to issue, or is refused where it is none (R300, R301); a core that
could issue and has none is starved for the F-cycles of the tick (R294). -/
def State.headTile (s : State) (c : Nat) : Option Instr × State :=
  match s.fetchFor c, (s.core c).buffer with
  | none, _ => (none, s)
  | some _, [] => (none, s.count (Reg.SEQ_STARVE c) (s.fCycles c))
  | some j, e :: _ =>
    match decodeTile (BitVec.ofNat 11 c) e.word e.rec0 e.rec1 with
    | .ok i => (some i, s)
    | .error n => (none, s.refuse ⟨j.num, j.ring, c, (s.core c).nextSeq, opcodeAt e.word⟩ n)

/-- The commands that come to issue on cores, in ascending core order. -/
def State.fetchTiles : List Nat → State → List Instr × State
  | [], s => ([], s)
  | c :: l, s =>
    let (i, s) := (s.fillBuffer c).headTile c
    let (is, s) := State.fetchTiles l s
    (i.toList ++ is, s)

/-! ### Waiting -/

/-- Issued commands of core c that wait on a tag (R227). -/
def Core.tagWaits (k : Core) : Nat := k.issued.countP fun e => e.onTag && !e.done

/-- Whether a FENCE, or the serial flag of the command at the head, holds the sequencer of core c (R303). -/
def State.fenced (s : State) (c : Nat) : Bool :=
  let k := s.core c
  k.issued.any (fun e => decide (opcodeOf e.cmd = 0x13))
    || (!k.issued.isEmpty && s.held.any fun i =>
      heldOn [c] i && (tileOf i).elim false (·.2.serial) && !k.issued.any fun e => decide (e.cmd = i))

/-- The F-cycles of a job on a core, and the waited ones of them, as the pool counts them (R423). -/
def State.countRan (s : State) (n : Nat) (waits : Bool) : State :=
  if s.poolNumber = 0 then s
  else
    let p := s.power.pool
    s.setPool { p with ran := p.ran + n, waited := p.waited + if waits then n else 0 }

/-- The counters of waiting move by the F-cycles of one tick: a WAIT or BALLAST UNTIL, a FENCE or the serial flag, a tag (R227,
R303, R317, R423). -/
def State.countWaits (s : State) (c : Nat) : State :=
  match s.jobOn c with
  | none => s
  | some _ =>
    let n := s.fCycles c
    let w := (s.core c).waitOn.isSome
    let s' := if w then s.count (Reg.SEQ_WAIT c) n else s
    let s' := if s.fenced c then s'.count (Reg.SEQ_FENCE c) n else s'
    (s'.count (Reg.MEM_TAG_WAIT c) (n * (s.core c).tagWaits)).countRan n w

/-! ### Cluster clocks -/

/-- A scrub read falls due on core c of a cluster that has run F-cycles i to i + n - 1 (R49). -/
def State.scrubTick (i n : Nat) (s : State) (c : Nat) : State :=
  let ctrl := s.reg (Reg.FCT_CTRL c)
  let d := 2 ^ bits ctrl 2 5
  if bit ctrl 1 ∧ i / d < (i + n) / d then s.modCore c fun k => { k with scrubDue := true } else s

/-- A counter of what arbitration costs moves by a free value: the model's accesses have no cycle (DESIGN CHOICE, log entry 152). -/
def State.loseCycles (s : State) (off : Nat) : State := s.count off (Config.lost off s.ticks)

/-- What requesters of core c's memory lose in one tick (R223, R229). -/
def State.loseBanks (s : State) (c : Nat) : State := (s.loseCycles (Reg.MEM_CONFLICTS c)).loseCycles (Reg.MEM_WCOLL c)

/-- The F-cycles of cluster k in one tick (R49, R223, R229, R412, R420): bubbles, which each of its cores counts and which hold its
engines; its ballast; what its core memories' requesters lose; and the scrub reads that fall due. -/
def State.clusterTick (cs : List Nat) (s : State) (k : Nat) : State :=
  let q := s.cluster k
  if q.stopped then s
  else
    let n := s.fCycles (64 * k)
    let b := bubblesIn (s.clusterBeta k) q.cycles n
    let s := s.modCluster k fun q => { q with cycles := q.cycles + n, bubble := decide (0 < n ∧ b = n) }
    let s := if b = 0 then s else (List.range 64).foldl (fun s i => s.count (Reg.FCT_BUBBLES (64 * k + i)) b) s
    let s := if n = 0 then s else (List.range 64).foldl (fun s i => s.loseBanks (64 * k + i)) s
    let s := if q.ballast ∧ b < n then s.count Reg.HLS_BALLAST_CYCLES (n - b) else s
    (cs.filter fun c => decide (c / 64 = k)).foldl (State.scrubTick q.cycles n) s

/-- The filler work of a core that waits with BALLAST UNTIL, in the F-cycles of one tick that are no bubbles (R412, R419). -/
def State.fillerTick (s : State) (c : Nat) : State :=
  let q := s.cluster (c / 64)
  let n := s.fCycles c
  match (s.core c).ballast with
  | some b => if q.stopped then s else s.filler c b (n - bubblesIn (s.clusterBeta (c / 64)) q.cycles n)
  | none => s

/-! ### The tick -/

/-- The digest is valid within 10 µs of a reset (R381, R399). -/
def State.firstDigest (s : State) : State := if s.cfg.tag = 0 ∧ 10000 ≤ s.ticks + 1 then s.redigest else s

/-- One tick with no command waiting, but for physical faults: 1 ns passes, commands come to issue, the waits and the cluster
clocks are counted, and what was held is tried again. -/
def calmTick (s : State) : State :=
  let cs := s.cores.map (·.1)
  let (is, s) := State.fetchTiles cs s
  let s := cs.foldl State.countWaits s
  let s := cs.foldl State.fillerTick s
  let s := (((List.range 32).foldl (State.clusterTick cs) s).loseCycles Reg.SHM_CONFLICTS).firstDigest
  { s with ticks := s.ticks + 1, time := s.time.advance, pending := s.held ++ is, held := [] }

/-- One tick with no command waiting: time passes, and the faults of this ns strike (log entry 127). -/
def tick (s : State) : State := (Config.strikes s.ticks).foldl State.strike (calmTick s)

end Sys2Proof.Machine
end

