-- ==== Sys2Proof/WellFormed.lean ====
section
/-!
DEFINITION. Which commands are well formed: tile commands that show no refusal cause by themselves (R300), host accesses of
a size and alignment that the device takes (R505), messages whose parts have the lengths of their layouts (R354 to R356,
R376), and readings of as many sensors as the device has. The meanings are total on every command, well formed or not.
-/

namespace Sys2Proof

open Sys2Proof.Machine

/-- Why a command is not well formed. -/
inductive IllFormed where
  /-- a tile command that R300 refuses whatever the state -/
  | refused
  /-- a host access of a size or alignment that the device does not take (R505) -/
  | access
  /-- a register offset that is not of the kind that the row names -/
  | register
  /-- a part of a message, a body or a list of readings of another length than its layout -/
  | length
  /-- a number outside the range that its field can take -/
  | range
deriving DecidableEq, Repr

/-- A reason, if b holds. -/
def ill (e : IllFormed) (b : Bool) : List IllFormed := if b then [e] else []

/-- Whether the device takes an access of this size at this offset (R505). -/
def accessOk (off size : Nat) : Bool := decide ((size = 4 ∧ off % 4 = 0) ∨ (size = 8 ∧ off % 8 = 0))

/-- Whether a TRANSIT message carries 1 to 16 whole tile rows (R356). -/
def transitOk (m : TransitMsg) : Bool :=
  decide (1 ≤ m.rows.length ∧ m.rows.length ≤ 16) && m.rows.all fun r => decide (r.entries.length = 64)

/-- Whether a payload has the lengths that R355 and R356 allow. -/
def payloadOk : Payload → Bool
  | .wr _ _ data => decide (1 ≤ data.length ∧ data.length ≤ 4096)
  | .rd _ _ count => decide (1 ≤ count.toNat ∧ count.toNat ≤ 4096)
  | .transit m => transitOk m
  | .mgmt body => decide (body.length ≤ 1024)
  | .rsp _ data => decide (data.length ≤ 4096)
  | _ => true

/-- Whether a management request fits its path (R464, R465): a tag exactly within a session. -/
def mgmtOk (q : MgmtReq) : Bool :=
  decide (q.tag.length = if q.session = 0 then 0 else 32)
    && decide (16 + q.payload.length + q.tag.length ≤ if q.path = .mailbox then 8192 else 1024)

/-- Whether readings cover every sensor (R421). -/
def thermalOk (r : ThermalReadings) : Bool :=
  decide (r.dies.length = 4 ∧ r.base.length = 8 ∧ r.stackTemps.length = 6) && r.dies.all fun l => decide (l.length = 24)

/-- Whether a link outcome names a speed and a width that the link has (R501). -/
def linkOk (speed : BitVec 3) (width : BitVec 5) : Bool :=
  decide (1 ≤ speed.toNat) && [1, 4, 8, 16].contains width.toNat

/-- The reasons for which a command is not well formed. -/
def illFormed (i : Instr) : List IllFormed :=
  ill .refused (!(staticCauses i).isEmpty) ++
  match i with
  | .counterHalfRead off => ill .access (!accessOk off.toNat 4)
  | .registerWrite off size _ => ill .access (!accessOk off.toNat size)
  | .perCoreAccessWake off size _ => ill .access (!accessOk off.toNat size) ++ ill .register (coreOffset off.toNat).isNone
  | .directWrite off size _ => ill .register (epochTarget off.toNat size).isNone
  | .cntClr off _ => ill .register (clearSpan off.toNat).isNone
  | .bar4Read _ len => ill .length (decide (len = 0))
  | .bar4Write _ data => ill .length (decide (data = [] ∨ 4096 < data.length))
  | .msgWr _ st a data => ill .length (!payloadOk (.wr st a data))
  | .msgRd _ st a count => ill .range (!payloadOk (.rd st a count))
  | .msgTransit _ m => ill .length (!transitOk m)
  | .msgMgmt _ body => ill .length (!payloadOk (.mgmt body))
  | .msgRsp _ st data => ill .length (!payloadOk (.rsp st data))
  | .messageForward _ len p => ill .length (!payloadOk p) ++ ill .range (decide (len.toNat < 4 ∨ 1048 < len.toNat))
  | .msgBeat _ m => ill .length (decide (m.entries.length ≠ 16))
  | .laneErrorWindow _ lanes => ill .length (decide (lanes.length ≠ 4))
  | .thermalRead r => ill .length (!thermalOk r)
  | .thermalSlice _ l => ill .length (decide (l.length ≠ 24))
  | .facetSlice _ _ r => ill .range (r.firstFail.elim false fun p => decide (p = 0))
  | .pcieLinkDegrade speed width _ => ill .range (!linkOk speed width)
  | .retrainLink speed width _ => ill .range (!linkOk speed width)
  | .openReq q | .openRsp q | .close q | .setKey q | .setOwner q | .lifecycle q | .clearTamper q | .readLog q | .nonce q
  | .recover q => ill .length (!mgmtOk q)
  | .challenge _ _ n => ill .length (decide (n.length ≠ 32))
  | .getMeasurements _ _ signed n => ill .length (signed && decide (n.length ≠ 32))
  | .recoveryWrite _ data => ill .length (decide (1000 < data.length))
  | _ => []

/-- Whether a command is well formed. -/
def wellFormed (i : Instr) : Bool := (illFormed i).isEmpty

end Sys2Proof
end

