-- ==== Sys2Proof/Safety.lean ====
section
/-!
DEFINITION. What counts as a safe state and a safe run, and the conditions in terms of which statements say that a command
is taken up: the canonical form of every memory, the order of every map of the state, memory without faults, and a tile command
that stands at the head of its core's buffer with nothing to wait for.
-/

namespace Sys2Proof.Machine

/-! ### Form -/

/-- Every key of a map is above the one before it. -/
def Sparse.rising {α : Type} : Sparse α → Bool
  | [] => true
  | (k, _) :: m => Sparse.above k m && Sparse.rising m

/-- The byte memories of the device and of its host stand in their one canonical form: addresses rising, no zero listed. -/
def State.memOk (s : State) : Prop :=
  Memory.wf s.shared = true ∧ Memory.wf s.stacked = true ∧ Memory.wf s.host = true

/-- The maps of a facet stand in order. -/
def Facet.ordered (f : Facet) : Prop :=
  Sparse.rising f.rows = true ∧ Sparse.rising f.rowParity = true ∧ Sparse.rising f.colExp = true
    ∧ Sparse.rising f.offsets = true ∧ Sparse.rising f.expParity = true ∧ Sparse.rising f.lastClean = true

/-- The maps of an issued command's record stand in order. -/
def Issued.ordered (r : Issued) : Prop :=
  Sparse.rising r.reads = true ∧ Sparse.rising r.writes = true ∧ Sparse.rising r.banks = true ∧ Sparse.rising r.bytes = true

/-- The maps of a core stand in order: its memory in canonical form, and slots, errors, tile rows, dirty pairs, facets, the
maps of every facet and those of every issued command listed in rising order. -/
def Core.ordered (k : Core) : Prop :=
  Memory.wf k.mem = true ∧ Sparse.rising k.full = true ∧ Sparse.rising k.ecc = true ∧ Sparse.rising k.acm = true
    ∧ Sparse.rising k.acmWord = true ∧ Sparse.rising k.acmParity = true ∧ Sparse.rising k.dirty = true
    ∧ Sparse.rising k.facets = true ∧ (∀ f ∈ k.facets, f.2.ordered) ∧ ∀ r ∈ k.issued, r.ordered

/-- The maps of the Uarid stand in order: its two firmware slots, its mailbox, and its secure memory. -/
def Uarid.ordered (u : Uarid) : Prop :=
  Sparse.rising u.slotA = true ∧ Sparse.rising u.slotB = true ∧ Sparse.rising u.mbox = true ∧ Sparse.rising u.secure = true

/-- The maps beside the memories stand in order: errors of shared and stacked memory, banks, cached translations, the host's
pages, latched halves, and the cores that the sparse engines served last. -/
def State.sideOk (s : State) : Prop :=
  Sparse.rising s.sharedEcc = true ∧ Sparse.rising s.stackedEcc = true ∧ Sparse.rising s.banks = true
    ∧ Sparse.rising s.bankIdle = true ∧ Sparse.rising s.tlb = true ∧ Sparse.rising s.hostPages = true
    ∧ Sparse.rising s.latches = true ∧ Sparse.rising s.speLast = true

/-- The lists of a port have one entry for each of its four lanes and channels, and its next sequence number has 10 bits. -/
def Port.shaped (q : Port) : Prop :=
  q.symRuns.length = 4 ∧ q.credits.length = 4 ∧ q.returns.length = 4 ∧ q.lastIn.length = 4 ∧ q.rxExpected < 1024

/-- The lists that stand for a fixed number of like things have that number: 32 cluster clocks, each with 6 activity counts, 4
compute dies, 6 stacks, and those of a port (R3, R342, R347, R357, R401, R409). -/
def State.shaped (s : State) : Prop :=
  s.power.clusters.length = 32 ∧ (∀ q ∈ s.power.clusters, q.activity.length = 9) ∧ s.power.dies.length = 4
    ∧ s.power.stackRate.length = 6 ∧ ∀ q ∈ s.ports, q.2.shaped

/-- Every map of the state lists its keys in rising order, so that what is set at one key is read there and nowhere else: those
of registers, cores, rings, ports, counters, exposure slots, persistent registers and vectors, those beside the memories, those
of the Uarid, of every core, and of the cores in saved contexts; the byte memories stand in canonical form, and the lists of
fixed length have it. -/
def State.ordered (s : State) : Prop :=
  s.memOk ∧ s.sideOk ∧ s.uarid.ordered ∧ s.shaped ∧ Sparse.rising s.regs = true ∧ Sparse.rising s.cores = true ∧ Sparse.rising s.rings = true ∧ Sparse.rising s.ports = true
    ∧ Sparse.rising s.sync = true ∧ Sparse.rising s.expo = true ∧ Sparse.rising s.pregs = true
    ∧ Sparse.rising s.vectors = true ∧ (∀ k ∈ s.cores, k.2.ordered) ∧ ∀ j ∈ s.jobs, ∀ k ∈ j.saved, k.2.ordered

/-- An answer is safe: a next state whose maps and memories stand in order. -/
def Answer.safe : Answer → Prop
  | .next s => s.ordered
  | _ => False

/-! ### A device without faults -/

/-- No word or slot of any memory holds an error, every shared-memory bank is on, and the host maps every page: accesses
within bounds succeed and report nothing (R237, R252, R253, R333). -/
def State.faultless (s : State) : Prop :=
  s.sharedEcc = [] ∧ s.stackedEcc = [] ∧ s.banks = [] ∧ s.hostPages = [] ∧ ∀ c, (s.core c).ecc = [] ∧ (s.core c).acmParity = []

/-- Whether an access reaches a place at once: a stacked address whose page is held with the permission; no window. -/
def placeOpen (s : State) (write : Bool) : Place → Bool
  | .stacked va => (Sparse.get none s.tlb (va / 2 ^ 21)).elim false fun p => !write || p.2
  | .window _ _ => false
  | _ => true

/-- Whether bytes i to i + n - 1 of an operand are within every bound and reached at once. -/
def reaches (s : State) (x : Cx) (write : Bool) (o : Opnd) (i n : Nat) : Bool :=
  (List.range n).all fun k => match lookup s x write o (i + k) with
    | .at_ p => placeOpen s write p
    | _ => false

/-- Whether the tags let every access to bytes i to i + n - 1 of an operand be made at once (R226), in a state whose command has
issued. -/
def tagsOpen (s : State) (x : Cx) (write : Bool) (mode : Nat) (o : Opnd) (i n : Nat) : Bool :=
  (List.range n).all fun k => match lookup s x write o (i + k) with
    | .at_ (.core c off) => s.tagReady x write mode c (off / 64)
    | _ => true

/-- Whether every byte of a memory operand of a command is reached at once, and its tags wait for nothing in the state t in which
the command has issued. -/
def operOk (s t : State) (x : Cx) (p : Oper) : Bool :=
  (x.opnd p.write p.addr).elim false fun o =>
    p.runs.all fun r => reaches s x p.write o r.1 r.2 && tagsOpen t x p.write p.mode o r.1 r.2

/-- Whether every memory operand of a command is reached at once, and its tags wait for nothing. -/
def opersOk (s t : State) (x : Cx) (i : Instr) : Bool := (opersOf s x i).all (operOk s t x)

/-- One byte cell of a memory. -/
inductive MemCell where
  | core (c off : Nat)
  | shared (off : Nat)
  | stacked (pa : Nat)
  | host (va : Nat)
deriving DecidableEq, Repr

/-- The cell at which a place lies; none for a window, and for a stacked address whose page is not held. -/
def cellOf (s : State) : Place → Option MemCell
  | .core c off => some (.core c off)
  | .shared off => some (.shared off)
  | .stacked va => (Sparse.get none s.tlb (va / 2 ^ 21)).map fun p => .stacked (p.1 * 2 ^ 21 + va % 2 ^ 21)
  | .host va => some (.host va)
  | .window _ _ => none

/-- The byte of a cell. -/
def State.cell (s : State) : MemCell → Byte
  | .core c off => Sparse.get 0 (s.core c).mem off
  | .shared off => Sparse.get 0 s.shared off
  | .stacked pa => Sparse.get 0 s.stacked pa
  | .host va => Sparse.get 0 s.host va

/-- The cell of byte i of an operand. -/
def operCell (s : State) (x : Cx) (write : Bool) (o : Opnd) (i : Nat) : Option MemCell :=
  match lookup s x write o i with
  | .at_ p => cellOf s p
  | _ => none

/-- Whether an operand covers a cell. -/
def Oper.covers (s : State) (x : Cx) (p : Oper) (m : MemCell) : Bool :=
  (x.opnd p.write p.addr).elim false fun o => p.runs.any fun r =>
    (List.range r.2).any fun k => decide (operCell s x p.write o (r.1 + k) = some m)

/-- Every byte of every memory that no written operand of a command covers reads after it as before; bytes of the host only
where the event ring is not in use, whose records stand there. -/
def WritesOnly (s t : State) (x : Cx) (i : Instr) : Prop :=
  ∀ m : MemCell, ((opersOf s x i).all fun p => !p.write || !p.covers s x m) = true →
    (match m with | .host _ => s.eqEnabled = false | _ => True) → t.cell m = s.cell m

/-! ### Tile rows -/

/-- Logical tile row t as a command of a job that writes it finds it (R66, R67, R70). -/
def Core.rowAt (k : Core) (replay : Bool) (t : Nat) : TileRow := k.physRow (k.baseRowNo replay t)

/-- Whether tile rows lie in range and are of modes that p admits (R63). -/
def rowsFit (k : Core) (replay : Bool) (p : Nat → Bool) (rows : List Nat) : Bool :=
  rows.all fun t => decide (t ≤ if replay then 255 else 511) && p (wordMode (k.rowAt replay t).word)

/-- A core with the tile rows of another, their pairs, group and cycles. -/
def Core.rowsOf (k k' : Core) : Core :=
  { k with acm := k'.acm, acmWord := k'.acmWord, acmParity := k'.acmParity, live := k'.live, dirty := k'.dirty
           group := k'.group, lastCycles := k'.lastCycles }

/-- What a command of job j that writes the tile rows leaves of the others, and how their pairs stand: without the replay flag
only the live rows change; with it each pair is held dirty, until a commit point makes its written row the live one (R66 to
R68, R70). -/
def rowsWritten (s t : State) (j : Job) (c : Nat) (commit : Bool) (rows : List Nat) : Prop :=
  let k := s.core c
  let k' := t.core c
  let pairs := rows.map (· % 256)
  (∀ r, r ∉ rows.map (k.writeRowNo j.desc.replay) → k'.physRow r = k.physRow r) ∧
    (j.desc.replay = false → k'.live = k.live ∧ k'.dirty = k.dirty ∧ t.reg (Reg.ACM_COMMITS c) = s.reg (Reg.ACM_COMMITS c)) ∧
    (j.desc.replay = true → commit = false → k'.live = k.live ∧ t.reg (Reg.ACM_COMMITS c) = s.reg (Reg.ACM_COMMITS c) ∧
      ∀ p, k'.holders p = if p ∈ pairs ∧ j.num ∉ k.holders p then k.holders p ++ [j.num] else k.holders p) ∧
    (j.desc.replay = true → commit = true → (∀ p, p < 256 → k'.live.getLsbD p = (k.live.getLsbD p != decide (p ∈ pairs))) ∧
      (∀ p, k'.holders p = if p ∈ pairs then [] else k.holders p) ∧
      t.reg (Reg.ACM_COMMITS c) = s.reg (Reg.ACM_COMMITS c) + BitVec.ofNat 64 pairs.dedup.length)

/-- Jobs without what a running command may add to job num: flags, journal, frozen slots, observations. -/
def jobsBut (num : Nat) (l : List Job) : List Job :=
  l.map fun k => if k.num = num then { k with flags := JobFlags.none, journal := [], frozen := [], observed := [] } else k

/-! ### A tile command at the head of its buffer -/

/-- What a tile command knows of itself when it issues now. -/
def headCx (s : State) (j : Job) (c : Nat) (h : Hdr) (i : Instr) : Cx := cxOf j c h i (s.issueRecord j c i h)

/-- A tile command stands at the head of the buffer of core c, of job j: its cluster runs, the core has no command in
progress, and the list is not at its end (R294, R303, R405). -/
structure InTurn (s : State) (j : Job) (c : Nat) : Prop where
  job : s.jobOn c = some j
  clock : s.clockStopped c = false
  idle : (s.core c).issued = []
  free : blocked s c = false
  more : (s.core c).nextSeq < j.desc.cmdCount

/-- The causes for refusal of a command at the head (R300): those that it shows itself, a 65th frozen slot of its job (R114), a
table that is too large (R124). -/
def headCauses (s : State) (j : Job) (c : Nat) (h : Hdr) (i : Instr) : List Nat :=
  causes s (rowsOf s (headCx s j c h i)) j c h i ++ freezeCauses s j i ++ tableCauses s (headCx s j c h i) i

/-- A tile command stands at the head with nothing before it, no cause for refusal, and the core is not skipping (R300,
R312). -/
structure AtHead (s : State) (j : Job) (c : Nat) (h : Hdr) (i : Instr) : Prop extends InTurn s j c where
  turn : (s.core c).skip = 0
  fits : leastCause (headCauses s j c h i) = none

/-- The state in which an issued command stands: its record with its footprint and its latched exponent, the core's next command
and the count of issued ones (R110, R208, R317). -/
def State.issued (s : State) (j : Job) (c : Nat) (h : Hdr) (i : Instr) : State :=
  let x := headCx s j c h i
  (s.issue c i h x.iss (rowsOf s x i)).record x i

/-- A tile command at the head that may start at once: the banks that it books are on (R238), and no check, no other core at the
sparse engine and no bubble holds it (R154, R157, R412). -/
structure Starts (s : State) (j : Job) (c : Nat) (h : Hdr) (i : Instr) : Prop extends AtHead s j c h i where
  banks : ∀ r ∈ (s.issued j c h i).issuedOf c h.seq.toNat, ∀ b ∈ r.banks, s.bankReady b.1 = true
  free_ : ready (s.issued j c h i) ((headCx s j c h i).fresh (s.issued j c h i)) i = true

/-- Core c after a command has issued and completed: the list goes on, and its issue has done to the anchor and the rescale group
what R80 and R81 say (R80, R81, R294, R296, R317). -/
def Core.passed (k : Core) (i : Instr) (h : Hdr) (rows : List Nat) : Core :=
  { (k.onGroup i h rows).next with seqState := .running, issued := [] }

/-- Core c after the command at its head has issued and completed with no effect but that. -/
def State.after (s : State) (j : Job) (c : Nat) (h : Hdr) (i : Instr) : Core :=
  (s.core c).passed i h (rowsOf s (headCx s j c h i) i)

/-- What completion does beside the core: answered requests of the command are forgotten (R334, R366). -/
def State.forgets (s : State) (job c seq : Nat) : State :=
  { s with
    requests := s.requests.filter fun r => !(decide (r.job = job ∧ r.core = c ∧ r.seq = seq) && r.answer.isSome)
    pageReqs := s.pageReqs.filter fun r => !(decide (r.job = job ∧ r.core = c ∧ r.seq = seq) && r.answered) }

/-- The Heliostat's state but for the activity that its clusters have counted in this µs (R409). -/
def Power.still (p : Power) : Power := { p with clusters := p.clusters.map fun q => { q with activity := noActivity } }

/-- The cores of s with k in the place of core c. -/
def State.coresWith (s : State) (c : Nat) (k : Core) (d : Nat) : Core := if d = c then k else s.core d

/-- Between s and t a command of core c, of job j, has completed: the cores stand as given, it was counted, of the other
registers only those listed may have changed, and of the rest of the device, but for counted activity, nothing but what extra
puts into place. -/
def CompletedAs (s t : State) (j : Job) (c : Nat) (h : Hdr) (cores : Nat → Core) (regs : List Nat) (extra : State → State) :
    Prop :=
  (∀ d, t.core d = cores d) ∧ t.reg (Reg.SEQ_ISSUED c) = s.reg (Reg.SEQ_ISSUED c) + 1
    ∧ (∀ off, off ≠ Reg.SEQ_ISSUED c → off ∉ regs → t.reg off = s.reg off) ∧ t.power.still = s.power.still
    ∧ t = extra { s.forgets j.num c h.seq.toNat with cores := t.cores, regs := t.regs, power := t.power }

/-- The cores that the sparse engines served last, once the engine of core c has taken a command of it (R157). -/
def State.servedAt (s : State) (c : Nat) : Sparse Nat := Sparse.set 0 s.speLast (c / 64) (c % 64 + 1)

/-- A core with the memory and the tags of another. -/
def Core.memOf (k k' : Core) : Core := { k with mem := k'.mem, full := k'.full }

/-- Between s and t a command of core c, of job j, that works on memory has completed: it was counted; core c is k, the
other cores as before, but for memory bytes and tags; of the other registers only those listed may have changed; and of the
rest of the device, but for its memory bytes, when its banks were last used and counted activity, nothing but what extra puts
into place. -/
def CompletedData (s t : State) (j : Job) (c : Nat) (h : Hdr) (k : Core) (regs : List Nat) (extra : State → State) : Prop :=
  (∀ d, t.core d = (s.coresWith c k d).memOf (t.core d)) ∧ t.reg (Reg.SEQ_ISSUED c) = s.reg (Reg.SEQ_ISSUED c) + 1
    ∧ (∀ off, off ≠ Reg.SEQ_ISSUED c → off ∉ regs → t.reg off = s.reg off) ∧ t.power.still = s.power.still
    ∧ t = extra { s.forgets j.num c h.seq.toNat with
        cores := t.cores, regs := t.regs, power := t.power, shared := t.shared, stacked := t.stacked, host := t.host
        bankIdle := t.bankIdle }

/-- Whether a record fits into the journal of a job that writes one (R325). -/
def State.journalRoom (s : State) (j : Job) (r : JRec) : Prop :=
  j.replayable = true → j.records + r.size ≤ s.fld Reg.GLB_JNL_CTRL 0 17 ∧ s.journalUsed + r.size ≤ 65536

/-- The jobs with a record appended to the log of job j, where j is replayable (R323). -/
def State.jobsWith (s : State) (j : Job) (r : JRec) : List Job :=
  if j.replayable then (s.modJob j.num fun j => { j with journal := j.journal ++ [r] }).jobs else s.jobs

/-- Bytes put into a core's memory, whose slot is FULL from then on (R226). -/
def Core.putFull (k : Core) (off : Nat) (bs : List Byte) : Core :=
  { k with mem := Sparse.setList 0 k.mem off bs, full := Sparse.set false k.full (off / 64) true }

/-- The first byte of core memory behind a res field of a command (R218, R302). -/
def resByte (x : Cx) (res : BitVec 19) : Nat := x.iss.task.coreBase + res.toNat

/-- Bytes in core memory. -/
def coreBytes (k : Core) (off n : Nat) : List Byte := Sparse.getList 0 k.mem off n

/-- A core of a job goes on after a command: it stands at its next command with none in progress, the command was counted,
and the job still executes (R296, R317). -/
def GoesOn (s t : State) (c : Nat) : Prop :=
  (t.core c).nextSeq = (s.core c).nextSeq + 1 ∧ (t.core c).issued = []
    ∧ t.reg (Reg.SEQ_ISSUED c) = s.reg (Reg.SEQ_ISSUED c) + 1 ∧ (t.jobOn c).isSome = true

end Sys2Proof.Machine
end

