-- ==== Sys2Proof/Certificates/Slice0/Obligations.lean ====
section
/-!
DEFINITION. The statements about the model, for the provers. Names of rules are those of spec/.
-/

open Sys2Proof Sys2Proof.Machine

namespace Sys2Proof.Certificates.Slice0

/-- What completion of a simple command puts into place beside cores and registers: nothing. -/
def nothingElse (u : State) : State := u

/-- The core after a command that wrote 8 bytes to its res field, where it writes any (R302, R306, R312). -/
def stored (k : Core) (x : Cx) (en : Bool) (res : BitVec 19) (bs : List Byte) : Core :=
  if en then k.putFull (resByte x res) bs else k

/-- The seven SYNC commands with a counter operation, each with its operation (R306). -/
def syncRows (c : CoreId) (h : Hdr) (f : SyncArgs) : List (CtrOp × Instr) :=
  [(.add, .syncAdd c h f), (.set, .syncSet c h f), (.max, .syncMax c h f), (.min, .syncMin c h f), (.or, .syncOr c h f),
    (.and, .syncAnd c h f), (.cas, .syncCas c h f)]

/-- An integer held within 32 bits, as a tile row's entry holds it (R71, R79). -/
def clamp32 (v : Int) : Int := max (-(2 ^ 31)) (min (2 ^ 31 - 1) v)

/-- n elements of w bits that stand in core memory from a byte on (R96). -/
def elemsAt (k : Core) (byte w n : Nat) : List Nat :=
  let v := ofBytes (coreBytes k byte (ceilDiv (w * n) 8))
  (List.range n).map fun i => v >>> (w * i) % 2 ^ w

/-- The exponent that a FIRE, FIRET or SPT names: immediate, or that of a slot which the job has frozen (R110, R116). -/
def exponentIs (s : State) (j : Job) (c : Nat) (sel : Bool) (exp : BitVec 10) (e : Int) : Prop :=
  (sel = false ∧ e = exp.toInt) ∨ (sel = true ∧ ∃ z, j.frozenAt exp.toNat = some z ∧ e = s.passExp c z.eJob)

/-- What one contribution event makes of a row in which no retry is possible: outputs n0, n0 + 1, … of an integer row are
added and held within 32 bits, those of a float row are promoted with their values; entries beyond them stay; the event is
counted up to the bound (R71, R74, R75, R78). -/
def contributed (row row' : TileRow) (runs : List Int) (value : Nat → Val) (n0 : Nat) : Prop :=
  wordMode row'.word = wordMode row.word ∧ wordPolicy row'.word = wordPolicy row.word ∧
    wordCount row'.word = (if wordCount row.word < 2 ^ 20 then wordCount row.word + 1 else wordCount row.word) ∧
    (wordMode row.word = 0 → ∀ a, a < 64 → (row'.entries.getD a 0).toInt =
      if n0 + a < runs.length then clamp32 ((row.entries.getD a 0).toInt + runs.getD (n0 + a) 0)
      else (row.entries.getD a 0).toInt) ∧
    (wordMode row.word = 1 → ∀ a, a < 32 → pairAt row' a =
      if n0 + a < runs.length then (promote (decide (wordPolicy row.word = 2)) (pairAt row a) (value (n0 + a))).1
      else pairAt row a)

/-- The registers of a core that a command of the tile rows may change beside those of its engine. -/
def rowRegs (c : Nat) : List Nat := [Reg.ACM_COMMITS c, Reg.ACM_SAT_EVENTS c, Reg.ACM_SAT_LOG c, Reg.ACM_LAPSES c]

/-- The w bits from a bit of an operand on, as state t holds them at the cells that the operand names in state s. -/
def elemIn (s t : State) (x : Cx) (write : Bool) (o : Opnd) (bit w : Nat) : Nat :=
  ofBytes ((List.range (ceilDiv (bit % 8 + w) 8)).map fun k => ((operCell s x write o (bit / 8 + k)).map t.cell).getD 0)
    >>> (bit % 8) % 2 ^ w

/-- Different bytes of a written operand lie in different cells, and no cell of it is read by the command or written through
another operand; where inPlace holds, another operand may be the same bytes. -/
def Apart (s : State) (x : Cx) (i : Instr) (inPlace : Bool) : Prop :=
  ∀ p ∈ opersOf s x i, p.write = true →
    (∀ o, x.opnd true p.addr = some o → ∀ r ∈ p.runs, ∀ r' ∈ p.runs, ∀ k < r.2, ∀ k' < r'.2,
      operCell s x true o (r.1 + k) = operCell s x true o (r'.1 + k') → r.1 + k = r'.1 + k') ∧
    ∀ q ∈ opersOf s x i, q ≠ p →
      (inPlace = true ∧ x.opnd q.write q.addr = x.opnd p.write p.addr ∧ q.runs = p.runs) ∨
      ∀ m, p.covers s x m = true → q.covers s x m = false

/-- Whether every memory operand of a command at the head is reached at once, and its tags wait for nothing (R226). -/
def opersReady (s : State) (j : Job) (c : Nat) (h : Hdr) (i : Instr) : Prop :=
  opersOk s (s.issued j c h i) (headCx s j c h i) i = true

/-- A tile command at the head whose memory operands are reached at once, in a core with no check pending. -/
structure DataReady (s : State) (j : Job) (c : Nat) (h : Hdr) (i : Instr) : Prop extends Starts s j c h i where
  order : s.ordered
  sound : s.faultless
  reach : opersReady s j c h i
  unchecked : (s.core c).check = none

/-- A command of the tile rows at the head whose rows lie in range and whose commit record would fit. -/
structure RowsReady (s : State) (j : Job) (c : Nat) (h : Hdr) (i : Instr) (rows : List Nat) : Prop extends
    DataReady s j c h i where
  range : ∀ t ∈ rows, t ≤ if j.desc.replay then 255 else 511
  room : s.journalRoom j (.commit c h.seq.toNat [])

/-- The exponent under which an anchor quantises: that of its slot, which the job has frozen (R112, R116). -/
def anchorIs (s : State) (j : Job) (c : Nat) (slot : BitVec 10) (e : Int) : Prop :=
  ∃ z, j.frozenAt slot.toNat = some z ∧ e = s.passExp c z.eJob

/-- Element y of tree i of a product of K elements: the indices that it sums (R132). -/
def treeTerms (t k i : Nat) : List Nat := ((List.range t).map (· + t * i)).filter (· < k)

/-- The registers that conversions count in. -/
def convRegs : List Nat := [Reg.GLB_CONV_OVF, Reg.GLB_CONV_NAN, Reg.GLB_EXP_CLIPS, Reg.GLB_BLK_NONFINITE]

/-- n bytes of an operand from byte i on, as state t holds them at the cells that the operand names in state s. -/
def bytesIn (s t : State) (x : Cx) (write : Bool) (o : Opnd) (i n : Nat) : List Byte :=
  (List.range n).map fun k => ((operCell s x write o (i + k)).map t.cell).getD 0

/-- The facet that FLOAD leaves, given the row images it loaded: its format, LOADED, every row as read, zeroed or kept, each
written row with its parity (R41, R44 to R48). -/
def loadedFacet (g g' : Facet) (f : FloadArgs) (img : Nat → RowImage) (now : Nat) : Prop :=
  let first := f.rowFirst.toNat
  let n := f.rowCount.toNat
  let differs := decide (g.fmt ≠ f.fmt)
  g'.fmt = f.fmt ∧ g'.state = .loaded ∧ g'.marks = [] ∧ g'.expMarks = [] ∧ g'.refills = [] ∧
    ∀ r, r < 1024 →
      let written := decide (first ≤ r ∧ r < first + n ∨ r < first ∧ differs = true ∨ first + n ≤ r ∧ (differs || f.zeroRest) = true)
        || decide (f.fmt = 8)
      Sparse.get 0 g'.rows r = (if first ≤ r ∧ r < first + n then img r else if written then 0 else Sparse.get 0 g.rows r) ∧
      (written = true → Sparse.get 0 g'.rowParity r = rowParityOf (Sparse.get 0 g'.rows r) ∧ Sparse.get 0 g'.lastClean r = now)

/-- The merge of an incoming row into a local one whose additions no retry takes up (R91). -/
def mergedRow (inc loc new : TileRow) : Prop :=
  new.word = (mergeWord inc.word (setSat loc.word ((mergeChanges Core.reset inc loc).any fun c => c.2.2.sat))).1 ∧
    (wordMode loc.word = 0 → ∀ e, e < 64 → (new.entries.getD e 0).toInt =
      clamp32 ((inc.entries.getD e 0).toInt + (loc.entries.getD e 0).toInt)) ∧
    (wordMode loc.word = 1 → ∀ a, a < 32 → pairAt new a =
      (mergePair (decide (wordPolicy loc.word = 2)) (pairAt inc a) (pairAt loc a)).1) ∧
    (wordMode loc.word = 2 → ∀ a, a < 16 → statAt new a = combine (statAt inc a) (statAt loc a))

/-- Bytes of a destination line of a MOVE without block scaling. -/
def moveLineBytes (m : MoveMode) (f : MoveArgs) : Nat := ceilDiv (moveW f * (dstShape m f).2) 8

/-- The lines that a MOVE without block scaling writes do not overlap. -/
def linesApart (m : MoveMode) (f : MoveArgs) : Prop :=
  ∀ i2 < moveN2 f, ∀ i1 < (dstShape m f).1, ∀ k2 < moveN2 f, ∀ k1 < (dstShape m f).1,
    (i2 = k2 ∧ i1 = k1) ∨ dstLine f i2 i1 + moveLineBytes m f ≤ dstLine f k2 k1 ∨
      dstLine f k2 k1 + moveLineBytes m f ≤ dstLine f i2 i1

/-- The index at position p of a GATHER or UPDATE (R165). -/
def indexIn (s : State) (x : Cx) (o : Opnd) (w64 : Bool) (p : Nat) : Nat :=
  ofBytes (bytesIn s s x false o (idxBytes w64 * p) (idxBytes w64)) % (if w64 then 2 ^ 40 else 2 ^ 32)

/-- The pool of a bag after the values of its rows, in ascending positions (R167). -/
def poolOf (width : Nat) (max_ : Bool) (rows : List (List Val)) : PoolAcc :=
  rows.foldl (fun a xs => a.take max_ xs) { acc := List.replicate width ⟨0, 0⟩, mx := [], n := 0, sat := false }

/-- The counters of the sparse engine of a core. -/
def speRegs (c : Nat) : List Nat :=
  [Reg.SPE_ROWS (c / 64), Reg.SPE_HOT (c / 64), Reg.SPE_OOR (c / 64), Reg.SPE_BAGS (c / 64), Reg.SPE_NNZ (c / 64),
    Reg.SPE_DENSE (c / 64), Reg.SPE_UPD_ROWS (c / 64), Reg.SPE_DUP (c / 64), Reg.SPE_QFULL (c / 64), Reg.GLB_SR_VALUES]

/-- What UPDATE stores for one element: the rounding of its exact new value, to nearest or drawn (R99, R101, R125, R175); none
where a drawn rounding has no grid, whose result the spec leaves open. -/
def updatedElem (f : UpdateArgs) (t : Table) (sat : Bool) (scale : Val) (row e : Nat) (v : Val) : Option NewElem :=
  if f.rndSr then
    match floatFmt t.fmt with
    | some g => some (srFloat g v (srBits f.seed.toNat f.step.toNat (row * t.width + e)))
    | none => srQuant t scale v (srBits f.seed.toNat f.step.toNat (row * t.width + e))
  else some (rneElem t sat scale v)

end Sys2Proof.Certificates.Slice0

open Sys2Proof.Certificates.Slice0

/-! ### Tile commands of the sequencer -/

/-- NOP, PHASE, TASK and BALLAST FIXED at the head complete: the list goes on, PHASE leaves its operating point (R403),
TASK the entry of its one space (R219, R221), BALLAST FIXED its time and, for the Heliostat, the activity of its filler (R419), and
nothing else changes. -/
def Obligations.SequencerOnlyCommands : Prop :=
  ∀ (s : State) (j : Job) (c : CoreId) (h : Hdr), s.ordered →
    (AtHead s j c.toNat h (.nop c h) → ∃ t, exec (.nop c h) s = .next t ∧
      CompletedAs s t j c.toNat h (s.coresWith c.toNat (s.after j c.toNat h (.nop c h))) [] nothingElse) ∧
    (∀ op, let i := Instr.phase c h op
      AtHead s j c.toNat h i → ∃ t, exec i s = .next t ∧
      CompletedAs s t j c.toNat h (s.coresWith c.toNat { s.after j c.toNat h i with phaseOp := some op }) [] nothingElse) ∧
    (∀ f n, let i := Instr.ballastFixed c h f n
      AtHead s j c.toNat h i → ∃ t, exec i s = .next t ∧
      CompletedAs s t j c.toNat h (s.coresWith c.toNat { s.after j c.toNat h i with lastCycles := n.toNat }) []
        nothingElse ∧
      (t.cluster (c.toNat / 64)).activity.getD 8 0 =
        (s.cluster (c.toNat / 64)).activity.getD 8 0 + if f.refractor then f.level.toNat * n.toNat else 0) ∧
    (∀ f, let i := Instr.task c h f
      AtHead s j c.toNat h i → ∃ t task, exec i s = .next t ∧
      CompletedAs s t j c.toNat h (s.coresWith c.toNat { s.after j c.toNat h i with task := task }) [] nothingElse ∧
      ∀ sp, sp < 4 → task.entry sp = if sp = f.space.toNat then (f.base.toNat, f.bound.toNat)
        else (s.core c.toNat).task.entry sp)

/-- WAIT and BALLAST UNTIL complete at once where the condition holds of the counter; where it does not, the core waits on
it, with the command issued and not complete (R307, R419). -/
def WaitsOnCounter : Prop :=
  ∀ (s : State) (j : Job) (c : CoreId) (h : Hdr) (w : WaitArgs) (i : Instr) (b : Option BallastArgs), s.ordered →
    (s.core c.toNat).waitOn = none →
    (i = .wait c h w ∧ b = none) ∨ (∃ f, i = .ballastUntil c h f w ∧ b = some f) →
    AtHead s j c.toNat h i →
    (waitHolds w (s.ctr w.counter.toNat) = true → ∃ t, exec i s = .next t ∧
      CompletedAs s t j c.toNat h (s.coresWith c.toNat (s.after j c.toNat h i)) [] nothingElse) ∧
    (waitHolds w (s.ctr w.counter.toNat) = false → ∃ t, exec i s = .next t ∧
      t.core c.toNat = { s.after j c.toNat h i with
        seqState := .waiting, waitOn := some w, ballast := b, issued := [s.issueRecord j c.toNat i h] } ∧
      t.reg (Reg.SEQ_ISSUED c.toNat) = s.reg (Reg.SEQ_ISSUED c.toNat) + 1 ∧
      (∀ d, d ≠ c.toNat → t.core d = s.core d) ∧ (∀ off, off ≠ Reg.SEQ_ISSUED c.toNat → t.reg off = s.reg off) ∧
      t = { s with cores := t.cores, regs := t.regs })

/-- A change of counter n ends every wait on it whose condition then holds, and no other (R305, R307): the waiting command
is complete and its core runs on. -/
def CounterChangeWakes : Prop :=
  ∀ (s : State) (n : Nat) (v : Word64), s.ordered →
    (s.setCtr n v).ctr n = v ∧ (∀ m, m ≠ n → (s.setCtr n v).ctr m = s.ctr m) ∧
    (∀ d, (s.setCtr n v).core d = match (s.core d).waitOn with
      | some w => if w.counter.toNat = n ∧ waitHolds w v = true then (s.core d).endWait else s.core d
      | none => s.core d) ∧
    s.setCtr n v = { s with sync := (s.setCtr n v).sync, cores := (s.setCtr n v).cores }

/-- What the four conditions of WAIT ask of a counter (R302), and what the seven operations make of one (R306). -/
def CounterConditionsAndOperations : Prop :=
  (∀ (n : BitVec 13) (a v : Word64), (waitHolds ⟨n, 0, a⟩ v = true ↔ a.toNat ≤ v.toNat) ∧
    (waitHolds ⟨n, 1, a⟩ v = true ↔ v = a) ∧ (waitHolds ⟨n, 2, a⟩ v = true ↔ v ≠ a) ∧
    (waitHolds ⟨n, 3, a⟩ v = true ↔ ∃ k, v.getLsbD k = true ∧ a.getLsbD k = true)) ∧
  ∀ v a b : Word64, (CtrOp.add.apply v a b).toNat = (v.toNat + a.toNat) % 2 ^ 64 ∧ CtrOp.set.apply v a b = a ∧
    (CtrOp.max.apply v a b).toNat = max v.toNat a.toNat ∧ (CtrOp.min.apply v a b).toNat = min v.toNat a.toNat ∧
    (∀ k, (CtrOp.or.apply v a b).getLsbD k = (v.getLsbD k || a.getLsbD k)) ∧
    (∀ k, (CtrOp.and.apply v a b).getLsbD k = (v.getLsbD k && a.getLsbD k)) ∧
    CtrOp.cas.apply v a b = if v = b then a else v

/-- FENCE with nothing of its kinds unacknowledged completes; with a write that vis asks for, of an engine of the mask, or with
remote a write or SYNC to another device, it waits, issued (R303). -/
def FenceWaitsForAcknowledges : Prop :=
  ∀ (s : State) (j : Job) (c : CoreId) (h : Hdr) (f : FenceArgs), s.ordered → AtHead s j c.toNat h (.fence c h f) →
    let i := Instr.fence c h f
    let x := headCx s j c.toNat h i
    let acks := (f.vis && s.unacked x fun r => r.isWrite && (opEngines r.op).any (fenceCovers f.mask))
      || (f.remote && s.unacked x fun r => r.isWrite || r.isSync)
    (acks = false → ∃ t, exec i s = .next t ∧
      CompletedAs s t j c.toNat h (s.coresWith c.toNat (s.after j c.toNat h i)) [] nothingElse) ∧
    (acks = true → ∃ t, exec i s = .next t ∧ t.held = s.held ++ [i] ∧
      t.core c.toNat = { s.after j c.toNat h i with issued := [s.issueRecord j c.toNat i h] } ∧
      t.reg (Reg.SEQ_ISSUED c.toNat) = s.reg (Reg.SEQ_ISSUED c.toNat) + 1 ∧ (∀ d, d ≠ c.toNat → t.core d = s.core d) ∧
      (∀ off, off ≠ Reg.SEQ_ISSUED c.toNat → t.reg off = s.reg off) ∧ t = { s with held := t.held, cores := t.cores, regs := t.regs })

/-- WINDOW OPEN binds a free window for the job (R246); WINDOW CLOSE closes a window of the job through which no access is
outstanding (R249), and leaves the window of another job. -/
def WindowsOpenAndClose : Prop :=
  ∀ (s : State) (j : Job) (c : CoreId) (h : Hdr), s.ordered →
    (∀ f, AtHead s j c.toNat h (.windowOpen c h f) → ∃ t, exec (.windowOpen c h f) s = .next t ∧
      CompletedAs s t j c.toNat h (s.coresWith c.toNat (s.after j c.toNat h (.windowOpen c h f))) [] fun u =>
        { u with windows := s.windows ++ [(f.window.toNat, ⟨j.num, f.rdev, f.stacked, f.base.toNat, f.size.toNat, f.rd,
          f.wr⟩)] }) ∧
    (∀ n, AtHead s j c.toNat h (.windowClose c h n) →
      (∀ w, (n.toNat, w) ∈ s.windows → w.job = j.num → ∀ r ∈ s.requests, r.answer.isSome = true ∨ r.through w = false) →
      ∃ t, exec (.windowClose c h n) s = .next t ∧
      CompletedAs s t j c.toNat h (s.coresWith c.toNat (s.after j c.toNat h (.windowClose c h n))) [] fun u =>
        { u with windows := if s.windows.any fun w => decide (w.1 = n.toNat ∧ w.2.job = j.num)
            then s.windows.filter fun w => decide (w.1 ≠ n.toNat) else s.windows })

/-- Each local SYNC with a counter operation sets its counter to the operation's result, wakes the waits on it, counts the
operation, journals the old value for a replayable job, and with fetch stores the old value to res (R304, R306, R307,
R315). -/
def LocalSyncApplies : Prop :=
  ∀ (s : State) (j : Job) (c : CoreId) (h : Hdr) (f : SyncArgs) (p : CtrOp × Instr), p ∈ syncRows c h f → s.ordered →
    s.faultless → Starts s j c.toNat h p.2 → f.remote = false →
    let x := headCx s j c.toNat h p.2
    let n := f.counter.toNat
    let old := s.ctr n
    let new := p.1.apply old f.operand f.compare
    let k := stored ((s.after j c.toNat h p.2).wake n new) x f.fetch f.res (toBytes 8 old.toNat)
    s.unacked x Request.isWrite = false → (∀ old', JRec.sync c.toNat h.seq.toNat old' ∉ j.journal) →
    s.journalRoom j (.sync c.toNat h.seq.toNat old) → opersReady s j c.toNat h p.2 →
    ∃ t, exec p.2 s = .next t ∧ t.ctr n = new ∧ (∀ m, m ≠ n → t.ctr m = s.ctr m) ∧
      t.reg Reg.SYN_OPS = s.reg Reg.SYN_OPS + 1 ∧
      CompletedAs s t j c.toNat h (fun d => if d = c.toNat then k else (s.core d).wake n new) [Reg.SYN_OPS] fun u =>
        { u with sync := t.sync, jobs := s.jobsWith j (.sync c.toNat h.seq.toNat old) }

/-- A SYNC whose identity the job's log already holds is not applied again; with fetch it stores the journalled old value
(R315, R329). -/
def JournalledSyncIsNotRepeated : Prop :=
  ∀ (s : State) (j : Job) (c : CoreId) (h : Hdr) (f : SyncArgs) (p : CtrOp × Instr) (old : Word64), p ∈ syncRows c h f →
    s.ordered → s.faultless → Starts s j c.toNat h p.2 →
    let x := headCx s j c.toNat h p.2
    s.unacked x Request.isWrite = false → j.journal.findSome? (oldOf c.toNat h.seq.toNat) = some [old.toNat] →
    opersReady s j c.toNat h p.2 →
    ∃ t, exec p.2 s = .next t ∧ CompletedAs s t j c.toNat h (s.coresWith c.toNat
      (stored (s.after j c.toNat h p.2) x f.fetch f.res (toBytes 8 old.toNat))) [] nothingElse

/-- POST puts its value, or the 8 bytes at res, into the mailbox of the job's ring, whose ninth entry displaces the oldest
and sets overflow; the counter stays, and with fetch is stored to res (R284, R304, R306). -/
def PostReachesMailbox : Prop :=
  ∀ (s : State) (j : Job) (c : CoreId) (h : Hdr) (f : SyncArgs), s.ordered → s.faultless →
    Starts s j c.toNat h (.syncPost c h f) →
    let x := headCx s j c.toNat h (.syncPost c h f)
    let r := s.ring j.ring
    let v := if f.postMem then BitVec.ofNat 64 (ofBytes (coreBytes (s.core c.toNat) (resByte x f.res) 8)) else f.operand
    let old := s.ctr f.counter.toNat
    let k := stored (s.after j c.toNat h (.syncPost c h f)) x f.fetch f.res (toBytes 8 old.toNat)
    s.unacked x Request.isWrite = false → (∀ o, JRec.post c.toNat h.seq.toNat o ∉ j.journal) →
    s.journalRoom j (.post c.toNat h.seq.toNat old) → opersReady s j c.toNat h (.syncPost c h f) →
    ∃ t, exec (.syncPost c h f) s = .next t ∧ t.reg Reg.SYN_OPS = s.reg Reg.SYN_OPS + 1 ∧
      t.ring j.ring = (if r.mbox.length < 8 then { r with mbox := r.mbox ++ [v] }
        else { r with mbox := r.mbox.drop 1 ++ [v], overflow := true }) ∧ (∀ n, n ≠ j.ring → t.ring n = s.ring n) ∧
      CompletedAs s t j c.toNat h (s.coresWith c.toNat k) [Reg.SYN_OPS] fun u =>
        { u with rings := t.rings, jobs := s.jobsWith j (.post c.toNat h.seq.toNat old) }

/-- A POST that the job's log holds is not made again; with fetch it stores the recorded counter value (R315, R323, R329). -/
def JournalledPostIsNotRepeated : Prop :=
  ∀ (s : State) (j : Job) (c : CoreId) (h : Hdr) (f : SyncArgs) (old : Word64), s.ordered → s.faultless →
    let i := Instr.syncPost c h f
    Starts s j c.toNat h i →
    let x := headCx s j c.toNat h i
    s.unacked x Request.isWrite = false → j.journal.findSome? (postedBy c.toNat h.seq.toNat) = some [old.toNat] →
    opersReady s j c.toNat h i →
    ∃ t, exec i s = .next t ∧ CompletedAs s t j c.toNat h (s.coresWith c.toNat
      (stored (s.after j c.toNat h i) x f.fetch f.res (toBytes 8 old.toNat))) [] nothingElse

/-- CLAIM NEXT without a bitmap takes the counter's value below the limit and raises the counter; with one it takes the
least index from the counter's value on whose bit is clear, sets the bit and moves the counter behind it; at the limit it
answers EXHAUSTED and changes no counter (R310). -/
def ClaimNextTakesTheLeastFreeIndex : Prop :=
  ∀ (s : State) (f : ClaimArgs), s.ordered → f.counter.toNat + f.bm.toNat ≤ 8191 → 64 * f.bm.toNat < 2 ^ 32 →
    let n := f.counter.toNat
    let v := (s.ctr n).toNat
    let free := fun i => v ≤ i ∧ i < f.limit.toNat ∧ (f.bm ≠ 0 → i < 64 * f.bm.toNat ∧ s.claimBit n i = false)
    let r := s.claimNext f
    (∀ i, free i → (∀ k, k < i → ¬ free k) → (f.bm = 0 → i = v) →
      r.1 = ⟨i, false, false⟩ ∧ (r.2.ctr n).toNat = (i + 1) % 2 ^ 64 ∧ r.2.freeCount = s.freeCount ∧
      (f.bm ≠ 0 → ∀ k, k < 64 * f.bm.toNat → r.2.claimBit n k = (s.claimBit n k || decide (k = i))) ∧
      (∀ m, m ≠ n → (f.bm = 0 ∨ m ≠ n + 1 + i / 64) → r.2.ctr m = s.ctr m)) ∧
    ((∀ i, ¬ free i) → r.1.exhausted = true ∧ r.1.already = false ∧ ∀ m, r.2.ctr m = s.ctr m) ∧
    (f.bm ≠ 0 → 64 * f.bm.toNat < f.limit.toNat → ∀ c h, staticCauses (.claimNext c h f) ≠ [])

/-- CLAIM EXPLICIT below the limit answers ALREADY where the bit of its index is set and sets the bit where it is clear; at
or above the limit it answers EXHAUSTED; it needs a bitmap (R311). -/
def ClaimExplicitSetsItsBit : Prop :=
  ∀ (s : State) (f : ClaimArgs), s.ordered →
    (f.bm = 0 → ∀ c h, staticCauses (.claimExplicit c h f) ≠ []) ∧
    (f.bm ≠ 0 → f.limit.toNat ≤ 64 * f.bm.toNat → f.counter.toNat + f.bm.toNat ≤ 8191 →
      let n := f.counter.toNat
      let i := f.index.toNat
      let r := s.claimExplicit f
      (f.limit.toNat ≤ i → r.1.exhausted = true ∧ r.1.already = false ∧ ∀ m, r.2.ctr m = s.ctr m) ∧
      (i < f.limit.toNat → s.claimBit n i = true → r = (⟨i, false, true⟩, s)) ∧
      (i < f.limit.toNat → s.claimBit n i = false → r.1 = ⟨i, false, false⟩ ∧ r.2.freeCount = s.freeCount ∧
        (∀ k, r.2.claimBit n k = (s.claimBit n k || decide (k = i))) ∧ r.2.ctr n = s.ctr n))

/-- Either CLAIM at the head completes with its result: X and the strides on success, the commands to skip on EXHAUSTED or
ALREADY, the result's 8 bytes at res where asked for, the claim counted and journalled (R299, R304, R310 to R312, R315). -/
def ClaimCompletes : Prop :=
  ∀ (s : State) (j : Job) (c : CoreId) (h : Hdr) (f : ClaimArgs) (i : Instr) (r : Claimed) (u : State), s.ordered →
    s.faultless → (i = .claimNext c h f ∧ s.claimNext f = (r, u)) ∨ (i = .claimExplicit c h f ∧ s.claimExplicit f = (r, u)) →
    Starts s j c.toNat h i →
    let x := headCx s j c.toNat h i
    let k := stored (((u.core c.toNat).passed i h []).claimed f r) x f.resEn f.res r.bytes
    s.unacked x Request.isWrite = false → (∀ a e y, JRec.claim c.toNat h.seq.toNat a e y ∉ j.journal) →
    s.journalRoom j (.claim c.toNat h.seq.toNat r.index r.exhausted r.already) → opersReady s j c.toNat h i →
    ∃ t, exec i s = .next t ∧ t.reg Reg.SYN_CLAIMS = s.reg Reg.SYN_CLAIMS + 1 ∧
      t.reg Reg.SYN_ALREADY = s.reg Reg.SYN_ALREADY + BitVec.ofNat 64 r.already.toNat ∧
      t.reg Reg.SYN_OPS = s.reg Reg.SYN_OPS + 1 ∧
      CompletedAs s t j c.toNat h (fun d => if d = c.toNat then k else u.core d)
        [Reg.SYN_CLAIMS, Reg.SYN_ALREADY, Reg.SYN_OPS] fun w =>
        { w with sync := u.sync, freeCount := u.freeCount
                 jobs := s.jobsWith j (.claim c.toNat h.seq.toNat r.index r.exhausted r.already) }

/-- CLAIM: which index NEXT and EXPLICIT take, what they set, which limits and bitmaps they refuse, and how either completes
with its result (R299, R310 to R312, R315). -/
def Obligations.ClaimsTakeTheirIndices : Prop := ClaimNextTakesTheLeastFreeIndex ∧ ClaimExplicitSetsItsBit ∧ ClaimCompletes

/-- Counters: which waits a change ends, and how WAIT and BALLAST UNTIL complete or wait (R305, R307, R419). -/
def Obligations.CountersWakeTheirWaits : Prop := CounterChangeWakes ∧ WaitsOnCounter

/-- SYNC: what each operation makes of the counter's old value and its operand, and what each condition of WAIT asks; that a local
SYNC leaves its counter so, with the old value stored to res on fetch; that a SYNC or POST which the job's log holds is not made
again; and that POST leaves the counter and puts its value into the mailbox of the job's ring (R302, R304, R306, R315, R329). -/
def Obligations.SyncLeavesItsCounter : Prop :=
  CounterConditionsAndOperations ∧ LocalSyncApplies ∧ JournalledSyncIsNotRepeated ∧ PostReachesMailbox ∧
    JournalledPostIsNotRepeated

/-- FENCE waits for what is unacknowledged; WINDOW opens and closes (R246, R249, R303). -/
def Obligations.FencesAndWindows : Prop := FenceWaitsForAcknowledges ∧ WindowsOpenAndClose

/-! ### Tile rows -/

/-- ACMINIT gives each of its rows the mode, the policy, a count of 0, clear flags and the initial value of its mode, reads
no row, and changes no other row, entry or state (R64, R67, R68, R70). -/
def Obligations.AcminitSetsItsRows : Prop :=
  ∀ (s : State) (j : Job) (c : CoreId) (h : Hdr) (f : AcminitArgs),
    RowsReady s j c.toNat h (.acminit c h f) (acminitRows f) →
    ∃ t, exec (.acminit c h f) s = .next t ∧
      (∀ n, n < f.count.toNat → ∃ row, (t.core c.toNat).physRow ((s.core c.toNat).writeRowNo j.desc.replay
          (f.acmRow.toNat + n)) = row ∧ wordMode row.word = f.mode.toNat ∧ wordPolicy row.word = f.policy.toNat ∧
        wordCount row.word = 0 ∧ wordSat row.word = false ∧ wordLapsed row.word = false ∧
        ∀ e, e < 64 → row.entries.getD e 0 =
          if f.mode = 0 ∨ (f.mode = 1 ∧ e % 2 = 0) then f.init else 0) ∧
      rowsWritten s t j c.toNat h.commit (acminitRows f) ∧ jobsBut j.num t.jobs = jobsBut j.num s.jobs ∧
      (j.desc.replay = false → t.jobs = s.jobs) ∧
      CompletedAs s t j c.toNat h (s.coresWith c.toNat ((s.after j c.toNat h (.acminit c h f)).rowsOf (t.core c.toNat)))
        [Reg.ACM_COMMITS c.toNat] fun u => { u with jobs := t.jobs }

/-- FIRE and FIRET that name a usable facet and rows of one mode, and that no check samples, complete: each vector's exact
runs (the outputs of FIRET) contribute to its rows, the vectors are counted, and nothing else changes but tags of a TAKE
operand and the job's flags (R20, R23, R30, R35, R62, R71, R73 to R75). -/
def Obligations.FireContributesItsRuns : Prop :=
  ∀ (s : State) (j : Job) (c : CoreId) (h : Hdr) (f : FireArgs) (firet : Bool) (i : Instr) (e : Int),
    i = (if firet then .firet c h f else .fire c h f) →
    let x := headCx s j c.toNat h i
    let k := s.core c.toNat
    let fc := k.facet f.facet.toNat
    let first := f.acmRow.toNat
    let placed := wordMode (k.rowAt j.desc.replay first).word
    let nf := rowsPerVector firet placed fc.cols f.kRows.toNat
    let per := if placed = 0 then 64 else 32
    let n := if firet then f.nColsM1.toNat + 1 else f.kRows.toNat
    let rows := (List.range (nf * f.m.toNat)).map (· + first)
    RowsReady s j c.toNat h i rows →
    fc.state = .empty ∨ fc.state = .loaded →
    (∀ t ∈ rows, wordMode (k.rowAt j.desc.replay t).word = placed ∧ wordPolicy (k.rowAt j.desc.replay t).word ≠ 1) →
    placed = 1 ∨ (placed = 0 ∧ fc.fmt ≠ 8) → x.sampled f.m.toNat = none →
    s.mustCheck x = none → exponentIs s j c.toNat f.expSel f.exp e →
    ∃ t, exec i s = .next t ∧
      (∀ v q, v < f.m.toNat → q < nf →
        let a := (elemsAt k (x.iss.task.coreBase + 64 * f.vec.toNat + 64 * f.vpitch.toNat * v) (planes f.afmt.toNat) n).map
          (decodeInt f.afmt.toNat)
        let runs := if firet then fc.outputs a f.kRows.toNat n else fc.runs a f.kRows.toNat
        contributed (k.rowAt j.desc.replay (first + nf * v + q))
          ((t.core c.toNat).physRow (k.writeRowNo j.desc.replay (first + nf * v + q))) runs
          (fun y => .of ⟨runs.getD y 0, e + fc.colShift y⟩) (per * q)) ∧
      t.reg (Reg.FCT_VECTORS c.toNat) = s.reg (Reg.FCT_VECTORS c.toNat) + BitVec.ofNat 64 f.m.toNat ∧
      rowsWritten s t j c.toNat h.commit rows ∧ jobsBut j.num t.jobs = jobsBut j.num s.jobs ∧
      WritesOnly s t x i ∧
      CompletedData s t j c.toNat h ((s.after j c.toNat h i).rowsOf (t.core c.toNat))
        ([Reg.FCT_VECTORS c.toNat, Reg.FCT_SUBCYCLES c.toNat, Reg.FCT_SKIPPED c.toNat, Reg.FCT_SPLITS c.toNat,
          Reg.FCT_WAKES c.toNat, Reg.FCT_WAKE_GROUPS c.toNat] ++ rowRegs c.toNat) fun u => { u with jobs := t.jobs }

/-- The run of a logical column is the exact sum over the loaded rows below k of activation times weight, and an output of
FIRET the exact sum over the columns (R20, R23, R35). -/
def Obligations.RunsAreExactSums : Prop :=
  ∀ (fc : Facet) (a : List Int) (k j : Nat), Sparse.wf 0 fc.rows = true → (∀ r ∈ fc.rows, r.1 < 1024) → k ≤ 1024 →
    (fc.run a k j = ((List.range k).map fun r => a.getD r 0 * fc.weight r (Sparse.get 0 fc.rows r) j).sum) ∧
    (∀ r n, r < k → (fc.outputs a k n).getD r 0 =
      ((List.range n).map fun y => weightOf fc.fmt.toNat (Sparse.get 0 fc.rows r) y * a.getD y 0).sum)

/-- A FIRE or FIRET leaves its captured vector as the pending check: elements, runs and rows of the vector that the parallax
draw samples, or of the one that a replay must check, under the registers of its issue (R144, R145, R150). -/
def SampledVectorIsCaptured : Prop :=
  ∀ (s : State) (j : Job) (c : CoreId) (h : Hdr) (f : FireArgs) (firet forced : Bool) (i : Instr) (e : Int)
    (v : Nat), i = (if firet then .firet c h f else .fire c h f) →
    let x := headCx s j c.toNat h i
    let k := s.core c.toNat
    let fc := k.facet f.facet.toNat
    let first := f.acmRow.toNat
    let placed := wordMode (k.rowAt j.desc.replay first).word
    let nf := rowsPerVector firet placed fc.cols f.kRows.toNat
    let n := if firet then f.nColsM1.toNat + 1 else f.kRows.toNat
    let rows := (List.range (nf * f.m.toNat)).map (· + first)
    RowsReady s j c.toNat h i rows → (j.desc.replay = true → h.commit = false) →
    fc.state = .empty ∨ fc.state = .loaded →
    (∀ t ∈ rows, wordMode (k.rowAt j.desc.replay t).word = placed ∧ wordPolicy (k.rowAt j.desc.replay t).word ≠ 1) →
    placed = 1 ∨ (placed = 0 ∧ fc.fmt ≠ 8) → v < f.m.toNat →
    (s.mustCheck x = none ∧ x.sampled f.m.toNat = some v ∧ forced = false) ∨
      (s.mustCheck x = some v ∧ (x.sampled f.m.toNat = none ∨ x.sampled f.m.toNat = some v) ∧ forced = true) →
    f.refFmt = 0 ∨ f.mValid.toNat ≤ v →
    exponentIs s j c.toNat f.expSel f.exp e →
    let a := (elemsAt k (x.iss.task.coreBase + 64 * f.vec.toNat + 64 * f.vpitch.toNat * v) (planes f.afmt.toNat) n).map
      (decodeInt f.afmt.toNat)
    ∃ t, exec i s = .next t ∧ GoesOn s t c.toNat ∧
      (t.core c.toNat).check = some {
        job := j.num, seq := h.seq.toNat, firet := firet, facet := f.facet.toNat, vector := v, valid := false
        kRows := f.kRows.toNat, nOut := if firet then f.nColsM1.toNat + 1 else fc.cols, afmt := f.afmt.toNat, elems := a
        runs := if firet then fc.outputs a f.kRows.toNat n else fc.runs a f.kRows.toNat, exp := e, zpRef := f.zpRef.toNat
        refFmt := f.refFmt.toNat, refs := [], rows := (List.range nf).map (· + (first + nf * v))
        plx := s.epochReg j Reg.PLX_CTRL, forced := forced, urgent := forced }

/-- ACMOUT without block scaling, with an anchor whose slot is frozen or none, and whose rows hold all the outputs asked
for, writes each vector's converted (or quantised) values in order to its line, changes no tile row, and commits the dirty
pairs of its rows (R68, R76, R90, R109, R199). -/
def Obligations.AcmoutWritesItsLines : Prop :=
  ∀ (s : State) (j : Job) (c : CoreId) (h : Hdr) (f : AcmoutArgs) (kIn : Int) (anchor : Option Int) (o : Opnd),
    let i := Instr.acmout c h f
    let x := headCx s j c.toNat h i
    let k := s.core c.toNat
    let rpv := f.rpvM1.toNat + 1
    let row := fun t => k.physRow (k.readRowNo j.num j.desc.replay t)
    let given := fun v => (List.range rpv).flatMap fun q => rowValues f.var kIn (row (f.acmRow.toNat + rpv * v + q))
    let w := fmtWidth f.ofmt.toNat
    let pairs := (acmoutRows f).map (· % 256)
    RowsReady s j c.toNat h i (acmoutRows f) → f.bs = 0 →
    (f.slotEn = false ∧ anchor = none ∨ ∃ e, f.slotEn = true ∧ anchor = some e ∧ anchorIs s j c.toNat f.slot e) →
    (f.inSlotEn = false ∧ kIn = f.kIn.toInt ∨
      ∃ e, f.inSlotEn = true ∧ anchorIs s j c.toNat f.inSlot e ∧ kIn = f.kIn.toInt + e) →
    (∀ v, v < f.mValid.toNat → acmoutN f ≤ (given v).length) →
    x.opnd true f.dst = some o →
    ∃ t, exec i s = .next t ∧
      (Apart s x i false → ceilDiv (w * acmoutN f) 8 ≤ f.opitch.toNat ∨ f.mValid = 1 →
        ∀ v y, v < f.mValid.toNat → y < acmoutN f → elemIn s t x true o (8 * f.opitch.toNat * v + w * y) w =
          (match anchor with
            | some e => quantise f.ofmt.toNat f.zp.toNat e ((given v).getD y .nan)
            | none => convertVal f.ofmt.toNat h.satFp ((given v).getD y .nan)).code % 2 ^ w) ∧
      WritesOnly s t x i ∧ (∀ r, (t.core c.toNat).physRow r = k.physRow r) ∧
      (j.desc.replay = false → (t.core c.toNat).live = k.live ∧ (t.core c.toNat).dirty = k.dirty) ∧
      (j.desc.replay = true →
        (∀ p, p < 256 → (t.core c.toNat).live.getLsbD p = (k.live.getLsbD p != decide (p ∈ pairs ∧ j.num ∈ k.holders p))) ∧
        ∀ p, (t.core c.toNat).holders p = if p ∈ pairs ∧ j.num ∈ k.holders p then [] else k.holders p) ∧
      jobsBut j.num t.jobs = jobsBut j.num s.jobs ∧
      CompletedData s t j c.toNat h ((s.after j c.toNat h i).rowsOf (t.core c.toNat))
        (convRegs ++ rowRegs c.toNat) fun u => { u with jobs := t.jobs }

/-- REFMM whose operands fit the operand buffers and whose rows suit it adds, tree by tree, the products of its operands:
exact integers, held within 32 bits, on an integer path into integer rows, and rounded tree sums times 2^k_ref promoted into
float rows (R74, R129, R131 to R134). -/
def Obligations.RefmmAddsTreeByTree : Prop :=
  ∀ (s : State) (j : Job) (c : CoreId) (h : Hdr) (f : RefmmArgs) (ao bo : Opnd),
    let i := Instr.refmm c h f
    let x := headCx s j c.toNat h i
    let k := s.core c.toNat
    let row := fun t => k.rowAt j.desc.replay t
    let integer := refmmInteger f (wordMode (row f.acmRow.toNat).word)
    let per := refmmPer f integer
    let rows := (List.range (RefmmM f * per)).map (· + f.acmRow.toNat)
    let path := max (refPath f.afmt.toNat) (refPath f.bfmt.toNat)
    let wa := fmtWidth f.afmt.toNat
    let wb := fmtWidth f.bfmt.toNat
    let a := fun m q => elemIn s s x false ao (if f.atrans then 8 * f.apitch.toNat * q + wa * m
      else 8 * f.apitch.toNat * m + wa * q) wa
    let b := fun q n => elemIn s s x false bo (if f.btrans then 8 * f.bpitch.toNat * n + wb * q
      else 8 * f.bpitch.toNat * q + wb * n) wb
    let trees := List.range (ceilDiv (RefmmK f) (treeSize path))
    let terms := treeTerms (treeSize path) (RefmmK f)
    RowsReady s j c.toNat h i rows → x.opnd false f.a = some ao → x.opnd false f.b = some bo →
    wa * RefmmK f ≤ 65536 → wb * RefmmK f * RefmmN f ≤ 131072 →
    (∀ t ∈ rows, wordMode (row t).word = (if integer then 0 else 1) ∧ wordPolicy (row t).word ≠ 1) →
    ∃ t, exec i s = .next t ∧
      (∀ m n, m < RefmmM f → n < RefmmN f →
        let old := row (f.acmRow.toNat + m * per + n / (if integer then 64 else 32))
        let new := (t.core c.toNat).physRow (k.writeRowNo j.desc.replay
          (f.acmRow.toNat + m * per + n / (if integer then 64 else 32)))
        (integer = true → (new.entries.getD (n % 64) 0).toInt = trees.foldl (fun v i => clamp32 (v +
          ((terms i).map fun q => decodeInt f.afmt.toNat (a m q) * decodeInt f.bfmt.toNat (b q n)).sum))
          (old.entries.getD (n % 64) 0).toInt) ∧
        (integer = false → pairAt new (n % 32) = trees.foldl (fun v i =>
          (promote (decide (wordPolicy old.word = 2)) v ((treeSum path ((terms i).map fun q =>
            (decodeVal f.afmt.toNat (a m q)).mul (decodeVal f.bfmt.toNat (b q n)))).scale f.kRef.toInt)).1)
          (pairAt old (n % 32)))) ∧
      rowsWritten s t j c.toNat h.commit rows ∧ jobsBut j.num t.jobs = jobsBut j.num s.jobs ∧ WritesOnly s t x i ∧
      t.reg (Reg.REF_TREES c.toNat) = s.reg (Reg.REF_TREES c.toNat)
        + BitVec.ofNat 64 (RefmmM f * RefmmN f * ceilDiv (RefmmK f) (treeSize path)) ∧
      CompletedData s t j c.toNat h ((s.after j c.toNat h i).rowsOf (t.core c.toNat))
        ([Reg.REF_BUSY c.toNat, Reg.REF_TREES c.toNat] ++ rowRegs c.toNat) fun u => { u with jobs := t.jobs }

/-- REFEW writes, for each index, the converted result of its operation on the elements of its sources (an anchor's
quantised source for operation 11), and changes nothing else (R109, R136 to R139). -/
def Obligations.RefewComputesElementwise : Prop :=
  ∀ (s : State) (j : Job) (c : CoreId) (h : Hdr) (f : RefewArgs) (a b d out : Opnd) (anchor : Int),
    let i := Instr.refew c h f
    let x := headCx s j c.toNat h i
    let op := f.op.toNat
    let src := fun (o : Opnd) (fmt : Nat) (bcast : Bool) (y : Nat) =>
      decodeVal fmt (elemIn s s x false o (fmtWidth fmt * (if bcast then 0 else y)) (fmtWidth fmt))
    let w := fmtWidth f.fmtO.toNat
    DataReady s j c.toNat h i →
    x.opnd false f.a = some a → (refewB op = true → x.opnd false f.b = some b) →
    (refewC op = true → x.opnd false f.c = some d) → x.opnd true f.out = some out →
    (op = 11 → anchorIs s j c.toNat f.slot anchor) →
    ∃ t, exec i s = .next t ∧
      (Apart s x i true → ∀ y, y < refewN f → elemIn s t x true out (w * y) w =
        (if op = 11 then quantise f.fmtO.toNat f.zp.toNat anchor (src a f.fmtA.toNat false y)
          else refewOut f.fmtO.toNat op h.satFp (refewV op f.imm.toInt (src a f.fmtA.toNat false y)
            (if refewB op then src b f.fmtB.toNat f.bBcast y else .nan)
            (if refewC op then src d f.fmtC.toNat f.cBcast y else .nan))).code % 2 ^ w) ∧
      WritesOnly s t x i ∧ (op = 11 ∨ t.jobs = s.jobs) ∧ jobsBut j.num t.jobs = jobsBut j.num s.jobs ∧
      CompletedData s t j c.toNat h { s.after j c.toNat h i with
          lastCycles := 8 + ceilDiv (refewN f) (refewRate op) + 4 }
        ([Reg.REF_BUSY c.toNat, Reg.REF_TREES c.toNat] ++ convRegs) fun u => { u with jobs := t.jobs }

/-- REDUCE: SUM and SUMSQ promote the tree sums of each line into its float accumulator, STATS combines the block statistics
into its statistic, and MAX, MIN, ABSMAX and ARGMAX write one element for each line (R87 to R89, R129, R140, R141). -/
def Obligations.ReduceFoldsItsLines : Prop :=
  ∀ (s : State) (j : Job) (c : CoreId) (h : Hdr) (f : ReduceArgs) (src out : Opnd),
    let i := Instr.reduce c h f
    let x := headCx s j c.toNat h i
    let k := s.core c.toNat
    let row := fun t => k.rowAt j.desc.replay t
    let rows := reduceRows f
    let mode := f.mode.toNat
    let w := fmtWidth f.sfmt.toNat
    let path := refPath f.sfmt.toNat
    let line := fun a => (List.range (reduceN f)).map fun y =>
      decodeVal f.sfmt.toNat (elemIn s s x false src (8 * f.lpitch.toNat * a + w * y) w)
    let ow := reduceOutW f
    RowsReady s j c.toNat h i rows → x.opnd false f.src = some src → (3 ≤ mode → x.opnd true f.out = some out) →
    (∀ t ∈ rows, wordMode (row t).word = (if mode = 2 then 2 else 1) ∧ wordPolicy (row t).word ≠ 1) →
    ∃ t, exec i s = .next t ∧
      (mode ≤ 1 → ∀ a, a < reduceR f →
        let old := row (f.acmRow.toNat + a / 32)
        let new := (t.core c.toNat).physRow (k.writeRowNo j.desc.replay (f.acmRow.toNat + a / 32))
        pairAt new (a % 32) = (chunks (treeSize path) (if mode = 1 then (line a).map fun v => v.mul v else line a)).foldl
          (fun p vs => (promote (decide (wordPolicy old.word = 2)) p (treeSum path vs)).1) (pairAt old (a % 32))) ∧
      (mode = 2 → ∀ a, a < reduceR f →
        let new := (t.core c.toNat).physRow (k.writeRowNo j.desc.replay (f.acmRow.toNat + a / 16))
        statAt new (a % 16) = (chunks 16 (line a)).foldl (fun p vs => combine p (blockStat vs))
          (statAt (row (f.acmRow.toNat + a / 16)) (a % 16))) ∧
      (3 ≤ mode → Apart s x i false → ∀ a, a < reduceR f → elemIn s t x true out (ow * a) ow =
        (if mode = 6 then argMax (line a) else (convertVal f.ofmt.toNat h.satFp (reduceValue mode (line a))).code) % 2 ^ ow) ∧
      rowsWritten s t j c.toNat h.commit rows ∧ jobsBut j.num t.jobs = jobsBut j.num s.jobs ∧ WritesOnly s t x i ∧
      CompletedData s t j c.toNat h ((s.after j c.toNat h i).rowsOf (t.core c.toNat))
        ([Reg.REF_BUSY c.toNat, Reg.REF_TREES c.toNat] ++ convRegs ++ rowRegs c.toNat) fun u => { u with jobs := t.jobs }

/-- FLOAD of a facet that is not FAULTY leaves it LOADED with its format, each row as its record says (an FP4 facet
converted, with its exponents), the rest zeroed or kept, and its load record; no other facet, row or byte changes (R41 to
R48, R54). -/
def Obligations.FloadFillsItsFacet : Prop :=
  ∀ (s : State) (j : Job) (c : CoreId) (h : Hdr) (f : FloadArgs) (o so : Opnd),
    let i := Instr.fload c h f
    let x := headCx s j c.toNat h i
    let k := s.core c.toNat
    let fi := f.facet.toNat
    let n := f.rowCount.toNat
    let blk := floadBlk f
    let code := fun q => ofBytes (bytesIn s s x false o (f.pitch.toNat * q) 16)
    let scales := fun y => (bytesIn s s x false so (64 * y) (ceilDiv n blk)).map (·.toNat)
    let cols := (List.range 25).map fun y => (scales y, (fp4Column blk n (scales y)).2)
    let differs := decide ((k.facet fi).fmt ≠ f.fmt)
    DataReady s j c.toNat h i → (k.facet fi).state ≠ .faulty → x.opnd false f.src = some o →
    (f.fmt = 8 → x.opnd false f.scale = some so) →
    ∃ t, exec i s = .next t ∧
      loadedFacet (k.facet fi) ((t.core c.toNat).facet fi) f (fun r => if f.fmt = 8 then fp4Row blk cols r (code r)
        else BitVec.ofNat 128 (code (r - f.rowFirst.toNat))) s.deviceTime ∧
      (f.fmt = 8 → ∀ y, y < 25 → Sparse.get 0 ((t.core c.toNat).facet fi).colExp y =
        BitVec.ofNat 8 (fp4Column blk n (scales y)).1 ∧ ∀ g, g < 16 → Sparse.get 0 ((t.core c.toNat).facet fi).offsets
          (16 * y + g) = BitVec.ofNat 3 ((fp4Column blk n (scales y)).2.getD g 0 - (fp4Column blk n (scales y)).1)) ∧
      ((t.core c.toNat).facet fi).record = (if f.retain then some {
          src := x.recorded o, pitch := f.pitch.toNat, fmt := f.fmt.toNat, rowFirst := f.rowFirst.toNat, rowCount := n
          scale := if f.fmt = 8 then x.recorded so else 0, blk := if f.fmt = 8 then blk else 0
          zeroFrom := f.rowFirst.toNat + n, zeroed := decide (f.fmt = 8) || f.zeroRest || differs
          lowZero := decide (f.fmt ≠ 8) && differs } else none) ∧
      (∀ g, g ≠ fi → (t.core c.toNat).facet g = k.facet g) ∧ WritesOnly s t x i ∧
      CompletedData s t j c.toNat h { s.after j c.toNat h i with
          facets := (t.core c.toNat).facets, lastCycles := (t.core c.toNat).lastCycles }
        [Reg.FCT_FP4_ADJ c.toNat] id

/-- EXPO: SAVE writes the records of its slots in order, CLEAR empties them but keeps the rest of their settings, and RESTORE
takes each record that passes its checks and clears the slot of one that does not (R119 to R122). -/
def Obligations.ExpoSavesRestoresClears : Prop :=
  ∀ (s : State) (j : Job) (c : CoreId) (h : Hdr) (f : ExpoArgs) (o : Opnd), JRec.expo c.toNat h.seq.toNat ∉ j.journal →
    s.journalRoom j (.expo c.toNat h.seq.toNat) →
    (DataReady s j c.toNat h (.expoClear c h f) → ∃ t, exec (.expoClear c h f) s = .next t ∧
      (∀ n, t.expoSlot n = if f.first.toNat ≤ n ∧ n < f.first.toNat + f.count.toNat
        then { s.expoSlot n with valid := 0, head := 0, carry := 0 } else s.expoSlot n) ∧
      CompletedAs s t j c.toNat h (s.coresWith c.toNat (s.after j c.toNat h (.expoClear c h f))) [] fun u =>
        { u with expo := t.expo, jobs := s.jobsWith j (.expo c.toNat h.seq.toNat) }) ∧
    (let i := Instr.expoSave c h f
     let x := headCx s j c.toNat h i
     DataReady s j c.toNat h i → x.opnd true f.addr = some o → ∃ t, exec i s = .next t ∧
      (Apart s x i false → ∀ n, n < f.count.toNat →
        bytesIn s t x true o (64 * n) 64 = (s.expoSlot (f.first.toNat + n)).record) ∧ WritesOnly s t x i ∧
      CompletedData s t j c.toNat h (s.after j c.toNat h i) [] fun u =>
        { u with jobs := s.jobsWith j (.expo c.toNat h.seq.toNat) }) ∧
    (let i := Instr.expoRestore c h f
     let x := headCx s j c.toNat h i
     let rec_ := fun n => readExpo (bytesIn s s x false o (64 * (n - f.first.toNat)) 64)
     DataReady s j c.toNat h i → x.opnd false f.addr = some o → ∃ t, exec i s = .next t ∧ GoesOn s t c.toNat ∧
      (∀ n, t.expoSlot n = if f.first.toNat ≤ n ∧ n < f.first.toNat + f.count.toNat
        then (match rec_ n with
          | .ok e => { e with updated := s.deviceTime }
          | .error _ => { s.expoSlot n with valid := 0, head := 0, carry := 0 })
        else s.expoSlot n) ∧ WritesOnly s t x i ∧
      ((∀ n, f.first.toNat ≤ n → n < f.first.toNat + f.count.toNat → ∃ e, rec_ n = .ok e) →
        CompletedData s t j c.toNat h (s.after j c.toNat h i) [] fun u =>
          { u with expo := t.expo, jobs := s.jobsWith j (.expo c.toNat h.seq.toNat) }))

/-- TRANSIT: a sender puts its rows into the receive buffer of the next core, unless that core has merged a newer tile of the
chain, which is counted; a receiver merges the message of its chain into its rows, notes its number, and as an intermediate
sends the merged rows on (R91 to R93). -/
def Obligations.TransitSendsAndMerges : Prop :=
  ∀ (s : State) (j : Job) (c : CoreId) (h : Hdr) (f : TransitArgs),
    let i := Instr.transit c h f
    let k := s.core c.toNat
    let d := f.succCore.toNat
    let rows := transitRows f
    let has := fun t => k.physRow (k.readRowNo j.num j.desc.replay t)
    RowsReady s j c.toNat h i rows → f.remote = false →
    (f.role = 0 → j.desc.replay = false ∨ h.commit = false →
      ((s.core d).accepts f.chain.toNat f.tseq.toNat = true → (s.core d).rxRows + rows.length ≤ 16 →
        ∃ t, exec i s = .next t ∧ CompletedAs s t j c.toNat h (fun e =>
          let base := if e = c.toNat then { s.after j c.toNat h i with lastCycles := 2 * (f.rowsM1.toNat + 1) } else s.core e
          if e = d then { base with rxBuf := base.rxBuf ++ [⟨d, f.chain.toNat, f.tseq.toNat, rows.map has⟩] } else base)
          [] nothingElse) ∧
      ((s.core d).accepts f.chain.toNat f.tseq.toNat = false →
        ∃ t, exec i s = .next t ∧ t.reg (Reg.ACM_TRANSIT_DUP d) = s.reg (Reg.ACM_TRANSIT_DUP d) + 1 ∧
          CompletedAs s t j c.toNat h (s.coresWith c.toNat { s.after j c.toNat h i with lastCycles := 2 * (f.rowsM1.toNat + 1) })
            [Reg.ACM_TRANSIT_DUP d] nothingElse)) ∧
    (∀ m, f.role = 1 ∨ f.role = 2 ∧ d ≠ c.toNat ∧ (s.core d).accepts f.chain.toNat f.tseq.toNat = true ∧
        (s.core d).rxRows + rows.length ≤ 16 →
      s.nextTransit c.toNat f.chain.toNat = some m → m ∈ k.rxBuf → k.accepts m.chain m.tseq = true →
      m.rows.length = rows.length → j.mergedRows c.toNat f.chain.toNat f.tseq.toNat = none → j.replayable = false →
      (∀ p ∈ rows.zip m.rows, wordMode p.2.word = wordMode (k.rowAt j.desc.replay p.1).word ∧
        wordMode p.2.word < 3 ∧ wordPolicy (k.rowAt j.desc.replay p.1).word ≠ 1) →
      ∃ t, exec i s = .next t ∧
        (∀ p ∈ rows.zip m.rows, mergedRow p.2 (k.rowAt j.desc.replay p.1)
          ((t.core c.toNat).physRow (k.writeRowNo j.desc.replay p.1))) ∧
        rowsWritten s t j c.toNat h.commit rows ∧ jobsBut j.num t.jobs = jobsBut j.num s.jobs ∧
        CompletedAs s t j c.toNat h (fun e => if e = c.toNat then { (s.after j c.toNat h i).rowsOf (t.core c.toNat) with
              rxBuf := k.rxBuf.erase m, chains := (k.chains.filter fun y => y.1 ≠ m.chain) ++ [(m.chain, m.tseq)] }
            else if e = d ∧ f.role = 2 then { s.core e with rxBuf := (s.core e).rxBuf ++ [⟨d, f.chain.toNat, f.tseq.toNat,
              rows.map fun y => (t.core c.toNat).physRow (k.writeRowNo j.desc.replay y)⟩] }
            else s.core e) (rowRegs c.toNat) fun u => { u with jobs := t.jobs })

/-- MOVE in modes PLAIN, TILE and TRANSPOSE completes; without block scaling each destination element is its source element,
or the pad outside a tile's valid region; bytes outside the destination stay (R194 to R196, R243, R244). -/
def Obligations.MoveCopiesItsElements : Prop :=
  ∀ (s : State) (j : Job) (c : CoreId) (h : Hdr) (f : MoveArgs) (m : MoveMode) (i : Instr) (so to_ : Opnd),
    (m = .plain ∧ i = .movePlain c h f) ∨ (m = .tile ∧ i = .moveTile c h f) ∨ (m = .transpose ∧ i = .moveTranspose c h f) →
    let x := headCx s j c.toNat h i
    let w := moveW f
    DataReady s j c.toNat h i → x.opnd false f.src = some so → x.opnd true f.dst = some to_ →
    ∃ t, exec i s = .next t ∧ WritesOnly s t x i ∧
      CompletedData s t j c.toNat h { s.after j c.toNat h i with lastCycles := (t.core c.toNat).lastCycles } convRegs id ∧
      (Apart s x i false → linesApart m f → f.bs = 0 →
        ∀ i2 i1 e, i2 < moveN2 f → i1 < (dstShape m f).1 → e < (dstShape m f).2 →
        elemIn s t x true to_ (8 * dstLine f i2 i1 + w * e) w =
          if m = .transpose then elemIn s s x false so (8 * srcLine f i2 e + w * i1) w
          else if m = .tile ∧ (f.vL.toNat ≤ i1 ∨ f.vE.toNat ≤ e) then padCode f.fmt.toNat f.pad.toNat f.zp.toNat % 2 ^ w
          else elemIn s s x false so (8 * srcLine f i2 i1 + w * e) w)

/-- MOVE in mode COMPRESS writes the tile of its row images, and in mode EXPAND the row images of a tile whose header and
bounds pass their checks (R180 to R183, R245). -/
def Obligations.MoveCompressesAndExpands : Prop :=
  ∀ (s : State) (j : Job) (c : CoreId) (h : Hdr) (f : MoveArgs) (so to_ : Opnd),
    (let i := Instr.moveCompress c h f
     let x := headCx s j c.toNat h i
     let out := compressTile f.fmt.toNat (moveN1 f) (moveN0 f)
       ((List.range (moveN1 f)).map fun r => BitVec.ofNat 128 (ofBytes (bytesIn s s x false so (16 * r) 16)))
     DataReady s j c.toNat h i → x.opnd false f.src = some so → x.opnd true f.dst = some to_ →
     ∃ t, exec i s = .next t ∧ WritesOnly s t x i ∧
      (Apart s x i false → bytesIn s t x true to_ 0 out.length = out ∧
        ∀ y, out.length ≤ y → ∀ cell, operCell s x true to_ y = some cell → y < 16 + 16 * moveN1 f → t.cell cell = s.cell cell) ∧
      CompletedData s t j c.toNat h
        { s.after j c.toNat h i with lastCycles := moveN1 f + ceilDiv out.length 64 } [] id) ∧
    (let i := Instr.moveExpand c h f
     let x := headCx s j c.toNat h i
     ∀ hd, DataReady s j c.toNat h i → x.opnd false f.src = some so → x.opnd true f.dst = some to_ →
     readHeader (bytesIn s s x false so 0 16) = some hd → reaches s x false so 0 hd.length = true →
     let tile : Tile := ⟨hd, bytesIn s s x false so 0 hd.length⟩
     let cols := (List.range hd.nCols).map tile.column
     ∃ t, exec i s = .next t ∧ WritesOnly s t x i ∧
      (Apart s x i false → ∀ r, r < moveN1 f → bytesIn s t x true to_ (16 * r) 16 = toBytes 16 (expandRow tile cols r)) ∧
      CompletedData s t j c.toNat h (s.after j c.toNat h i) [] id)

/-- Expanding the tile that COMPRESS makes of row images gives back every weight (R180 to R183). -/
def Obligations.ExpandUndoesCompress : Prop :=
  ∀ (fmt : Nat) (rows : List RowImage) (n : Nat), fmt ∈ [0, 1, 2, 4] → 0 < rows.length → rows.length ≤ 1024 → 0 < n →
    n ≤ facetL fmt →
    let bs := compressTile fmt rows.length n rows
    ∃ hd, readHeader (bs.take 16) = some hd ∧ hd.length = bs.length ∧ hd.kRows = rows.length ∧ hd.nCols = n ∧ hd.fmt = fmt ∧
      ∀ r y, r < rows.length → y < n →
        weightOf fmt (BitVec.ofNat 128 (expandRow ⟨hd, bs⟩ ((List.range n).map (Tile.column ⟨hd, bs⟩)) r)) y
          = weightOf fmt (rows.getD r 0) y

/-- GATHER EMB under a valid table descriptor pools, for each bag, the rows of its positions in range in ascending order, and
writes each bag's outputs rounded once; positions out of range are passed over (R161, R162, R164 to R171). -/
def Obligations.GatherEmbPoolsBags : Prop :=
  ∀ (s : State) (j : Job) (c : CoreId) (h : Hdr) (f : GatherEmbArgs) (td io oo wo out : Opnd) (t : Table),
    let i := Instr.gatherEmb c h f
    let x := headCx s j c.toNat h i
    let w := fmtWidth f.ofmt.toNat
    let idx := indexIn s x io f.ifmt64
    let edge := fun b => if f.formOffsets then ofBytes (bytesIn s s x false oo (4 * b) 4) else b * (f.lbM1.toNat + 1)
    let bag := fun b => (List.range (min (edge (b + 1)) (embN f) - min (edge b) (embN f))).map (· + min (edge b) (embN f))
    let weight := fun p => let wf := wideFmt f.wfmt.toNat
      decodeVal wf (elemIn s s x false wo (fmtWidth wf * p) (fmtWidth wf))
    let row := fun p => (t.values (bytesIn s s x false (t.row (idx p)) 0 t.rowBytes)).map fun v =>
      if f.pool = 3 then v.mul (weight p) else v
    let used := fun b => (bag b).filter fun p => decide (idx p < t.rows)
    DataReady s j c.toNat h i → x.opnd false f.tdesc = some td → readTable (bytesIn s s x false td 0 32) = .ok t →
    x.opnd false f.idx = some io → (f.formOffsets = true → x.opnd false f.offsets = some oo) →
    (f.pool = 3 → x.opnd false f.weights = some wo) → x.opnd true f.out = some out →
    (∀ b p, b < embBags f → p ∈ used b → reaches s x false (t.row (idx p)) 0 t.rowBytes = true) →
    ∃ u, exec i s = .next u ∧ GoesOn s u c.toNat ∧ WritesOnly s u x i ∧
      (Apart s x i false → ceilDiv (t.width * w) 8 ≤ f.opitch.toNat ∨ f.nBagsM1 = 0 →
        (∀ b p, b < embBags f → p ∈ used b → ∀ k < t.rowBytes, ∀ q ∈ opersOf s x i, q.write = true → ∀ m,
          operCell s x false (t.row (idx p)) k = some m → q.covers s x m = false) →
        ∀ b e, b < embBags f → e < t.width → elemIn s u x true out (8 * f.opitch.toNat * b + w * e) w =
          (convertVal f.ofmt.toNat h.satFp (((poolOf t.width (decide (f.pool = 2)) ((used b).map row)).outs f.pool.toNat
            t.width).getD e .nan)).code % 2 ^ w) ∧
      u.reg (Reg.SPE_BAGS (c.toNat / 64)) = s.reg (Reg.SPE_BAGS (c.toNat / 64)) + BitVec.ofNat 64 (embBags f) ∧
      u.reg (Reg.SPE_ROWS (c.toNat / 64)) = s.reg (Reg.SPE_ROWS (c.toNat / 64))
        + BitVec.ofNat 64 (((List.range (embBags f)).map fun b => (used b).length).sum) ∧
      (s.fld Reg.GLB_SPE_CTRL 0 1 = 0 → jobsBut j.num u.jobs = jobsBut j.num s.jobs ∧
        CompletedData s u j c.toNat h (s.after j c.toNat h i) (speRegs c.toNat ++ convRegs) fun y =>
          { y with jobs := u.jobs, freeCount := u.freeCount, speLast := s.servedAt c.toNat })

/-- GATHER SPT of a valid compressed tile contributes the exact runs of its stored weights to the rows that FIRE would use
for as many columns (R62, R73 to R75, R183 to R185). -/
def Obligations.GatherSptContributesItsRuns : Prop :=
  ∀ (s : State) (j : Job) (c : CoreId) (h : Hdr) (f : GatherSptArgs) (to_ vo : Opnd) (hd : TileHeader) (e : Int),
    let i := Instr.gatherSpt c h f
    let x := headCx s j c.toNat h i
    let k := s.core c.toNat
    let first := f.acmRow.toNat
    let placed := wordMode (k.rowAt j.desc.replay first).word
    let nf := rowsPerVector false placed hd.nCols 0
    let rows := (List.range (nf * sptM f)).map (· + first)
    let tile : Tile := ⟨hd, bytesIn s s x false to_ 0 hd.length⟩
    let w := planes f.afmt.toNat
    RowsReady s j c.toNat h i rows → x.opnd false f.tile = some to_ → x.opnd false f.vec = some vo →
    readHeader (bytesIn s s x false to_ 0 16) = some hd → placed < 2 →
    (∀ t ∈ rows, wordMode (k.rowAt j.desc.replay t).word = placed ∧ wordPolicy (k.rowAt j.desc.replay t).word ≠ 1) →
    exponentIs s j c.toNat f.expSel f.exp e →
    ∃ t, exec i s = .next t ∧
      (∀ v q, v < sptM f → q < nf →
        let a := (List.range hd.kRows).map fun y =>
          decodeInt f.afmt.toNat (elemIn s s x false vo (8 * (64 * f.vpitch.toNat * v) + w * y) w)
        let runs := (List.range hd.nCols).map fun n =>
          (((tile.column n).filter fun z => decide (z.1 < hd.kRows)).map fun z => z.2 * a.getD z.1 0).sum
        contributed (k.rowAt j.desc.replay (first + nf * v + q))
          ((t.core c.toNat).physRow (k.writeRowNo j.desc.replay (first + nf * v + q))) runs
          (fun y => .of ⟨runs.getD y 0, e⟩) ((if placed = 0 then 64 else 32) * q)) ∧
      rowsWritten s t j c.toNat h.commit rows ∧ jobsBut j.num t.jobs = jobsBut j.num s.jobs ∧ WritesOnly s t x i ∧
      CompletedData s t j c.toNat h ((s.after j c.toNat h i).rowsOf (t.core c.toNat)) (speRegs c.toNat ++ rowRegs c.toNat) fun u =>
        { u with jobs := t.jobs, speLast := s.servedAt c.toNat }

/-- UPDATE under a valid table descriptor replaces every element of each row that its positions name by the rounding of
stored + Σ α · delta (of α · the last delta for SET), keeps the rows' scales, and writes no other byte (R174 to R177). -/
def Obligations.UpdateReplacesItsRows : Prop :=
  ∀ (s : State) (j : Job) (c : CoreId) (h : Hdr) (f : UpdateArgs) (td io dp : Opnd) (t : Table),
    let i := Instr.update c h f
    let x := headCx s j c.toNat h i
    let idx := fun p => if f.formRange then bits f.idx 0 40 + p else indexIn s x io f.ifmt64 p
    let at_ := fun r => (List.range (updateN f)).filter fun p => decide (idx p = r)
    let named := fun r => r < t.rows ∧ at_ r ≠ []
    let df := wideFmt f.dfmt.toNat
    let delta := fun p => (List.range t.width).map fun e =>
      decodeVal df (elemIn s s x false dp (8 * (f.dpitch.toNat * p) + fmtWidth df * e) (fmtWidth df))
    let old := fun r => bytesIn s s x false (t.row r) 0 t.rowBytes
    let w := fmtWidth t.fmt
    DataReady s j c.toNat h i → x.opnd false f.tdesc = some td → readTable (bytesIn s s x false td 0 32) = .ok t →
    t.rows * t.width < 2 ^ 40 → x.opnd false f.delta = some dp → (f.formRange = false → x.opnd false f.idx = some io) →
    (∀ r, named r → reaches s x true (t.row r) 0 t.rowBytes = true) → j.batches c.toNat h.seq.toNat = [] →
    ∃ u, exec i s = .next u ∧ GoesOn s u c.toNat ∧
      (∀ m : MemCell, (∀ r, named r → ∀ k < t.rowBytes, operCell s x true (t.row r) k ≠ some m) →
        (match m with | .host _ => s.eqEnabled = false | _ => True) → u.cell m = s.cell m) ∧
      (∀ r, named r →
        (∀ k < t.rowBytes, ∀ m, operCell s x true (t.row r) k = some m →
          (∀ k' < t.rowBytes, operCell s x true (t.row r) k' = some m → k' = k) ∧
          (∀ r', named r' → r' ≠ r → ∀ k' < t.rowBytes, operCell s x true (t.row r') k' ≠ some m) ∧
          ∀ q ∈ opersOf s x i, q.covers s x m = false) →
        (∀ k, t.elemBytes ≤ k → k < t.rowBytes → (bytesIn s u x true (t.row r) 0 t.rowBytes).getD k 0 = (old r).getD k 0) ∧
        ∀ e new, e < t.width →
          updatedElem f t h.satFp (t.scale (old r)) r e
            ((updateValues f (t.values (old r)) ((at_ r).map delta)).getD e .nan) = some new →
          elemIn s u x true (t.row r) (w * e) w = new.code.getD ((t.elems (old r)).getD e 0) % 2 ^ w) ∧
      (s.fld Reg.GLB_SPE_CTRL 0 1 = 0 → j.desc.replay = false →
        CompletedData s u j c.toNat h (s.after j c.toNat h i) (speRegs c.toNat ++ convRegs) fun y =>
          { y with freeCount := u.freeCount, speLast := s.servedAt c.toNat })

/-- A command in its turn with a cause for refusal is not issued: the log takes the least cause, the opcode and where it
stands, the refusal is counted, and the job ends with BAD_CMD, with no event record; on its cores what has started runs on and
nothing else does (R204, R300, R301). -/
def RefusedCommandEndsItsJob : Prop :=
  ∀ (s : State) (j : Job) (c : CoreId) (h : Hdr) (i : Instr) (n : Nat), tileOf i = some (c.toNat, h) → s.ordered →
    InTurn s j c.toNat → j.status = none →
    leastCause (headCauses s j c.toNat h i) = some n →
    let seq := (s.core c.toNat).nextSeq
    ∃ t, exec i s = .next t ∧
      t.fld Reg.GLB_CMD_LOG0 0 6 = n ∧ t.fld Reg.GLB_CMD_LOG0 6 1 = 1 ∧
      t.fld Reg.GLB_CMD_LOG0 7 1 = max (s.fld Reg.GLB_CMD_LOG0 6 1) (s.fld Reg.GLB_CMD_LOG0 7 1) ∧
      t.fld Reg.GLB_CMD_LOG0 8 8 = opcodeOf i ∧ t.fld Reg.GLB_CMD_LOG0 16 16 = seq % 65536 ∧
      t.fld Reg.GLB_CMD_LOG1 0 11 = c.toNat ∧ t.fld Reg.GLB_CMD_LOG1 16 6 = j.ring % 64 ∧
      t.fld Reg.GLB_CMD_LOG2 0 24 = j.num % 2 ^ 24 ∧
      t.reg Reg.GLB_CMD_REFUSALS = s.reg Reg.GLB_CMD_REFUSALS + 1 ∧
      t.reg (Reg.SEQ_ISSUED c.toNat) = s.reg (Reg.SEQ_ISSUED c.toNat) ∧
      (t.jobs.map fun k => if k.num = j.num then { k with observed := [] } else k) =
        s.jobs.map (fun k => if k.num = j.num then { k with
          status := some .badCmd, faultCore := c.toNat, faultSeq := seq, phase := .stopped, contained := none, saved := []
          savedCmds := [], observed := [] } else k) ∧
      (∀ d ∈ s.coresOf j, (t.core d).issued = (s.core d).issued.filter (·.drains none) ∧ (t.core d).seqState = .idle) ∧
      t.eq = s.eq ∧ (∀ m, t.cell m = s.cell m) ∧ t.expo = s.expo ∧ t.sync = s.sync

/-- A command that a CLAIM told the core to skip is passed over: counted in SEQ_SKIPPED, with no effect (R312). -/
def SkippedCommandHasNoEffect : Prop :=
  ∀ (s : State) (j : Job) (c : CoreId) (h : Hdr) (i : Instr), tileOf i = some (c.toNat, h) → s.ordered →
    InTurn s j c.toNat → 0 < (s.core c.toNat).skip →
    leastCause (headCauses s j c.toNat h i) = none →
    ∃ t, exec i s = .next t ∧
      (∀ d, t.core d = s.coresWith c.toNat { (s.core c.toNat).next with skip := (s.core c.toNat).skip - 1 } d) ∧
      t.reg (Reg.SEQ_SKIPPED c.toNat) = s.reg (Reg.SEQ_SKIPPED c.toNat) + 1 ∧
      (∀ off, off ≠ Reg.SEQ_SKIPPED c.toNat → t.reg off = s.reg off) ∧ t = { s with cores := t.cores, regs := t.regs }

/-- A refused command ends its job; a skipped one has no effect (R203, R296, R300, R301, R312). -/
def Obligations.CommandsRefusedOrSkipped : Prop := RefusedCommandEndsItsJob ∧ SkippedCommandHasNoEffect

/-! ### Rings, jobs and notices -/

/-- A doorbell in RUN: a new tail within a ring in use that passes no unfetched slot is taken, another sets the error bit,
stops the ring and posts a QUEUE event; a new head of the completion ring, in use or not, releases written slots, another sets
its error bit. Outside RUN a doorbell waits and asks for the wake (R259, R260, R263, R408). -/
def DoorbellsMoveTheirIndices : Prop :=
  ∀ (s : State) (ring : RingId) (v : BitVec 16), s.ordered →
    let n := ring.toNat
    let r := s.ring n
    let size := s.ringSize n
    (s.power.state = .run →
      (s.ringEn n = true → v.toNat < size → s.unfetched n + (v.toNat + size - r.sqTail % size) % size < size →
        ∃ t, exec (.sqTailDoorbell ring v) s = .next t ∧ t.ring n = { r with sqTail := v.toNat } ∧
          (∀ m, m ≠ n → t.ring m = s.ring m) ∧ t = { s with rings := t.rings }) ∧
      (s.ringEn n = true → size ≤ v.toNat ∨ size ≤ s.unfetched n + (v.toNat + size - r.sqTail % size) % size →
        ∃ t, exec (.sqTailDoorbell ring v) s = .next t ∧ t.ring n = { r with errDoorbell := true, stopped := true } ∧
          t.jobs = s.jobs ∧ t.eq.used + t.eq.dropped = s.eq.used + s.eq.dropped + 1) ∧
      (s.ringEn n = false → exec (.sqTailDoorbell ring v) s = .next s) ∧
      (v.toNat < size → (v.toNat + size - r.cqHead % size) % size ≤ r.cqUsed →
        ∃ t, exec (.cqHeadDoorbell ring v) s = .next t ∧
          t.ring n = { r with cqHead := v.toNat, cqUsed := r.cqUsed - (v.toNat + size - r.cqHead % size) % size } ∧
          (∀ m, m ≠ n → t.ring m = s.ring m) ∧ t = { s with rings := t.rings }) ∧
      (size ≤ v.toNat ∨ r.cqUsed < (v.toNat + size - r.cqHead % size) % size →
        ∃ t, exec (.cqHeadDoorbell ring v) s = .next t ∧ t.ring n = { r with errCqHead := true } ∧ t.jobs = s.jobs ∧
          t.eq.used + t.eq.dropped = s.eq.used + s.eq.dropped + 1)) ∧
    (s.power.state ≠ .run → ∀ i, i = .sqTailDoorbell ring v ∨ i = .cqHeadDoorbell ring v →
      exec i s = .next { s with held := s.held ++ [i], power := { s.power with waking := true } })

/-- A ring that may fetch and whose read succeeds takes the descriptor at its head as a job: BAD_DESC where a check fails,
EPOCH_STALE where its epoch is neither current nor staged, held where it is staged, waiting else; a failed read stops the ring
(R261, R264, R266, R267). -/
def DescriptorFetchAddsAJob : Prop :=
  ∀ (s : State) (ring : RingId), s.ordered → s.mayFetch ring.toNat = true →
    let n := ring.toNat
    let r := s.ring n
    let v := ofBytes (s.getHost ((s.reg (Reg.HQ_SQ_BASE n)).toNat + 64 * r.sqHead) 64)
    let d := if s.isV1 n then desc1 (s.fld (Reg.HQ_SQ_CTRL n) 12 11) v else desc2 v
    (∃ t j, exec (.descriptorFetch ring true) s = .next t ∧ t.jobs = s.jobs ++ [j] ∧ j.desc = d ∧ j.ring = n ∧ j.num = 0 ∧
      j.status = (if s.descOk n d = false then some .badDesc
        else if d.epoch = 0xFFFFFFFF ∨ d.epoch = s.cfg.cur ∨ (s.cfg.staged.elim false fun e => decide (e.num = d.epoch)) = true
          then none else some .epochStale) ∧
      (j.status = none → j.phase = if d.epoch = 0xFFFFFFFF ∨ d.epoch = s.cfg.cur then .waiting else .epochHeld) ∧
      (j.status ≠ none → j.phase = .stopped) ∧
      t.ring n = { r with sqHead := (r.sqHead + 1) % s.ringSize n, fetched := r.fetched + 1 } ∧
      (∀ m, m ≠ n → t.ring m = s.ring m) ∧ t = { s with rings := t.rings, jobs := t.jobs }) ∧
    ∃ t, exec (.descriptorFetch ring false) s = .next t ∧ t.ring n = { r with errFetch := true, stopped := true } ∧
      t.jobs = s.jobs ∧ t.eq.used + t.eq.dropped = s.eq.used + s.eq.dropped + 1

/-- The job that an admission takes is admissible, with free cores and not outranked, and no other such job stands before it
by priority and rotation (R269, R270). -/
def AdmissionTakesTheBestRank : Prop :=
  ∀ (s : State) (j : Job), s.toAdmit = some j →
    s.admissible j = true ∧ s.coresFree j = true ∧ s.outranked j = false ∧ s.headJob j.ring = some j ∧
    ∀ k, k ∈ s.admissibles → s.coresFree k = true → s.outranked k = false → s.rank j.ring ≤ s.rank k.ring

/-- JOB_ADMIT starts that job: it takes the next number, each of its cores begins its list with the initial task record, and
nothing else of the device changes but the journal of a replayable job (R218, R265, R268, R299, R323). -/
def AdmittedJobStarts : Prop :=
  ∀ (s : State) (j : Job), s.ordered → s.toAdmit = some j → j.replayable = false →
    (∀ k ∈ s.jobs, k.ring = j.ring → k.idx = j.idx → k = j) →
    let num := if s.lastJob + 1 < 2 ^ 32 then s.lastJob + 1 else 1
    s.findJob num = none →
    ∃ t, exec .jobAdmit s = .next t ∧
      t.jobs = (s.jobs.map fun k => if k.ring = j.ring ∧ k.idx = j.idx then
        { k with num := num, phase := .running, epoch := s.cfg.cur.toNat } else k) ∧
      (∀ c, t.core c = if c ∈ j.cores then { s.core c with
          job := num, seqState := .running, nextSeq := 0, buffer := [], skip := 0, issued := [], x := 0, sRd := 0, sWr := 0
          task := TaskRec.initial, phaseOp := none, waitOn := none, ballast := none, group := none, lastAnchor := none }
        else s.core c) ∧
      t = { s with jobs := t.jobs, cores := t.cores, lastJob := num, lastRing := j.ring }

/-- The exposure slots that an anchor of a job has named have taken what it observed, and no other slot has changed (R117). -/
def slotsUpdated (s t : State) (j : Job) : Prop :=
  (∀ z ∈ j.frozen, let e := s.expoSlot z.slot
    t.expoSlot z.slot = if z.anchored then { e with
      hist := e.hist.set e.head (j.observedOf z.slot), head := (e.head + 1) % 16, valid := min (e.valid + 1) 16
      carry := if 0 < z.retries then min 3 z.retries else e.carry - 1, updated := s.deviceTime } else e) ∧
    ∀ m, m ∉ j.frozen.map (·.slot) → t.expoSlot m = s.expoSlot m

/-- JOB_COMPLETE of a job that has ended with a status, whose cores have stopped, whose checks are done and whose requests are
settled, drops what its commands have left dirty, writes its record at the completion tail, advances the tail, counts it, and
frees its cores; a failed job updates no exposure slot (R117, R203, R204, R262, R278, R279, R281). -/
def EndedJobIsReported : Prop :=
  ∀ (s : State) (job : Word32) (j : Job) (st : Status), s.ordered → job ≠ 0 → s.findJob job.toNat = some j →
    j.status = some st → s.settled j = true → (s.ring j.ring).aborting = false → j.syncDevs = [] →
    s.drained j = true → (∀ c ∈ s.coresOf j, (s.core c).check = none) →
    let n := j.ring
    let r := s.ring n
    let bytes := recordBytes (s.isV1 n) j st r.sqHead s.deviceTime j.epoch r.phase
    let addr := (s.reg (Reg.HQ_CQ_BASE n)).toNat + (if s.isV1 n then 16 else 32) * r.cqTail
    let tail := (r.cqTail + 1) % s.ringSize n
    ∃ t, exec (.jobComplete job) s = .next t ∧ t.getHost addr bytes.length = bytes ∧
      (∀ a, a < addr ∨ addr + bytes.length ≤ a → t.cell (.host a) = s.cell (.host a)) ∧
      (t.ring n).cqTail = tail ∧ (t.ring n).cqUsed = r.cqUsed + 1 ∧
      (t.ring n).phase = (if tail = 0 then !r.phase else r.phase) ∧
      t.reg (Reg.HQ_JOBS n) = s.reg (Reg.HQ_JOBS n) + 1 ∧
      t.jobs = s.jobs.filter (fun k => !decide (k.ring = j.ring ∧ k.idx = j.idx)) ∧
      (∀ c, t.core c = if c ∈ s.coresOf j then { (s.core c).halt with job := 0, dirty := (t.core c).dirty } else s.core c) ∧
      (∀ c ∈ s.coresOf j, ∀ p, (t.core c).holders p = if j.num ∈ (s.core c).holders p then [] else (s.core c).holders p) ∧
      t.windows = s.windows.filter (fun w => w.2.job ≠ j.num) ∧ t.shared = s.shared ∧ t.stacked = s.stacked ∧
      t.sync = s.sync ∧ (st.failed = true → t.expo = s.expo) ∧
      (st.failed = false → (j.frozen.map (·.slot)).Nodup → slotsUpdated s t j)

/-- JOB_COMPLETE of a job whose cores have completed their lists reports it OK: its dirty pairs are committed, every slot
that an anchor named takes what it observed, the ADD on its done counter is made, and the record has status 0 (R68, R117,
R278, R281). -/
def FinishedJobIsReportedOk : Prop :=
  ∀ (s : State) (job : Word32) (j : Job), s.ordered → s.findJob job.toNat = some j → j.replayable = false →
    (j.frozen.map (·.slot)).Nodup →
    s.settled j = true → s.finished j = true → (s.ring j.ring).aborting = false → j.syncDevs = [] → j.cores.Nodup →
    (∀ c ∈ j.cores, (s.core c).group = none ∧ (s.core c).waitOn = none) →
    let n := j.ring
    let r := s.ring n
    let bytes := recordBytes (s.isV1 n) j .ok r.sqHead s.deviceTime j.epoch r.phase
    let addr := (s.reg (Reg.HQ_CQ_BASE n)).toNat + (if s.isV1 n then 16 else 32) * r.cqTail
    ∃ t, exec (.jobComplete job) s = .next t ∧ t.getHost addr bytes.length = bytes ∧
      t.jobs = s.jobs.filter (fun k => !decide (k.ring = j.ring ∧ k.idx = j.idx)) ∧
      (∀ m, t.ctr m = if j.desc.doneEn = true ∧ m = j.desc.doneCtr then s.ctr m + 1 else s.ctr m) ∧
      (∀ c ∈ j.cores, (t.core c).job = 0 ∧ (t.core c).seqState = .idle ∧
        (∀ p, p < 256 → (t.core c).live.getLsbD p = ((s.core c).live.getLsbD p != decide (j.num ∈ (s.core c).holders p))) ∧
        ∀ q, (t.core c).physRow q = (s.core c).physRow q) ∧
      slotsUpdated s t j ∧ t.reg (Reg.HQ_JOBS n) = s.reg (Reg.HQ_JOBS n) + 1

/-- PREEMPT, where every victim stands at a tile boundary and its save areas can be written, keeps the victims' contexts,
frees their cores, and starts the head job there (R272, R273). -/
def PreemptSuspendsAndStarts : Prop :=
  ∀ (s : State) (ring : RingId) (j : Job), s.ordered → s.faultless → s.preemptor ring.toNat = some j → j.replayable = false →
    (∀ v ∈ s.victims j, s.jobAtBoundary v = true ∧ ¬(v.ring = j.ring ∧ v.idx = j.idx) ∧ ∀ c ∈ v.cores,
      (∀ b ∈ s.victims j, b ≠ v → c ∉ b.cores) ∧
      ∀ a ∈ saveAddrs (s.saveArea v.ring c), a < 2 ^ 48 ∧ placeOpen s true (.stacked a) = true) →
    ((s.victims j).map (·.num)).Nodup → (∀ k ∈ s.jobs, k.ring = j.ring → k.idx = j.idx → k = j) →
    let num := if s.lastJob + 1 < 2 ^ 32 then s.lastJob + 1 else 1
    s.findJob num = none →
    ∃ t, exec (.preempt ring) s = .next t ∧
      (∀ v ∈ s.victims j, ∃ v' ∈ t.jobs, v'.num = v.num ∧ v'.ring = v.ring ∧ v'.idx = v.idx ∧ v'.phase = .preempted ∧
        v'.saved = v.cores.map (fun c => (c, (s.core c).saved)) ∧
        ∀ c ∈ v.cores, c ∉ j.cores → (t.core c).job = 0 ∧ (t.core c).seqState = .preempted ∧ (t.core c).issued = []) ∧
      (∃ j' ∈ t.jobs, j'.ring = j.ring ∧ j'.idx = j.idx ∧ j'.num = num ∧ j'.phase = .running) ∧
      (∀ c ∈ j.cores, (t.core c).job = num ∧ (t.core c).seqState = .running ∧ (t.core c).nextSeq = 0 ∧
        (t.core c).task = TaskRec.initial ∧ (t.core c).facets = (s.core c).facets ∧ (t.core c).mem = (s.core c).mem) ∧
      t.regs = s.regs ∧ t.sync = s.sync ∧ t.shared = s.shared ∧ t.host = s.host

/-- RESUME of a pre-empted job that may resume, whose save areas can be read, puts its contexts back and runs it on; facets,
memory and tags keep what they hold now (R275, R276). -/
def ResumeRestoresContexts : Prop :=
  ∀ (s : State) (job : Word32) (p : Job), s.ordered → s.faultless → s.findJob job.toNat = some p → s.resumable p = true →
    (p.saved.map (·.1)).Nodup →
    (∀ c ∈ p.cores, ∀ a ∈ saveAddrs (s.saveArea p.ring c), a < 2 ^ 48 ∧ placeOpen s false (.stacked a) = true) →
    ∃ t, exec (.resume job) s = .next t ∧
      t.jobs = s.jobs.map (fun k => if k.num = p.num then { k with
        phase := .running, saved := [], savedCmds := [], flags := { k.flags with preempted := true } } else k) ∧
      (∀ c k, (c, k) ∈ p.saved → (t.core c).job = k.job ∧ (t.core c).seqState = .running ∧ (t.core c).nextSeq = k.nextSeq ∧
        (t.core c).task = k.task ∧ (t.core c).x = k.x ∧ (t.core c).issued = k.issued ∧ (t.core c).live = k.live ∧
        (∀ r, (t.core c).physRow r = k.physRow r) ∧ (t.core c).facets = (s.core c).facets ∧
        (t.core c).mem = (s.core c).mem ∧ (t.core c).full = (s.core c).full ∧ (t.core c).chains = (s.core c).chains) ∧
      (∀ c, c ∉ p.saved.map (·.1) → t.core c = s.core c) ∧ t.held = s.held ++ p.savedCmds ∧
      t = { s with cores := t.cores, jobs := t.jobs, held := t.held }

/-- RING_ENABLE of a ring not in use starts it empty, with phase 1; RING_DISABLE of one without jobs stops it at once; ABORT
ends the jobs of its ring that have not started, and stops the ring when no job is left (R256, R277, R293). -/
def RingsStartAndStop : Prop :=
  ∀ (s : State) (ring : RingId), s.ordered →
    let n := ring.toNat
    let r := s.ring n
    (s.ringEn n = false → ∃ t, exec (.ringEnable ring) s = .next t ∧ t.ringEn n = true ∧
      t.ring n = { r with sqHead := 0, sqTail := 0, cqHead := 0, cqTail := 0, cqUsed := 0, phase := true, stopped := false
                          noticed := true } ∧
      (∀ m, m ≠ n → t.ring m = s.ring m) ∧ (∀ off, off ≠ Reg.HQ_SQ_CTRL n → t.reg off = s.reg off) ∧
      t = { s with rings := t.rings, regs := t.regs }) ∧
    (s.ringEn n = true → s.jobsOf n = [] → ∃ t, exec (.ringDisable ring) s = .next t ∧ t.ringEn n = false ∧
      (∀ off, off ≠ Reg.HQ_SQ_CTRL n → t.reg off = s.reg off) ∧ t = { s with regs := t.regs }) ∧
    (s.jobsOf n = [] → ∃ t, exec (.abort ring) s = .next t ∧ (t.ring n).stopped = true ∧ (t.ring n).aborting = false ∧
      (∀ m, m ≠ n → t.ring m = s.ring m) ∧ t.jobs = s.jobs) ∧
    ((∀ j ∈ s.jobsOf n, j.unstarted = true ∧ j.status = none) → s.jobsOf n ≠ [] →
      ∃ t, exec (.abort ring) s = .next t ∧ (t.ring n).aborting = true ∧ t.cores = s.cores ∧
      t.jobs = s.jobs.map fun j => if j.ring = n then { j with status := some .aborted, phase := .stopped } else j)

/-- An event record of 64 bytes goes to the tail of the event ring in use while it has room, the tail moves on and the
phase turns on a wrap; without room the record is dropped and counted (R262, R288, R289). -/
def EventsReachTheRingOrAreCounted : Prop :=
  ∀ (s : State) (e : Event), s.ordered →
    let addr := (s.reg Reg.HQ_EQ_BASE).toNat + 64 * s.eq.tail
    let tail := (s.eq.tail + 1) % s.eqSize
    (s.eqEnabled = true → s.eq.used < s.eqSize →
      (s.postEvent e).getHost addr 64 = e.bytes s.deviceTime s.eq.phase ∧
      (∀ a, a < addr ∨ addr + 64 ≤ a → (s.postEvent e).cell (.host a) = s.cell (.host a)) ∧
      (s.postEvent e).eq = { s.eq with tail := tail, used := s.eq.used + 1, phase := if tail = 0 then !s.eq.phase else s.eq.phase } ∧
      (s.postEvent e).regs = s.regs ∧ (s.postEvent e).cores = s.cores ∧ (s.postEvent e).jobs = s.jobs) ∧
    (s.eqEnabled = false ∨ s.eqSize ≤ s.eq.used →
      (s.postEvent e).reg Reg.HQ_EQ_LOST = s.reg Reg.HQ_EQ_LOST + 1 ∧ (s.postEvent e).host = s.host ∧
      (s.postEvent e).eq = { s.eq with dropped := s.eq.dropped + 1 } ∧ (s.postEvent e).out = s.out)

/-- The event ring starts empty with phase 1 and stops at once; a released head frees its slots, and after losses the count
of the lost records is written first; the count is cleared by reading HQ_EQ_LOST, a mailbox read takes the oldest entry or
notes the underrun, the idle-timeout notice is sent once, and unmasking a vector sends what is pending (R59, R256, R263, R285,
R287, R289, R482). -/
def EventRingMailboxAndVectors : Prop :=
  ∀ (s : State), s.ordered →
    (s.eqEnabled = false → s.uarid.fallback = false → ∃ t, exec (.eventRingEnable true) s = .next t ∧ t.eqEnabled = true ∧
      t.eq = { s.eq with head := 0, tail := 0, used := 0, phase := true } ∧ t = { s with eq := t.eq, regs := t.regs }) ∧
    (∃ t, exec (.eventRingEnable false) s = .next t ∧ t.eqEnabled = false ∧ t = { s with regs := t.regs }) ∧
    (∀ head : BitVec 16, let k := (head.toNat + s.eqSize - s.eq.head % s.eqSize) % s.eqSize
      s.eqEnabled = true → head.toNat < s.eqSize → k ≤ s.eq.used → k ≠ 0 →
      ∃ t, exec (.eventHeadRelease head) s = .next t ∧ t.eq.head = head.toNat ∧ t.eq.dropped = 0 ∧
        t.eq.used = s.eq.used - k + (if s.eq.dropped = 0 then 0 else 1) ∧
        (s.eq.dropped ≠ 0 → t.getHost ((s.reg Reg.HQ_EQ_BASE).toNat + 64 * s.eq.tail) 64 =
          Event.bytes { source := 0x1F, detail := 3, info1 := s.eq.dropped } s.deviceTime s.eq.phase)) ∧
    (∃ t, exec (.hqEqLostRead .whole) s = .next t ∧ t.hostRead = .value (s.reg Reg.HQ_EQ_LOST) ∧
      t.reg Reg.HQ_EQ_LOST = 0 ∧ (∀ off, off ≠ Reg.HQ_EQ_LOST → t.reg off = s.reg off)) ∧
    (∀ ring : RingId, ∃ t, exec (.hqMboxRead ring .whole) s = .next t ∧
      (∀ v l, (s.ring ring.toNat).mbox = v :: l → t.hostRead = .value v ∧
        t.ring ring.toNat = { s.ring ring.toNat with mbox := l, mboxLast := v }) ∧
      ((s.ring ring.toNat).mbox = [] → t.hostRead = .value (s.ring ring.toNat).mboxLast ∧
        t.ring ring.toNat = { s.ring ring.toNat with underrun := true })) ∧
    (∀ ring : RingId, s.idleDue ring.toNat = true → (s.vector ring.toNat).masked = false →
      ∃ t, exec (.idleTimeoutNotice ring) s = .next t ∧ t.out = s.out ++ [.msix ring.toNat] ∧ t.idleDue ring.toNat = false) ∧
    (∀ v : Fin 33, ∃ t, exec (.msixUnmask v) s = .next t ∧ t.vector v.val = ⟨false, false⟩ ∧
      (∀ w, w ≠ v.val → t.vector w = s.vector w) ∧
      t.out = s.out ++ if (s.vector v.val).pending then [.msix v.val] else [])

/-- PREEMPT, where every victim stands at a tile boundary and its save areas can be written, keeps the victims' contexts,
frees their cores, and starts the head job there (R272, R273).
RESUME of a pre-empted job that may resume, whose save areas can be read, puts its contexts back and runs it on; facets,
memory and tags keep what they hold now (R275, R276). -/
def Obligations.JobsYieldAndResume : Prop := PreemptSuspendsAndStarts ∧ ResumeRestoresContexts

/-- JOB_COMPLETE of a job that has ended with a status, whose cores have stopped, whose checks are done and whose requests are
settled, drops what its commands have left dirty, writes its record at the completion tail, advances the tail, counts it, and
frees its cores; a failed job updates no exposure slot (R117, R203, R204, R262, R278, R279, R281).
JOB_COMPLETE of a job whose cores have completed their lists reports it OK: its dirty pairs are committed, every slot
that an anchor named takes what it observed, the ADD on its done counter is made, and the record has status 0 (R68, R117,
R278, R281). -/
def Obligations.EndedJobsAreReported : Prop := EndedJobIsReported ∧ FinishedJobIsReportedOk

/-- RING_ENABLE of a ring not in use starts it empty, with phase 1; RING_DISABLE of one without jobs stops it at once; ABORT
ends the jobs of its ring that have not started, and stops the ring when no job is left (R256, R277, R293).
A doorbell in RUN: a new tail within a ring in use that passes no unfetched slot is taken, another sets the error bit,
stops the ring and posts a QUEUE event; a new head of the completion ring, in use or not, releases written slots, another sets
its error bit. Outside RUN a doorbell waits and asks for the wake (R259, R260, R263, R408).
A ring that may fetch and whose read succeeds takes the descriptor at its head as a job: BAD_DESC where a check fails,
EPOCH_STALE where its epoch is neither current nor staged, held where it is staged, waiting else; a failed read stops the ring
(R261, R264, R266, R267). -/
def Obligations.RingsBringJobs : Prop := RingsStartAndStop ∧ DoorbellsMoveTheirIndices ∧ DescriptorFetchAddsAJob

/-- An event record of 64 bytes goes to the tail of the event ring in use while it has room, the tail moves on and the
phase turns on a wrap; without room the record is dropped and counted (R262, R288, R289).
The event ring starts empty with phase 1 and stops at once; a released head frees its slots, and after losses the count
of the lost records is written first; the count is cleared by reading HQ_EQ_LOST, a mailbox read takes the oldest entry or
notes the underrun, the idle-timeout notice is sent once, and unmasking a vector sends what is pending (R59, R256, R263, R285,
R287, R289, R482). -/
def Obligations.EventsAndMailboxes : Prop := EventsReachTheRingOrAreCounted ∧ EventRingMailboxAndVectors

/-- The job that an admission takes is admissible, with free cores and not outranked, and no other such job stands before it
by priority and rotation (R269, R270).
JOB_ADMIT starts that job: it takes the next number, each of its cores begins its list with the initial task record, and
nothing else of the device changes but the journal of a replayable job (R218, R265, R268, R299, R323). -/
def Obligations.JobsAreAdmittedAndStart : Prop := AdmissionTakesTheBestRank ∧ AdmittedJobStarts

/-! ### Facet care, parallax, containment -/

/-- The place of byte k of a load record's source for core c: core memory of the core or of its cluster, shared, stacked or host
memory; no window is open to a refill (R44, R46). -/
def recordPlace (c : Nat) (a : Word64) (k : Nat) : Place :=
  let off := bits a 0 60 + k
  match bits a 60 4 with
  | 0 => .core c off
  | 1 => .core (c / 64 * 64 + off / 2 ^ 19) (off % 2 ^ 19)
  | 2 => .shared off
  | 3 => .stacked off
  | 4 => .host off
  | n => .window n off

/-- n bytes of a load record's source from byte i on, as the device's memory holds them (R46). -/
def recorded (s : State) (c : Nat) (a : Word64) (i n : Nat) : List Byte :=
  (List.range n).map fun k => ((cellOf s (recordPlace c a (i + k))).map s.cell).getD 0

/-- Whether n bytes of a load record's source from byte i on are reached at once. -/
def recordOpen (s : State) (c : Nat) (a : Word64) (i n : Nat) : Prop :=
  ∀ k, k < n → placeOpen s false (recordPlace c a (i + k)) = true

/-- The scale bytes that a load record gives logical column j (R43). -/
def recordScales (s : State) (c : Nat) (l : LoadRec) (j : Nat) : List Nat :=
  (recorded s c l.scale (64 * j) (ceilDiv l.rowCount l.blk)).map (·.toNat)

/-- The image of row r that a load record gives, expanded from FP4 or as it stands (R44 to R46). -/
def recordedRow (s : State) (c : Nat) (l : LoadRec) (r : Nat) : RowImage :=
  let v := ofBytes (recorded s c l.src (l.pitch * (r - l.rowFirst)) 16)
  if l.loads r = false then 0
  else if l.fmt = 8 then
    fp4Row l.blk ((List.range 25).map fun j => (recordScales s c l j, (fp4Column l.blk l.rowCount (recordScales s c l j)).2)) r v
  else BitVec.ofNat 128 v

/-- A scrub read that falls due visits the next row of the LOADED facets, and counts it. A row of good parity is noted clean; a
first failure is marked, and kept for its refill where refills are enabled and the record covers the row, or makes the facet
STALE; a second failure makes it FAULTY, which the fault log keeps. With row 0 of a facet of format FP4 the 25 entries of its
exponent store are visited too, and each that fails is counted. Where no read is due, or the cluster's clock stands, nothing
happens (R49, R50, R53). -/
def ScrubReadVisitsTheNextRow : Prop :=
  ∀ (s : State) (c : CoreId), s.ordered →
    ((s.core c.toNat).scrubDue = false ∨ s.clockStopped c.toNat = true → exec (.scrubRead c) s = .next s) ∧
    ∀ (f r : Nat), (s.core c.toNat).scrubDue = true → s.fld (Reg.FCT_CTRL c.toNat) 1 1 = 1 → s.clockStopped c.toNat = false →
    s.module.fatal = false → (s.core c.toNat).scrubNext = some (f, r) →
    let k := s.core c.toNat
    let g := k.facet f
    let whole := r = 0 ∧ g.fmt = 8
    g.state = .loaded ∧ r < 1024 ∧ ∃ t, exec (.scrubRead c) s = .next t ∧
      (t.core c.toNat).scrubFacet = f ∧ (t.core c.toNat).scrubRow = r + 1 ∧ (t.core c.toNat).scrubDue = false ∧
      t.reg (Reg.FCT_SCRUB_ROWS c.toNat) = s.reg (Reg.FCT_SCRUB_ROWS c.toNat) + 1 ∧
      (∀ y, y ≠ f → (t.core c.toNat).facet y = k.facet y) ∧ (∀ d, d ≠ c.toNat → t.core d = s.core d) ∧
      ((t.core c.toNat).facet f).rows = g.rows ∧ t.jobs = s.jobs ∧
      (g.badSegment r = none →
        (whole → ∀ j, j < 25 → g.expParityOf j = Sparse.get false g.expParity j) →
        t = { s with cores := t.cores, regs := t.regs } ∧
          (∀ off, off ≠ Reg.FCT_SCRUB_ROWS c.toNat → t.reg off = s.reg off) ∧
          (t.core c.toNat).facet f = { g with lastClean := ((t.core c.toNat).facet f).lastClean } ∧
          ∀ y, Sparse.get 0 ((t.core c.toNat).facet f).lastClean y =
            if y = r ∨ (whole ∧ 1024 ≤ y ∧ y < 1049) then s.deviceTime else Sparse.get 0 g.lastClean y) ∧
      (whole → g.badSegment r = none → t.reg (Reg.FCT_PARITY_ERRS c.toNat) = s.reg (Reg.FCT_PARITY_ERRS c.toNat) + BitVec.ofNat 64
        ((List.range 25).countP fun j => decide (g.expParityOf j ≠ Sparse.get false g.expParity j))) ∧
      (¬ whole → ∀ n, g.badSegment r = some n →
        t.reg (Reg.FCT_PARITY_ERRS c.toNat) = s.reg (Reg.FCT_PARITY_ERRS c.toNat) + 1 ∧
        (t.reg (Reg.FCT_PARITY_LOG c.toNat)).getLsbD 20 = true ∧ t.fld (Reg.FCT_PARITY_LOG c.toNat) 0 5 = f % 32 ∧
        t.fld (Reg.FCT_PARITY_LOG c.toNat) 5 10 = r ∧ t.fld (Reg.FCT_PARITY_LOG c.toNat) 15 3 = n ∧
        (r ∉ g.marks → ((t.core c.toNat).facet f).marks = g.marks ++ [r] ∧
          (s.fld (Reg.FCT_CTRL c.toNat) 7 1 = 1 ∧ g.refillable r = true →
            ((t.core c.toNat).facet f).state = .loaded ∧
            ((t.core c.toNat).facet f).refills = g.refills ++ [⟨r, n, Sparse.get 0 g.lastClean r⟩] ∧ t.eq = s.eq) ∧
          (s.fld (Reg.FCT_CTRL c.toNat) 7 1 = 0 ∨ g.refillable r = false → ((t.core c.toNat).facet f).state = .stale)) ∧
        (r ∈ g.marks → ((t.core c.toNat).facet f).state = .faulty ∧
          t.uarid.faultLog = s.uarid.faultLog ++ [(c.toNat, f)]))

/-- FACET_REFILL writes the row, or the entry of the exponent store, of the oldest waiting finding again as its load record
says, reports it corrected, and leaves the facet's state; while a command on the facet is in progress, or a check of it is
pending, it waits (R46, R50, R51, R154). -/
def RefillWritesTheRecordedRow : Prop :=
  ∀ (s : State) (c : CoreId) (fi : FacetId) (r : Refill) (rest : List Refill) (l : LoadRec), s.ordered → s.faultless →
    let g := (s.core c.toNat).facet fi.toNat
    g.refills = r :: rest → g.record = some l →
    (s.refillWaits c.toNat fi.toNat = true → exec (.facetRefill c fi) s = .next (s.hold (.facetRefill c fi))) ∧
    (s.refillWaits c.toNat fi.toNat = false → r.row < 1049 → g.refillable r.row = true →
      (r.row < 1024 → l.loads r.row = true → recordOpen s c.toNat l.src (l.pitch * (r.row - l.rowFirst)) 16) →
      (l.fmt = 8 → ∀ j, j < 25 → recordOpen s c.toNat l.scale (64 * j) (ceilDiv l.rowCount l.blk)) →
      ∃ t, exec (.facetRefill c fi) s = .next t ∧
        (r.row < 1024 → (t.core c.toNat).facet fi.toNat =
          { g.putRow r.row (recordedRow s c.toNat l r.row) s.deviceTime with refills := rest }) ∧
        (1024 ≤ r.row →
          let e := fp4Column l.blk l.rowCount (recordScales s c.toNat l (r.row - 1024))
          (t.core c.toNat).facet fi.toNat =
            { g.putExp (r.row - 1024) e.1 (e.2.map fun v => v - e.1) s.deviceTime with refills := rest }) ∧
        (let log := parityLog fi.toNat (r.row % 1024) r.segment (decide (1024 ≤ r.row))
         t.reg (Reg.FCT_PARITY_LOG c.toNat) = if s.reg (Reg.FCT_PARITY_LOG c.toNat) = log false then log true
          else s.reg (Reg.FCT_PARITY_LOG c.toNat)) ∧ t.fld Reg.GLB_FAULT_STAT 1 3 = clsCorrected ∧
        (∀ y, y ≠ fi.toNat → (t.core c.toNat).facet y = (s.core c.toNat).facet y) ∧ (∀ d, d ≠ c.toNat → t.core d = s.core d) ∧
        t.jobs = s.jobs ∧ t.shared = s.shared ∧ t.stacked = s.stacked)

/-- PARALLAX_CHECK_DONE compares the captured runs with the exact ones of the facet as it stands: a difference is a hard
mismatch, whose first strike contains the job and whose second makes the facet FAULTY; else the metric ρ decides between
pass, soft and alarm. PARALLAX_FORCE makes the pending check urgent (R146, R148 to R152, R155). -/
def ParallaxChecksDecide : Prop :=
  ∀ (s : State) (c : CoreId) (p : Check), s.ordered → (s.core c.toNat).check = some p →
    let k := s.core c.toNat
    let g := k.facet p.facet
    let sound := decide (p.exact g = p.runs)
    let rho := (p.wide g).map (·.1)
    (∃ t, exec (.parallaxForce c) s = .next t ∧ (t.core c.toNat).check = some { p with urgent := true } ∧
      (∀ d, d ≠ c.toNat → t.core d = s.core d) ∧ t = { s with cores := t.cores }) ∧
    ∃ t, exec (.parallaxCheckDone c) s = .next t ∧ (t.core c.toNat).check = none ∧
      t.reg Reg.PLX_SAMPLES = s.reg Reg.PLX_SAMPLES + 1 ∧ (∀ m, t.cell m = s.cell m ∨ ∃ a, m = .host a) ∧
      (sound = true → t.core c.toNat = { k with check := none } ∧
        (rho = none → t.reg Reg.PLX_NOREF = s.reg Reg.PLX_NOREF + 1 ∧ t.jobs = s.jobs ∧ t.eq = s.eq) ∧
        ∀ v, rho = some v →
          (Val.lt (.of ⟨1, bits p.plx 6 3⟩) v = false → t.jobs = s.jobs ∧ t.eq = s.eq) ∧
          (Val.lt (.of ⟨1, bits p.plx 6 3⟩) v = true → t.jobs = (s.flagJob p.job fun f => { f with parallaxSoft := true }).jobs ∧
            (Val.lt (.of ⟨1, bits p.plx 9 4⟩) v = false → t.reg Reg.PLX_SOFT = s.reg Reg.PLX_SOFT + 1) ∧
            (Val.lt (.of ⟨1, bits p.plx 9 4⟩) v = true → t.reg Reg.PLX_HARD_DATA = s.reg Reg.PLX_HARD_DATA + 1))) ∧
      (sound = false → t.reg Reg.PLX_HARD = s.reg Reg.PLX_HARD + 1 ∧
        (k.strikes.getLsbD p.facet = true → p.facet < 32 → g.state ≠ .faulty →
          ((t.core c.toNat).facet p.facet).state = .faulty ∧
          ∀ j, s.findJob p.job = some j → j.status = none → ∃ j' ∈ t.jobs, j'.num = p.job ∧ j'.status = some .facetFault) ∧
        (k.strikes.getLsbD p.facet = false → p.facet < 32 → (t.core c.toNat).strikes.getLsbD p.facet = true ∧
          (t.core c.toNat).facets = k.facets ∧
          ∀ j, s.findJob p.job = some j → j.status = none → j.contained = none →
            ∃ j' ∈ t.jobs, j'.num = p.job ∧ j'.phase = .stopped ∧ j'.contained = some ⟨1, p.seq, 0, p.vector⟩ ∧ j'.faultCore = c.toNat))

/-- RESCALE_RETRY of an overflowed group whose commands have drained drops the group's dirty pairs and what its anchors have
observed, and starts again at its anchor, with the task record and the claim registers of then, one re-run further; the job
carries RESCALED (R81, R117). -/
def RescaleRetryGoesBackToTheAnchor : Prop :=
  ∀ (s : State) (c : CoreId) (j : Job) (g : RescaleGroup), s.ordered → (s.core c.toNat).group = some g →
    s.jobOn c.toNat = some j → g.overflow = true → (∀ e ∈ (s.core c.toNat).issued, g.anchor.seq ≤ e.seq → e.done = true) →
    let k := s.core c.toNat
    ∃ t, exec (.rescaleRetry c) s = .next t ∧ (t.core c.toNat).nextSeq = g.anchor.seq ∧ (t.core c.toNat).buffer = [] ∧
      (t.core c.toNat).task = g.anchor.task ∧ (t.core c.toNat).x = g.anchor.x ∧ (t.core c.toNat).sRd = g.anchor.sRd ∧
      (t.core c.toNat).sWr = g.anchor.sWr ∧ (t.core c.toNat).issued = k.issued.filter (fun e => decide (e.seq < g.anchor.seq)) ∧
      (t.core c.toNat).group = some { g with
        rows := [], rho := min 3 (g.rho + 1), overflow := false, closing := none } ∧
      (∀ p, (t.core c.toNat).holders p = if j.num ∈ k.holders p ∧ p ∈ g.rows.map (· % 256) then [] else k.holders p) ∧
      (∀ r, (t.core c.toNat).physRow r = k.physRow r) ∧ (t.core c.toNat).live = k.live ∧
      t.reg (Reg.ACM_RESCALES c.toNat) = s.reg (Reg.ACM_RESCALES c.toNat) + 1 ∧
      (∀ off, off ≠ Reg.ACM_RESCALES c.toNat → off ≠ Reg.ACM_DISCARDS c.toNat → t.reg off = s.reg off) ∧
      t.jobs = (s.modJob j.num fun y => { y with
        observed := y.observed.filter fun o => !decide (o.core = c.toNat ∧ g.anchor.seq ≤ o.seq)
        flags := { y.flags with rescaled := true } }).jobs ∧ (∀ d, d ≠ c.toNat → t.core d = s.core d) ∧
      t = { s with cores := t.cores, regs := t.regs, jobs := t.jobs, held := t.held, bankIdle := t.bankIdle }

/-- REPLAY_START of a contained job whose cores have stopped and whose requests are answered: a replayable job with fewer than three replays starts its
lists again on its cores, with its tags within its limits EMPTY and its windows closed; another ends, with REPLAY_LIMIT,
PARALLAX_HARD, TAG_MISMATCH or LOST (R321, R322, R328). -/
def ContainedJobReplaysOrEnds : Prop :=
  ∀ (s : State) (job : Word32) (j : Job) (k : Contained), s.ordered → s.findJob job.toNat = some j → j.contained = some k →
    j.status = none → s.drained j = true → s.settled j = true → s.module.fatal = false →
    (j.replayable = true → j.replays < 3 → k.detector ≠ 2 → s.coresOwn j = true → s.power.state = .run →
      ∃ t, exec (.replayStart job) s = .next t ∧
        (∃ j' ∈ t.jobs, j'.num = j.num ∧ j'.desc = j.desc ∧ j'.phase = .replaying ∧ j'.replays = j.replays + 1 ∧
          j'.contained = none ∧ j'.frozen = [] ∧ j'.journal = j.journal ∧ j'.flags.replayed = true ∧
          (k.detector = 1 → (j.faultCore, k.seq, k.vector) ∈ j'.forceCheck)) ∧
        (∀ c ∈ j.cores, (t.core c).job = j.num ∧ (t.core c).nextSeq = 0 ∧ (t.core c).issued = [] ∧
          (t.core c).task = TaskRec.initial ∧ (t.core c).mem = (s.core c).mem ∧ (t.core c).live = (s.core c).live ∧
          ∀ y, (t.core c).isFull y = (!decide ((s.reg (Reg.HQ_LIM_BASE j.ring 0)).toNat ≤ 64 * y ∧
            64 * y + 64 ≤ (s.reg (Reg.HQ_LIM_END j.ring 0)).toNat) && (s.core c).isFull y)) ∧
        (∀ c, c ∉ j.cores → t.core c = s.core c) ∧ t.reg Reg.GLB_REPLAYS = s.reg Reg.GLB_REPLAYS + 1 ∧
        t.windows = s.windows.filter (fun w => w.2.job ≠ j.num)) ∧
    (j.replayable = false ∨ 3 ≤ j.replays → ∃ t, exec (.replayStart job) s = .next t ∧
      ∃ j' ∈ t.jobs, j'.num = j.num ∧ j'.phase = .stopped ∧ j'.faultCore = j.faultCore ∧ j'.faultSeq = k.seq ∧
        j'.status = some (if 3 ≤ j.replays then .replayLimit else if k.detector = 1 then .parallaxHard
          else if k.detector = 2 then .tagMismatch else .lost))

/-- WATCHDOG contains the job of a command that has made no progress for the set time, as detector 5: that command is abandoned,
and of the others those that have started run on; FATAL_FAULT stops every
core, reports every fetched job LOST, and notes itself (R320, R321, R338, R339). -/
def Obligations.WatchdogAndFatalFaultStop : Prop :=
  ∀ (s : State), s.ordered →
    (∀ (c : CoreId) (j : Job) (e : Issued), s.jobOn c.toNat = some j → s.stuck j c.toNat = some e → j.status = none →
      j.contained = none → ∃ t, exec (.watchdog c) s = .next t ∧
        (∃ j' ∈ t.jobs, j'.num = j.num ∧ j'.phase = .stopped ∧ j'.contained = some ⟨5, e.seq, 0, 0⟩ ∧ j'.faultCore = c.toNat) ∧
        (∀ d ∈ s.coresOf j, (t.core d).waitOn = none ∧ (t.core d).seqState = .idle ∧ (t.core d).issued =
          (s.core d).issued.filter (·.drains (if d = c.toNat then some e.seq else none))) ∧
        (∀ d, d ∉ s.coresOf j → t.core d = s.core d) ∧ t.fld Reg.GLB_FAULT_STAT 4 3 = 5 ∧
        t.fld Reg.GLB_FAULT_STAT 1 3 = clsContained) ∧
    ∀ src, s.module.fatal = false → ∃ t, exec (.fatalFault src) s = .next t ∧ t.module.fatal = true ∧ t.jobs = [] ∧
      t.windows = [] ∧ t.requests = [] ∧ t.held = [] ∧ t.fld Reg.GLB_FAULT_STAT 0 1 = 1 ∧
      t.fld Reg.GLB_FAULT_STAT 1 3 = clsFatal ∧
      (∀ d, (t.core d).job = 0 ∧ (t.core d).issued = [] ∧ (t.core d).check = none ∧ (t.core d).mem = (s.core d).mem) ∧
      t.reg Reg.GLB_LOST = s.reg Reg.GLB_LOST + BitVec.ofNat 64 s.jobs.length ∧
      ∀ n, (t.ring n).cqUsed = (s.ring n).cqUsed + (s.jobsOf n).length

/-- A scrub read that falls due visits the next row of the LOADED facets, and counts it. A row of good parity is noted clean; a
first failure is marked, and kept for its refill where refills are enabled and the record covers the row, or makes the facet
STALE; a second failure makes it FAULTY, which the fault log keeps. With row 0 of a facet of format FP4 the 25 entries of its
exponent store are visited too, and each that fails is counted. Where no read is due, or the cluster's clock stands, nothing
happens (R49, R50, R53).
FACET_REFILL writes the row, or the entry of the exponent store, of the oldest waiting finding again as its load record
says, reports it corrected, and leaves the facet's state; while a command on the facet is in progress, or a check of it is
pending, it waits (R46, R50, R51, R154). -/
def Obligations.ScrubAndRefill : Prop := ScrubReadVisitsTheNextRow ∧ RefillWritesTheRecordedRow

/-- A FIRE or FIRET leaves its captured vector as the pending check: elements, runs and rows of the vector that the parallax
draw samples, or of the one that a replay must check, under the registers of its issue (R144, R145, R150).
PARALLAX_CHECK_DONE compares the captured runs with the exact ones of the facet as it stands: a difference is a hard
mismatch, whose first strike contains the job and whose second makes the facet FAULTY; else the metric ρ decides between
pass, soft and alarm. PARALLAX_FORCE makes the pending check urgent (R146, R148 to R152, R155). -/
def Obligations.ParallaxSamplesAndChecks : Prop := SampledVectorIsCaptured ∧ ParallaxChecksDecide

/-- RESCALE_RETRY of an overflowed group whose commands have drained drops the group's dirty pairs and what its anchors have
observed, and starts again at its anchor, with the task record and the claim registers of then, one re-run further; the job
carries RESCALED (R81, R117).
REPLAY_START of a contained job whose cores have stopped and whose requests are answered: a replayable job with fewer than three replays starts its
lists again on its cores, with its tags within its limits EMPTY and its windows closed; another ends, with REPLAY_LIMIT,
PARALLAX_HARD, TAG_MISMATCH or LOST (R321, R322, R328). -/
def Obligations.RetriesAndReplays : Prop := RescaleRetryGoesBackToTheAnchor ∧ ContainedJobReplaysOrEnds

/-! ### Translation, shared memory and registers from the host -/

/-- A page request r has failed between s and t: it was counted, its job has ended with PAGE_FAULT at its core and command, its
cores keep the other commands that had started, and no request of that job is left; cores of other jobs, memory, and other jobs stand (R204, R335). -/
def PageFailed (s t : State) (r : PageReq) : Prop :=
  t.reg Reg.GLB_PAGE_FAILS = s.reg Reg.GLB_PAGE_FAILS + 1 ∧ t.shared = s.shared ∧ t.stacked = s.stacked ∧
    t.hostPages = s.hostPages ∧ t.jobs.length = s.jobs.length ∧
    (∀ j ∈ s.jobs, j.num ≠ r.job → j ∈ t.jobs) ∧ (∀ d, (s.core d).job ≠ r.job → t.core d = s.core d) ∧
    ∀ j, s.findJob r.job = some j → j.status = none →
      (∀ q ∈ t.pageReqs, q.job ≠ r.job) ∧
      ∃ j' ∈ t.jobs, j'.num = r.job ∧ j'.status = some .pageFault ∧ j'.faultCore = r.core ∧ j'.faultSeq = r.seq ∧
        ∀ d ∈ s.coresOf j, (t.core d).issued = (s.core d).issued.filter (·.drains (if d = r.core then some r.seq else none))

/-- A request answered with success: it is tried again when its command next runs (R335). -/
def answeredReqs (s : State) (r : PageReq) : List PageReq :=
  s.pageReqs.map fun q => if q = r then { q with answered := true, tries := q.tries + 1 } else q

/-- Answers to page requests: success leaves the command to be tried again, failure, and no answer within pf_timeout_ms, end
the job with PAGE_FAULT. An answer to no outstanding request is ignored. After a Response Failure later HOST requests fail until
PRI Enable is set again (R334, R335). -/
def Obligations.PageAnswersSettleRequests : Prop :=
  ∀ (s : State), s.ordered →
    (∀ (g : BitVec 6) (failed : Bool),
      (s.pageReq g.toNat false = none → exec (.pageResponse g failed) s = .next s) ∧
      ∀ r, s.pageReq g.toNat false = some r → ∃ t, exec (.pageResponse g failed) s = .next t ∧
        (failed = false → t = { s with pageReqs := answeredReqs s r }) ∧ (failed = true → PageFailed s t r)) ∧
    (∀ (g : BitVec 9) (code : PrgCode),
      (s.pageReq g.toNat true = none → exec (.prgResponse g code) s = .next s) ∧
      ∀ r, s.pageReq g.toNat true = some r → ∃ t, exec (.prgResponse g code) s = .next t ∧
        (code = .success → t = { s with pageReqs := answeredReqs s r, hostPages := t.hostPages, freeCount := t.freeCount } ∧
          ∀ p, p ≠ r.va / 4096 → Sparse.get 0 t.hostPages p = Sparse.get 0 s.hostPages p) ∧
        (code ≠ .success → PageFailed s t r) ∧
        (code = .responseFailure → t.module.priFailed = true) ∧ (code ≠ .responseFailure → t.module = s.module)) ∧
    (∀ (g : BitVec 6), ∃ t, exec (.pageRequestTimeout g) s = .next t ∧
      ((s.pageReqs.find? fun q => decide (q.group = g.toNat) && !q.answered) = none → t = s) ∧
      ∀ r, (s.pageReqs.find? fun q => decide (q.group = g.toNat) && !q.answered) = some r →
        (1000000 * max 1 (s.fld Reg.GLB_FLT_CTRL 16 16) ≤ s.ticks - r.raised → PageFailed s t r) ∧
        (s.ticks - r.raised < 1000000 * max 1 (s.fld Reg.GLB_FLT_CTRL 16 16) → t = s)) ∧
    exec .priEnable s = .next { s with module := { s.module with priEnabled := true, priFailed := false } }

/-- What a read of a 64-bit register of value v answers and leaves of its latch, whole, or by its low or high half (R59). -/
def readAnswer (s t : State) (off : Nat) (w : ReadWidth) (v : Word64) : Prop :=
  t.hostRead = .value (match w with
    | .whole => v
    | .low => BitVec.ofNat 64 (v.toNat % 2 ^ 32)
    | .high => BitVec.ofNat 64 ((s.latch off).elim (v.toNat / 2 ^ 32) (·.toNat))) ∧
    t.latch off = (match w with
      | .whole => s.latch off
      | .low => some (v.extractLsb' 32 32)
      | .high => none) ∧
    ∀ o, o ≠ off → t.latch o = s.latch o

/-- The word of stacked memory after the one at an address, the first after the last (R341). -/
def nextWord (a : Word64) : Word64 := if 287997689856 ≤ a.toNat + 8 then 0 else BitVec.ofNat 64 (a.toNat + 8)

/-- The host's way to stacked memory: SMC_PHYS_DATA reads and writes the 8 bytes at SMC_PHYS_ADDR, all ones and nothing where
the slot is poisoned, and steps the address; a read of the latched high half makes no access. SMC_TLB_INV drops every cached
translation; an ATS invalidation is answered, and the pages it does not name keep their translation (R59, R332, R333, R341). -/
def Obligations.TranslationsAndStackedMemoryFromTheHost : Prop :=
  ∀ (s : State), s.ordered →
    let a := s.reg Reg.SMC_PHYS_ADDR
    exec .smcTlbInv s = .next { s with tlb := [] } ∧
    (∀ (addr : Word64) (pages : Nat), ∃ t, exec (.atsInvalidate addr pages) s = .next t ∧
      t = { s with hostPages := t.hostPages, freeCount := t.freeCount, out := s.out ++ [.atsDone addr.toNat pages] } ∧
      ∀ p, (p < addr.toNat / 4096 ∨ addr.toNat / 4096 + pages ≤ p) → Sparse.get 0 t.hostPages p = Sparse.get 0 s.hostPages p) ∧
    (∀ (w : ReadWidth), w ≠ .high → ∀ bad, Sparse.get Ecc.good s.stackedEcc (a.toNat / 64) = (if bad then .poisoned else .good) →
      ∃ t, exec (.smcPhysDataRead w) s = .next t ∧
        readAnswer s t Reg.SMC_PHYS_DATA w
          (if bad then 0xFFFFFFFFFFFFFFFF else BitVec.ofNat 64 (ofBytes (Sparse.getList 0 s.stacked a.toNat 8))) ∧
        t.reg Reg.SMC_PHYS_ADDR = nextWord a ∧ t.stacked = s.stacked ∧ t.jobs = s.jobs ∧ t.cores = s.cores ∧
        (bad = false → t = { s with regs := t.regs, latches := t.latches, hostRead := t.hostRead } ∧
          ∀ off, off ≠ Reg.SMC_PHYS_ADDR → t.reg off = s.reg off)) ∧
    (∀ h, s.latch Reg.SMC_PHYS_DATA = some h → ∃ t, exec (.smcPhysDataRead .high) s = .next t ∧
      readAnswer s t Reg.SMC_PHYS_DATA .high 0 ∧ t = { s with latches := t.latches, hostRead := t.hostRead }) ∧
    (∀ (v : Word64) (bad : Bool), Sparse.get Ecc.good s.stackedEcc (a.toNat / 64) = (if bad then .poisoned else .good) →
      ∃ t, exec (.smcPhysDataWrite v) s = .next t ∧ t.reg Reg.SMC_PHYS_ADDR = nextWord a ∧ t.jobs = s.jobs ∧ t.cores = s.cores ∧
        (bad = true → t.stacked = s.stacked) ∧
        (bad = false → t = { s with regs := t.regs, stacked := t.stacked, stackedEcc := t.stackedEcc } ∧
          (∀ off, off ≠ Reg.SMC_PHYS_ADDR → t.reg off = s.reg off) ∧
          Sparse.getList 0 t.stacked a.toNat 8 = toBytes 8 v.toNat ∧
          ∀ p, (p < a.toNat ∨ a.toNat + 8 ≤ p) → Sparse.get 0 t.stacked p = Sparse.get 0 s.stacked p))

/-- BAR4 reaches shared memory below 0x0F00_0000 and denies what lies above. A bank goes off once its mode's condition holds
and no command books it; its contents are lost. A woken bank reads 0. A write of mode ON wakes a bank that is off (R234, R237,
R239, R241). -/
def Obligations.SharedMemoryAndItsBanks : Prop :=
  ∀ (s : State), s.ordered →
    (∀ (off : BitVec 28) (len : BitVec 13), 0 < len.toNat →
      (0x0F000000 < off.toNat + len.toNat → ∃ t, exec (.bar4Read off len) s = .next t ∧ t.hostRead = .unsupported ∧
        t.reg Reg.SHM_BAR4_DENIED = s.reg Reg.SHM_BAR4_DENIED + 1 ∧ t = { s with regs := t.regs, hostRead := t.hostRead }) ∧
      (off.toNat + len.toNat ≤ 0x0F000000 → s.faultless → ∃ t, exec (.bar4Read off len) s = .next t ∧
        t.hostRead = .bytes (Sparse.getList 0 s.shared off.toNat len.toNat) ∧
        t = { s with hostRead := t.hostRead, bankIdle := t.bankIdle })) ∧
    (∀ (off : BitVec 28) (data : List Byte), data ≠ [] →
      (0x0F000000 < off.toNat + data.length → ∃ t, exec (.bar4Write off data) s = .next t ∧
        t.reg Reg.SHM_BAR4_DENIED = s.reg Reg.SHM_BAR4_DENIED + 1 ∧ t = { s with regs := t.regs }) ∧
      (off.toNat + data.length ≤ 0x0F000000 → s.faultless → ∃ t, exec (.bar4Write off data) s = .next t ∧
        Sparse.getList 0 t.shared off.toNat data.length = data ∧
        (∀ p, (p < off.toNat ∨ off.toNat + data.length ≤ p) → Sparse.get 0 t.shared p = Sparse.get 0 s.shared p) ∧
        t = { s with shared := t.shared, bankIdle := t.bankIdle, sharedEcc := t.sharedEcc })) ∧
    (∀ (b : Fin 60),
      let due := s.bank b = .on ∧ s.booked b = false ∧ (s.bankMode b = 2 ∨
        (s.bankMode b = 1 ∧ 10 * s.fld Reg.SHM_IDLE 0 16 ≤ 14 * (s.ticks - Sparse.get 0 s.bankIdle b)))
      (¬ due → exec (.bankOffDecision b) s = .next s) ∧
      (due → ∃ t, exec (.bankOffDecision b) s = .next t ∧ t.bank b = .off ∧ t.reg Reg.SHM_OFFS = s.reg Reg.SHM_OFFS + 1 ∧
        (∀ a, Sparse.get 0 t.shared a = if a / 2 ^ 22 = b then 0 else Sparse.get 0 s.shared a) ∧
        (∀ d : Nat, d ≠ b → t.bank d = s.bank d) ∧
        t = { s with banks := t.banks, shared := t.shared, sharedEcc := t.sharedEcc, regs := t.regs })) ∧
    (∀ (b : Fin 60),
      (∀ since, s.bank b = .waking since →
        (14 * (s.ticks - since) < 40960 → exec (.bankWakeDone b) s = .next s) ∧
        (40960 ≤ 14 * (s.ticks - since) → ∃ t, exec (.bankWakeDone b) s = .next t ∧ t.bank b = .on ∧
          (∀ a, Sparse.get 0 t.shared a = if a / 2 ^ 22 = b then 0 else Sparse.get 0 s.shared a) ∧
          (∀ d : Nat, d ≠ b → t.bank d = s.bank d) ∧
          t = { s with banks := t.banks, shared := t.shared, sharedEcc := t.sharedEcc, bankIdle := t.bankIdle })) ∧
      ((s.bank b = .on ∨ s.bank b = .off) → exec (.bankWakeDone b) s = .next s)) ∧
    ∀ (b : Fin 60), ∃ t, exec (.powerModeWrite b) s = .next t ∧ t.bankMode b = 0 ∧
      t.bank b = (if s.bank b = .off then .waking s.ticks else s.bank b) ∧ (∀ d : Nat, d ≠ b → t.bank d = s.bank d) ∧
      (∀ d : Nat, d ≠ b → t.bankMode d = s.bankMode d) ∧ t = { s with banks := t.banks, regs := t.regs }

/-- A host access of a core's block is made at once: the device is awake and the core's cluster clock runs (R408, R507). -/
def reachedNow (s : State) (off : Nat) : Prop := ∀ c o, coreOffset off = some (c, o) → s.power.state = .run ∧ s.clockStopped c = false

/-- Whether a register only stores what is written: a 32-bit register of BAR0's global and per-core blocks that holds fields and is
no epoch register. -/
def storing (off : Nat) : Prop :=
  ∃ r, regRow off = some r ∧ r.wide = false ∧ r.derived = false ∧ clearSpan off = none ∧ off ∉ epochOffsets ∧ off ≠ 0x600C ∧
    ((coreOffset off).isSome = true ∨ off < 0x100000)

/-- Host accesses to BAR0. A write of a 32-bit register gives its RW fields the value, within their limits, clears the W1C bits
written 1, and leaves the others; a write of another size or alignment is discarded, and such a read gives 0. A counter is
read by halves through its latch. CNT_CLR clears its block's counters and leaves latches alone. A counter write is a SET,
SYN_HOST_ADD an ADD. An access to a core's block waits for the wake, or for the cluster's clock (R12, R59, R309, R504, R505,
R507, R508). -/
def Obligations.RegistersFromTheHost : Prop :=
  ∀ (s : State), s.ordered →
    (∀ (n : BitVec 13) (v : Word64), ∃ t, exec (.synCtrWrite n v) s = .next t ∧ t.ctr n.toNat = v ∧
      (∀ m, m ≠ n.toNat → t.ctr m = s.ctr m) ∧ t = { s with sync := t.sync, cores := t.cores, regs := t.regs }) ∧
    (∀ (v : Word64), ∃ t, exec (.synHostAdd v) s = .next t ∧
      t.ctr (v.toNat % 2 ^ 13) = s.ctr (v.toNat % 2 ^ 13) + ((v.extractLsb' 13 51).signExtend 64) ∧
      (∀ m, m ≠ v.toNat % 2 ^ 13 → t.ctr m = s.ctr m) ∧ t = { s with sync := t.sync, cores := t.cores, regs := t.regs }) ∧
    (∀ (off : BitVec 26) (v : Word32) (lo hi : Nat), clearSpan off.toNat = some (lo, hi) → reachedNow s off.toNat →
      ∃ t, exec (.cntClr off v) s = .next t ∧ t = { s with regs := t.regs } ∧
        ∀ k, t.reg k = if v.getLsbD 0 = true ∧ lo ≤ k ∧ k ≤ hi then regReset k else s.reg k) ∧
    (∀ (off : BitVec 26) (r : RegRow), off.toNat % 4 = 0 → reachedNow s off.toNat →
      (regRow off.toNat = some r → r.wide = true → r.derived = false → off.toNat ≠ Reg.HQ_EQ_LOST →
        ∃ t, exec (.counterHalfRead off) s = .next t ∧ readAnswer s t off.toNat .low (s.reg off.toNat) ∧
          t = { s with latches := t.latches, hostRead := t.hostRead }) ∧
      (regRow off.toNat = none → 4 ≤ off.toNat → off.toNat % 8 = 4 → regRow (off.toNat - 4) = some r → r.wide = true →
        r.derived = false → off.toNat - 4 ≠ Reg.HQ_EQ_LOST →
        ∃ t, exec (.counterHalfRead off) s = .next t ∧ readAnswer s t (off.toNat - 4) .high (s.reg (off.toNat - 4)) ∧
          t = { s with latches := t.latches, hostRead := t.hostRead })) ∧
    (∀ (off : BitVec 26) (v : Word64), storing off.toNat → off.toNat % 4 = 0 → reachedNow s off.toNat →
      ∀ i, i = .registerWrite off 4 v ∨ i = .perCoreAccessWake off 4 (some v) →
      ∃ t, exec i s = .next t ∧ t = { s with regs := t.regs } ∧ (∀ o, o ≠ off.toNat → t.reg o = s.reg o) ∧
        t.reg off.toNat = (normalReg off.toNat (BitVec.ofNat 64 (v.toNat % 2 ^ 32)) ||| (s.reg off.toNat &&&
          ~~~(BitVec.ofNat 64 (rwMask off.toNat)) &&&
          ~~~(BitVec.ofNat 64 (v.toNat % 2 ^ 32) &&& BitVec.ofNat 64 ((regRow off.toNat).elim 0 (·.w1c)))))) ∧
    (∀ (off : BitVec 26) (size : Nat) (v : Word64), reachedNow s off.toNat → accessOk off.toNat size = false →
      exec (.registerWrite off size v) s = .next s ∧ exec (.perCoreAccessWake off size (some v)) s = .next s ∧
        exec (.perCoreAccessWake off size none) s = .next { s with hostRead := .value 0 }) ∧
    ∀ (off : BitVec 26) (size : Nat) (v : Option Word64) (c o : Nat), coreOffset off.toNat = some (c, o) →
      (s.power.state ≠ .run → exec (.perCoreAccessWake off size v) s =
        .next { s with power := { s.power with waking := true }, held := s.held ++ [.perCoreAccessWake off size v] }) ∧
      (s.power.state = .run → s.clockStopped c = true →
        exec (.perCoreAccessWake off size v) s = .next { s with held := s.held ++ [.perCoreAccessWake off size v] })

/-! ### The fabric -/

/-- A request that another device has sent to this one has come by a port that carries messages (R360). -/
def Arrived (s : State) (h : MsgHdr) : Prop :=
  (∃ p, h.inPort = some p ∧ (s.port p.val).open_ = true) ∧ h.dst.toNat = s.selfDev ∧ h.src.toNat ≠ s.selfDev

/-- Between s and t a message of this header went into the queue of the port that routing names, or left by it, where that port
has not been down too long (R359, R360, R364). -/
def Sent (s t : State) (h : MsgHdr) (len : Nat) (pay : Payload) : Prop :=
  ∀ p dl, s.route (h.inPort.map (·.val)) h.dl h.dst.toNat = some (p, dl) → s.downLong p = false →
    ∃ v, let m : QMsg := { hdr := { h with dl := dl }, len := len, payload := pay, inVc := v }
      m ∈ (t.port p).queue ∨ Out.msg (some p) m.vc m ∈ t.out

/-- A header of a message that this device sends. -/
def ownHdr (s : State) (dst : DevNum) (txn : BitVec 16) (tag : Word32) : MsgHdr :=
  { inPort := none, dl := false, dst := dst, src := BitVec.ofNat 12 s.selfDev, txn := txn, tag := tag }

/-- t is u but for what moves on the ports, the flits that the Heliostat counts, the time at which a DELAY_REQ leaves, the ports'
registers, the count of forwarded messages, and what has left the device; of the other registers only those listed differ from
those of s. -/
def PortsMoved (s t u : State) (regs : List Nat) : Prop :=
  t = { u with ports := t.ports, regs := t.regs, out := t.out, power := { u.power with flits := t.power.flits }
               time := { u.time with exchange := t.time.exchange } } ∧
    ∀ off, (off < 0x400000 ∨ 0x460000 ≤ off) → off ≠ Reg.NRN_FWD → off ∉ regs → t.reg off = s.reg off

/-- A request was answered with a status and data, and its buffer given back (R355, R366). -/
def Replied (s t u : State) (h : MsgHdr) (st : Nat) (data : List Byte) (regs : List Nat) : Prop :=
  PortsMoved s t u regs ∧
    Sent s t (ownHdr s h.src h.txn s.cfg.tag) (payloadWords (.rsp 0 data)) (.rsp (BitVec.ofNat 4 st) data)

/-- A request carries the current tag or the retiring one (R390). -/
def tagGood (s : State) (h : MsgHdr) : Prop := h.tag = s.cfg.tag ∨ ∃ e, s.cfg.retiring = some e ∧ h.tag = e.tag

/-- Byte k of a remote access, in shared or stacked memory (R356). -/
def remotePlace (stacked : Bool) (addr : BitVec 48) (k : Nat) : Place :=
  if stacked then .stacked (addr.toNat + k) else .shared (addr.toNat + k)

/-- A request at its target. A wrong tag is answered TAG_MISMATCH, and no part of the request is made. A SYNC in the open counters
is applied once for each identity and answers the old value; a TRANSIT is staged, or answered BUSY or DUP; JOBEND frees the
identities of its job; WR and RD reach the exported memory. What needs the compute dies waits for the wake (R313, R316, R353,
R355, R366 to R368, R390). -/
def Obligations.RequestsAreServedAtTheirTarget : Prop :=
  ∀ (s : State) (h : MsgHdr), s.ordered → Arrived s h →
    (∀ p len, needsRun p = true → s.power.state ≠ .run → exec (routedCommand h len p) s =
      .next { s with power := { s.power with waking := true }, held := s.held ++ [routedCommand h len p] }) ∧
    (∀ p len, payloadType p < 5 → (∀ t r, p ≠ .bad t r) → (needsRun p = true → s.power.state = .run) → ¬ tagGood s h →
      ∃ t, exec (routedCommand h len p) s = .next t ∧ Replied s t s h 2 [] [Reg.CFG_TAG_REFUSED, Reg.CFG_TAG_LOG] ∧
        t.reg Reg.CFG_TAG_REFUSED = s.reg Reg.CFG_TAG_REFUSED + 1 ∧
        t.reg Reg.CFG_TAG_LOG = BitVec.ofNat 64 (h.src.toNat + 2 ^ 12)) ∧
    (∀ m : SyncMsg, tagGood s h →
      let n := m.counter.toNat
      let known := s.identities.find? fun i =>
        decide (i.dev = h.src ∧ i.job = m.job.toNat ∧ i.core = m.core.toNat ∧ i.seq = m.seq.toNat)
      ((7 ≤ m.op.toNat ∨ s.openCtr h.tag n = false ∨ m.replays ≠ 0 ∧ s.identityBroken ≠ []) → ∃ t, exec (.msgSync h m) s = .next t ∧
        Replied s t s h 1 [] [Reg.SYN_REMOTE_REFUSED] ∧ t.reg Reg.SYN_REMOTE_REFUSED = s.reg Reg.SYN_REMOTE_REFUSED + 1) ∧
      ∀ op, ctrOpOf m.op.toNat = some op → s.openCtr h.tag n = true → (m.replays = 0 ∨ s.identityBroken = []) →
        ((m.replayable = false ∨ known = none ∧ s.identities.length < 262144) → ∃ t, exec (.msgSync h m) s = .next t ∧
          Replied s t { s with sync := t.sync, cores := t.cores, identities := t.identities } h 0 (toBytes 8 (s.ctr n).toNat)
            [Reg.SYN_OPS, Reg.SYN_REMOTE_IN] ∧
          t.ctr n = op.apply (s.ctr n) m.operand m.compare ∧ (∀ k, k ≠ n → t.ctr k = s.ctr k) ∧
          t.reg Reg.SYN_REMOTE_IN = s.reg Reg.SYN_REMOTE_IN + 1 ∧
          t.identities = (if m.replayable then s.identities ++ [⟨h.src, m.job.toNat, m.core.toNat, m.seq.toNat, s.ctr n⟩]
            else s.identities)) ∧
        (∀ i, m.replayable = true → known = some i → ∃ t, exec (.msgSync h m) s = .next t ∧
          Replied s t s h 0 (toBytes 8 i.old.toNat) [Reg.SYN_DEDUP] ∧ t.reg Reg.SYN_DEDUP = s.reg Reg.SYN_DEDUP + 1) ∧
        (m.replayable = true → known = none → 262144 ≤ s.identities.length →
          exec (.msgSync h m) s = .next { s with held := s.held ++ [.msgSync h m] })) ∧
    (∀ m : TransitMsg, tagGood s h → s.power.state = .run →
      let c := m.core.toNat
      let dup := decide (c ≤ 2047) && !(s.core c).accepts m.chain.toNat m.tseq.toNat
      (2047 < c → ∃ t, exec (.msgTransit h m) s = .next t ∧ Replied s t s h 1 [] []) ∧
      (c ≤ 2047 → 64 ≤ s.staging.length → ∃ t, exec (.msgTransit h m) s = .next t ∧ Replied s t s h 4 [] [Reg.NRN_XT_BUSY] ∧
        t.reg Reg.NRN_XT_BUSY = s.reg Reg.NRN_XT_BUSY + 1) ∧
      (s.staging.length < 64 → dup = true → ∃ t, exec (.msgTransit h m) s = .next t ∧
        Replied s t s h 6 [] [Reg.ACM_TRANSIT_DUP c] ∧ t.reg (Reg.ACM_TRANSIT_DUP c) = s.reg (Reg.ACM_TRANSIT_DUP c) + 1) ∧
      (c ≤ 2047 → s.staging.length < 64 → dup = false → ∃ t, exec (.msgTransit h m) s = .next t ∧
        Replied s t { s with staging := s.staging ++ [⟨c, m.chain.toNat, m.tseq.toNat, m.rows⟩] } h 0 [] [])) ∧
    (∀ job : BitVec 24, ∃ t, exec (.msgJobend h job) s = .next t ∧
      Replied s t { s with identities := s.identities.filter fun i => !decide (i.dev = h.src ∧ i.job = job.toNat)
                           identityBroken := s.identityBroken.filter fun k => k ≠ h.src.toNat * 2 ^ 24 + job.toNat } h 0 [] []) ∧
    ∀ (stacked : Bool) (addr : BitVec 48), tagGood s h → (stacked = true → s.power.state = .run) →
      (∀ data : List Byte, data.length ≤ 4096 →
        (s.exported h.tag stacked addr.toNat data.length = false → ∃ t, exec (.msgWr h stacked addr data) s = .next t ∧
          Replied s t s h 1 [] []) ∧
        (s.exported h.tag stacked addr.toNat data.length = true → s.faultless →
          (∀ k, k < data.length → placeOpen s true (remotePlace stacked addr k) = true) →
          ∃ t, exec (.msgWr h stacked addr data) s = .next t ∧
            Replied s t { s with shared := t.shared, sharedEcc := t.sharedEcc, stacked := t.stacked, stackedEcc := t.stackedEcc
                                 bankIdle := t.bankIdle } h 0 [] [] ∧
            (∀ k, k < data.length → (cellOf s (remotePlace stacked addr k)).map t.cell = data[k]?) ∧
            ∀ m, (∀ k, k < data.length → cellOf s (remotePlace stacked addr k) ≠ some m) → t.cell m = s.cell m)) ∧
      ∀ count : BitVec 13,
        (s.exported h.tag stacked addr.toNat count.toNat = false → ∃ t, exec (.msgRd h stacked addr count) s = .next t ∧
          Replied s t s h 1 [] []) ∧
        (s.exported h.tag stacked addr.toNat count.toNat = true → s.faultless →
          (∀ k, k < count.toNat → placeOpen s false (remotePlace stacked addr k) = true) →
          ∃ t, exec (.msgRd h stacked addr count) s = .next t ∧
            Replied s t { s with bankIdle := t.bankIdle } h 0
              ((List.range count.toNat).map fun k => ((cellOf s (remotePlace stacked addr k)).map s.cell).getD 0) [])

/-- A job of number num has ended between s and t with a status, at a core and a command. -/
def EndedWith (t : State) (num : Nat) (st : Status) (core seq : Nat) : Prop :=
  ∃ j ∈ t.jobs, j.num = num ∧ j.status = some st ∧ j.faultCore = core ∧ j.faultSeq = seq

/-- A job of number num is contained by a detector, at a core and a command, with what the detector adds. -/
def ContainedBy (t : State) (num det core seq info : Nat) : Prop :=
  ∃ j ∈ t.jobs, j.num = num ∧ j.phase = .stopped ∧ j.contained = some ⟨det, seq, info, 0⟩ ∧ j.faultCore = core

/-- A request that waits for its response, of a job that executes or is pre-empted and has not ended; no JOBEND. -/
def Waiting (s : State) (r : Request) (j : Job) : Prop :=
  s.findReq r.txn = some r ∧ s.findJob r.job = some j ∧ j.phase.alive = true ∧ j.status = none ∧
    j.contained = none ∧ r.isJobend = false

/-- The outstanding requests without those of a transaction. -/
def reqsBut (s : State) (txn : Nat) : List Request := s.requests.filter fun r => r.txn ≠ txn

/-- A response and its request: OK and DUP deliver the data, REFUSED is resource fault 6, but LOST for a SYNC that carries a
replay count (the model's reading, log entry 129); TAG_MISMATCH and UNREACH contain the job, BUSY is tried again after 1 µs, with
the tag then in force, ERROR ends the job with MEM_UNCORR; one that nothing waits for is late. A missing response
counts as UNREACH; an unanswered JOBEND is sent again, and given up at UNREACH. xt_flush empties the staging store. A message for
another device goes on by its route, and counts when it is sent (R360, R365 to R368, R381, R389, R391). -/
def Obligations.ResponsesReachTheirRequests : Prop :=
  ∀ (s : State), s.ordered →
    (∀ (h : MsgHdr) (st : BitVec 4) (data : List Byte), s.arrives h = true → h.dst.toNat = s.selfDev →
      ∃ t, exec (.msgRsp h st data) s = .next t ∧
        (s.findReq h.txn.toNat = none → PortsMoved s t s [Reg.NRN_LATE_RSP] ∧
          t.reg Reg.NRN_LATE_RSP = s.reg Reg.NRN_LATE_RSP + 1) ∧
        (∀ r, s.findReq h.txn.toNat = some r → r.isJobend = true →
          PortsMoved s t { s with requests := reqsBut s h.txn.toNat } [Reg.NRN_JOBEND_LOST] ∧
          t.reg Reg.NRN_JOBEND_LOST = s.reg Reg.NRN_JOBEND_LOST + (if st = 3 then 1 else 0)) ∧
        ∀ r j, r.txn = h.txn.toNat → Waiting s r j →
          (st = 0 ∨ st = 6 → (∀ m, r.payload ≠ .sync m) → PortsMoved s t { s with requests := t.requests } []) ∧
          (st = 0 ∨ st = 6 → t.requests = if r.kept then
              s.requests.map fun q => if q.txn = h.txn.toNat then { q with answer := some (0, data) } else q
            else reqsBut s h.txn.toNat) ∧
          (st = 0 → ∀ m, r.payload = .sync m → s.journalRoom j (.sync r.core r.seq (BitVec.ofNat 64 (ofBytes data))) →
            t.jobs = s.jobsWith j (.sync r.core r.seq (BitVec.ofNat 64 (ofBytes data)))) ∧
          (st = 4 → PortsMoved s t { s with requests := s.requests.map fun q =>
            if q.txn = h.txn.toNat then { q with busy := true, sent := s.ticks } else q } []) ∧
          (st = 1 ∨ st = 2 ∨ st = 3 ∨ st = 5 → t.requests = reqsBut s h.txn.toNat) ∧
          (st = 1 → (∀ m, r.payload = .sync m → m.replays = 0) → EndedWith t r.job .resource r.core r.seq ∧
            t.reg Reg.GLB_RES_OFFSET = BitVec.ofNat 64 r.faultOff) ∧
          (st = 1 → (∃ m, r.payload = .sync m ∧ m.replays ≠ 0) → EndedWith t r.job .lost r.core r.seq) ∧
          (st = 2 → ∃ j' ∈ t.jobs, j'.num = r.job ∧ j'.phase = .stopped ∧ j'.contained = some ⟨2, r.seq, 0, 0⟩ ∧
            j'.faultCore = r.core ∧ j'.tagWait = some (h.tag.toNat, 0)) ∧
          (st = 3 → ContainedBy t r.job 6 r.core r.seq r.dst.toNat) ∧
          (st = 5 → EndedWith t r.job .memUncorr r.core r.seq)) ∧
    (∀ (txn : BitVec 16), ∃ t, exec (.responseTimeout txn) s = .next t ∧
      (s.findReq txn.toNat = none → t = s) ∧
      ∀ r, s.findReq txn.toNat = some r →
        (s.overdue r = false ∨ r.isJobend = true ∨ r.busy = true → t = s) ∧
        (s.overdue r = true → r.busy = false → ∀ j, Waiting s r j → t.requests = reqsBut s txn.toNat ∧
          ContainedBy t r.job 6 r.core r.seq r.dst.toNat)) ∧
    (∀ (txn : BitVec 16) (retry : Bool), let i : Instr := if retry then .transitBusyRetry txn else .jobendResend txn
      ∃ t, exec i s = .next t ∧ (s.findReq txn.toNat = none → t = s) ∧
      ∀ r, s.findReq txn.toNat = some r →
        let due := if retry then decide (r.busy = true ∧ 1000 ≤ s.ticks - r.sent) else s.overdue r && r.isJobend
        (due = false → t = s) ∧
        (due = true → s.inTorus r.dst.toNat = true → r.dst.toNat ≠ s.selfDev →
          ∀ p dl, s.route none false r.dst.toNat = some (p, dl) → s.downLong p = false →
          PortsMoved s t { s with requests := s.requests.map fun q =>
            if q.txn = txn.toNat then { r with busy := false, sent := s.ticks } else q } [] ∧
          Sent s t (ownHdr s r.dst txn ((s.findJob r.job).elim s.cfg.tag (s.jobTag ·))) (payloadWords r.payload) r.payload)) ∧
    (∃ t, exec .xtFlush s = .next t ∧ t.staging = [] ∧ t = { s with staging := [], power := t.power } ∧
      t.power = { s.power with enteredAt := t.power.enteredAt }) ∧
    ∀ (h : MsgHdr) (len : BitVec 13) (p : Payload), s.arrives h = true → h.dst.toNat ≠ s.selfDev → (∀ t r, p ≠ .bad t r) →
      ∀ o dl, s.route (h.inPort.map (·.val)) h.dl h.dst.toNat = some (o, dl) → s.downLong o = false →
      ∃ t, exec (.messageForward h len p) s = .next t ∧ PortsMoved s t s [] ∧ Sent s t h len.toNat p ∧
        ((s.port o).queue = [] → (s.port o).linkQueue = [] → t.reg Reg.NRN_FWD = s.reg Reg.NRN_FWD +
          if h.inPort.isSome && (s.port o).canSend 0 { hdr := { h with dl := dl }, len := len.toNat, payload := p } then 1 else 0)

/-- A training has begun on port p, with the lanes that pass it: those of them that are allowed and not withdrawn are healthy, the
other allowed ones are withdrawn; a HELLO is sent, or with no lane the port is DOWN and waits 100 ms (R345, R351, R352). -/
def TrainingBegun (s t : State) (p : Nat) (healthy : BitVec 4) (state : PortState) : Prop :=
  let ok := healthy &&& s.lanesAllowed p &&& ~~~(s.port p).withdrawn
  (t.port p).withdrawn = ((s.port p).withdrawn ||| (s.lanesAllowed p &&& ~~~ok)) ∧
    (ok ≠ 0 → (t.port p).state = state ∧ (t.port p).healthy = ok ∧
      Out.linkMsg p 0 (BitVec.ofNat 12 s.selfDev) ok (s.port p).accepted ∈ t.out) ∧
    (ok = 0 → (t.port p).state = .down ∧ (t.port p).active = 0 ∧ (t.port p).retryAt = s.ticks + 100000000)

/-- Between s and t nothing but ports, device time, registers, and what is reported, counted and sent has changed. -/
def OnlyPorts (s t : State) : Prop :=
  t = { s with ports := t.ports, time := t.time, regs := t.regs, out := t.out, host := t.host, eq := t.eq, vectors := t.vectors
               module := t.module, freeCount := t.freeCount, power := { s.power with flits := t.power.flits } }

/-- Of the ports nothing but port p has changed. -/
def OnlyPort (s t : State) (p : Nat) : Prop := OnlyPorts s t ∧ ∀ q, q ≠ p → t.port q = s.port q

/-- Port o has sent nothing but credits that go back (R349, R358). -/
def CreditsOnly (s t : State) (o : Nat) : Prop :=
  let q := t.port o
  q = { s.port o with returns := q.returns, txNext := q.txNext, unacked := q.unacked, lastProgress := q.lastProgress }

/-- Port p sends what it can: by the other ports nothing but credits have gone back. -/
def PortSends (s t : State) (p : Nat) : Prop := OnlyPorts s t ∧ ∀ o, o ≠ p → CreditsOnly s t o

/-- LINK SLOW has been sent on port p, or waits there for room in its flits (R349, R353). -/
def SlowSaid (s t : State) (p : Nat) : Prop :=
  Out.linkMsg p kindSlow (BitVec.ofNat 12 s.selfDev) (s.port p).healthy (s.port p).accepted ∈ t.out ∨
    LinkMsg.link kindSlow ∈ (t.port p).linkQueue

/-- Port p has sent again every flit that an acknowledge up to number a leaves, unchanged, each on the active lane of its number
(R346, R349). -/
def Resent (s t : State) (p a : Nat) (active : BitVec 4) : Prop :=
  ∀ i f, ((s.port p).unacked.drop (a - (s.port p).txAcked))[i]? = some f → Out.flit p (laneOf active (a + i)) f ∈ t.out

/-- A state with every withdrawn lane of port p tried again. -/
def retryLanes (s : State) (p : Nat) : State := s.modPort p fun q => { q with withdrawn := 0 }

/-- The flits that an acknowledge frees leave this one acknowledged (R347, R349). -/
def ackedAt (q : Port) (ack : Nat) : Nat :=
  let k := (ack + 1025 - q.txAcked % 1024) % 1024
  if q.txNext - q.txAcked < k then q.txAcked else q.txAcked + k

/-- Ports train when they are enabled, from DOWN once the retry time has come, and at the host's retrain, which alone of the
three tries withdrawn lanes again, all with the outcome that the command gives; a HELLO from the neighbour that the topology places there brings the port up with the lanes
healthy at both ends, any other device leaves it DOWN. Then, and after a retrain, what is unacknowledged is sent again; the third retrain
in a row without progress, and no common lane, take the port down. SLOW and FAST switch to the low rate and back, and a port
that comes up in DORMANT says SLOW and is LOW; WIDTH changes nothing (R345, R350, R352, R353; the withdrawn lanes at a training, the SLOW of
a port that comes up in DORMANT and WIDTH are the model's choices, log entries 126, 60 and 33). -/
def Obligations.PortsTrainAndRetrain : Prop :=
  ∀ (s : State) (port : PortId), s.ordered →
    let p := port.val
    let q := s.port p
    (∀ healthy, (s.portEn p = true → exec (.portTrain port healthy) s = .next s) ∧
      (s.portEn p = false → ∃ t, exec (.portTrain port healthy) s = .next t ∧ OnlyPort s t p ∧ t.portEn p = true ∧
        TrainingBegun s t p healthy .training)) ∧
    (∀ healthy, let due := s.portEn p = true ∧ (q.state = .down ∨ q.state = .training) ∧ q.retryAt ≤ s.ticks
      (¬ due → exec (.portRetry port healthy) s = .next s) ∧
      (due → ∃ t, exec (.portRetry port healthy) s = .next t ∧ OnlyPort s t p ∧
        TrainingBegun s t p healthy .training)) ∧
    (∀ healthy, (s.portEn p = false → exec (.portRetrainRequest port healthy) s = .next s) ∧
      (s.portEn p = true → ∃ t, exec (.portRetrainRequest port healthy) s = .next t ∧ OnlyPort s t p ∧
        (q.open_ = true ∨ q.state = .retrain → TrainingBegun (retryLanes s p) t p healthy .retrain ∧
          t.reg (Reg.NRN_RETRAINS p) = s.reg (Reg.NRN_RETRAINS p) + 1) ∧
        (q.open_ = false → q.state ≠ .retrain → TrainingBegun (retryLanes s p) t p healthy .training))) ∧
    (∀ m : HelloMsg, ∃ t, exec (.linkHello port m) s = .next t ∧ PortSends s t p ∧
      (q.state = .training →
        (m.dev.toNat ≠ s.neighbourDev p → (t.port p).state = .down ∧ (t.port p).retryAt = s.ticks + 1000000000) ∧
        (m.dev.toNat = s.neighbourDev p → q.healthy &&& m.lanes = 0 → (t.port p).state = .down) ∧
        (m.dev.toNat = s.neighbourDev p → q.healthy &&& m.lanes ≠ 0 →
          (t.port p).state = (if s.asleep then .low else .up) ∧ (s.asleep = true → SlowSaid s t p) ∧
          (t.port p).priorActive = q.healthy &&& m.lanes ∧
          (t.port p).active = (if s.asleep then lowestLane (q.healthy &&& m.lanes) else q.healthy &&& m.lanes) ∧
          (t.port p).peer = m.dev ∧ (t.port p).txAcked = ackedAt q m.lastSeq.toNat ∧
          Resent s t p (ackedAt q m.lastSeq.toNat) (q.healthy &&& m.lanes))) ∧
      (q.state = .retrain →
        let a := ackedAt q m.lastSeq.toNat
        let stuck := if a = q.txAcked ∧ q.txNext ≠ a then q.noProgress + 1 else 0
        (q.healthy &&& m.lanes = 0 ∨ 3 ≤ stuck → (t.port p).state = .down) ∧
        (q.healthy &&& m.lanes ≠ 0 → stuck < 3 → let low := q.peerLow || s.asleep
          (t.port p).state = (if low then .low else .up) ∧ (s.asleep = true → SlowSaid s t p) ∧
          (t.port p).priorActive = q.healthy &&& m.lanes ∧
          (t.port p).active = (if low then lowestLane (q.healthy &&& m.lanes) else q.healthy &&& m.lanes) ∧
          (t.port p).txAcked = a ∧ Resent s t p a (t.port p).active)) ∧
      (q.state ≠ .training → q.state ≠ .retrain → t = s)) ∧
    (∃ t, exec (.linkSlow port) s = .next t ∧ (q.open_ = false → t = s) ∧
      (q.open_ = true → OnlyPort s t p ∧ (t.port p).state = .low ∧ (t.port p).peerLow = true ∧
        (t.port p).active = (if q.state = .up then q.active &&& -q.active else q.active) ∧
        (q.state = .up → (t.port p).priorActive = q.active))) ∧
    (∃ t, exec (.linkFast port) s = .next t ∧ PortSends s t p ∧ (t.port p).peerLow = false ∧
      (q.state = .low → s.power.state ≠ .dormant → (t.port p).state = .up ∧ (t.port p).active = q.priorActive) ∧
      (q.state ≠ .low ∨ s.power.state = .dormant → t.port p = { q with peerLow := false } ∧ t = { s with ports := t.ports })) ∧
    ∀ lanes, exec (.linkWidth port lanes) s = .next s

/-- A retrain of port p started between s and t by the device itself (R350, R352). -/
def Retrained (s t : State) (p : Nat) : Prop :=
  t.reg (Reg.NRN_RETRAINS p) = s.reg (Reg.NRN_RETRAINS p) + 1 ∧ ((t.port p).state = .retrain ∨ (t.port p).state = .down)

/-- Whether a window's counts withdraw lane l of port p (R351). -/
def laneFails (s : State) (p l : Nat) (k : LaneCount) : Bool :=
  let lim := s.reg (Reg.NRN_LANE_LIMIT p)
  decide (bits lim 0 16 < k.corrected ∧ 2 ≤ (s.port p).symRuns.getD l 0 ∨ max 1 (bits lim 16 4) ≤ k.uncorrectable)

/-- Flits: the next in sequence is accepted, what it acknowledges is freed, the whole messages in its payload wait to be taken, and
it is acknowledged, by a data flit or a control flit; one that fails its check, or is not next, is discarded with a nak, at
once and then every 64 flits; one accepted before is acknowledged again. A nak has everything after its ack sent again; eight
with the same ack, or 10 µs without progress, start a retrain, and one without HELLO ends after 50 µs, as one without progress.
A lane over its limits is withdrawn. A port long down loses its queue (R346, R347, R349 to R352, R354, R362, R364; the control flit that
acknowledges and the end of a retrain without HELLO are the model's choices, log entry 147). -/
def Obligations.FlitsLanesAndOutages : Prop :=
  ∀ (s : State) (port : PortId), s.ordered →
    let p := port.val
    let q := s.port p
    (q.open_ = false → (∀ f, exec (.dataFlitReceive port f) s = .next s) ∧ (∀ a, exec (.flitNak port a) s = .next s) ∧
      (∀ a n, exec (.controlFlit port a n) s = .next s) ∧ (q.state ≠ .retrain → exec (.ackTimeout port) s = .next s) ∧
      ∀ l, exec (.laneErrorWindow port l) s = .next s) ∧
    (q.state = .retrain → ∃ t, exec (.ackTimeout port) s = .next t ∧ (s.ticks - q.retrainAt < 50000 → t = s) ∧
      (50000 ≤ s.ticks - q.retrainAt → OnlyPort s t p ∧ (t.port p).noProgress = q.noProgress + 1 ∧
        (2 ≤ q.noProgress → (t.port p).state = .down ∧ (t.port p).retryAt = s.ticks + 100000000) ∧
        (q.noProgress < 2 → Retrained s t p))) ∧
    (q.open_ = true →
      (∀ f : DataFlit,
        let behind := (q.rxExpected + 1024 - f.seq.toNat) % 1024
        let good := f.crcOk = true ∧ f.fecOk = true
        let bad := ¬ good ∨ 512 < behind
        let all := q.rxBytes ++ f.payload
        let (ms, rest) := splitMessages (all.length + 1) all
        ∃ t, exec (.dataFlitReceive port f) s = .next t ∧
          (good → behind = 0 → (t.port p).rxExpected = (q.rxExpected + 1) % 1024 ∧
            t.reg (Reg.NRN_RX_FLITS p) = s.reg (Reg.NRN_RX_FLITS p) + 1) ∧
          (¬ good ∨ behind ≠ 0 → (t.port p).rxExpected = q.rxExpected ∧ t.reg (Reg.NRN_RX_FLITS p) = s.reg (Reg.NRN_RX_FLITS p)) ∧
          (t.port p).rxBytes = (if good ∧ behind = 0 then rest else q.rxBytes) ∧
          (good → behind = 0 → ∀ b ∈ ms, ∀ i, readMessage (BitVec.ofNat 12 s.selfDev) port b = some i → linkLocalPort i = none →
            i ∈ t.held) ∧
          (good → f.nak = false → (t.port p).txAcked = ackedAt q f.ack.toNat) ∧
          (¬ bad → f.nak = false → Out.control p (t.port p).accepted false ∈ t.out ∨
            ∃ lane g, g.ack = (t.port p).accepted ∧ Out.flit p lane g ∈ t.out) ∧
          (bad → (t.port p).nakSent = true ∧
            (q.nakSent = false ∨ 63 ≤ q.nakFlits → Out.control p q.accepted true ∈ t.out)) ∧
          t.reg (Reg.NRN_CRC_ERRS p) = s.reg (Reg.NRN_CRC_ERRS p) + (if f.crcOk then 0 else 1)) ∧
      (∀ (a : BitVec 10), ∃ t, exec (.flitNak port a) s = .next t ∧ exec (.controlFlit port a true) s = .next t ∧
        let b := ackedAt q a.toNat
        let n := (if q.lastNakAck = a.toNat ∧ b = q.txAcked then q.sameNaks else 0) + 1
        (t.port p).txAcked = b ∧ Resent s t p b q.active ∧
        t.reg (Reg.NRN_RETRIES p) = s.reg (Reg.NRN_RETRIES p) + BitVec.ofNat 64 (q.unacked.length - (b - q.txAcked)) ∧
        (8 ≤ n → Retrained s t p) ∧ (n < 8 → (t.port p).state = q.state ∧ (t.port p).sameNaks = n ∧
          (t.port p).lastNakAck = a.toNat ∧ t.reg (Reg.NRN_RETRAINS p) = s.reg (Reg.NRN_RETRAINS p))) ∧
      (∀ (a : BitVec 10), ∃ t, exec (.controlFlit port a false) s = .next t ∧ (t.port p).txAcked = ackedAt q a.toNat ∧
        (t.port p).rxExpected = q.rxExpected ∧ (t.port p).state = q.state) ∧
      (∃ t, exec (.ackTimeout port) s = .next t ∧
        let late := q.txNext ≠ q.txAcked ∧ 10000 ≤ s.ticks - q.lastProgress
        (¬ late → t = s) ∧ (late → Retrained s t p ∧ OnlyPort s t p)) ∧
      (∀ ks : List LaneCount, ks.length = 4 →
        let fails (l : Nat) : Bool := q.active.getLsbD l && laneFails s p l (ks.getD l ⟨0, 0⟩)
        ∃ t, exec (.laneErrorWindow port ks) s = .next t ∧ OnlyPort s t p ∧
          (∀ l, l < 4 → t.reg (Reg.NRN_LANE_SYM p l) =
            s.reg (Reg.NRN_LANE_SYM p l) + (if q.active.getLsbD l then BitVec.ofNat 64 (ks.getD l ⟨0, 0⟩).corrected else 0)) ∧
          ((∀ l, l < 4 → fails l = false) → t.port p = { q with symRuns := (t.port p).symRuns } ∧
            ∀ l, l < 4 → q.active.getLsbD l = true → (t.port p).symRuns.getD l 0 =
              if bits (s.reg (Reg.NRN_LANE_LIMIT p)) 0 16 < (ks.getD l ⟨0, 0⟩).corrected then q.symRuns.getD l 0 + 1 else 0) ∧
          ((∃ l, l < 4 ∧ fails l = true) → Retrained s t p ∧ ∀ l, l < 4 → fails l = true →
            (t.port p).withdrawn.getLsbD l = true ∧ (t.port p).healthy.getLsbD l = false))) ∧
    ∃ t, exec (.downLimitExpiry port) s = .next t ∧ (s.downLong p = false ∨ q.queue = [] → t = s) ∧
      (s.downLong p = true → q.queue ≠ [] → (t.port p).queue = [] ∧
        t.reg Reg.NRN_UNREACH = s.reg Reg.NRN_UNREACH +
          BitVec.ofNat 64 (q.queue.filter fun m => !isResponse m.payload).length)

/-- The parent of a device that is not the master: the open port of the least depth, then of the least number, whose neighbour
showed itself locked with a depth below 30; its depth is one more (R371). -/
def parentRight (t : State) : Prop :=
  match t.time.parent with
  | none => t.time.depth = 31 ∧ ∀ p, p < 6 → t.parentDepth p = none
  | some b => b < 6 ∧ ∃ d, t.parentDepth b = some d ∧ t.time.depth = d + 1 ∧
    ∀ p e, p < 6 → t.parentDepth p = some e → d < e ∨ d = e ∧ b ≤ p

/-- A TIME message has left by port p, or waits there for room in its flits (R349, R372). -/
def TimeSaid (t : State) (p kind : Nat) (m : TimeMsg) : Prop :=
  Out.time p kind m ∈ t.out ∨ LinkMsg.time kind m ∈ (t.port p).linkQueue

/-- Device time: an exchange sends SYNC on every open port; each TIME message shows its sender, and the parent is chosen anew; the
child notes the times of its parent's SYNC and asks, the parent answers with its own time, and the answer corrects the child: a
trim for a small offset, a step forward when behind, half rate when ahead. The first exchange that leaves the offset within the
trim range locks; 1 ms without one is HOLDOVER (R370 to R374). -/
def Obligations.DeviceTimeFollowsItsParent : Prop :=
  ∀ (s : State), s.ordered →
    (∃ t, exec .timeExchange s = .next t ∧
      PortsMoved s t { s with time := { s.time with exchangeNo := (s.time.exchangeNo + 1) % 65536 } } [] ∧
      ∀ p, p < 6 → (s.port p).open_ = true → TimeSaid t p 0 (s.timeMsg ((s.time.exchangeNo + 1) % 65536))) ∧
    (∀ (port : PortId) (m : TimeMsg), let p := port.val
      ((s.port p).open_ = false → exec (.timeSync port m) s = .next s ∧ exec (.timeDelayReq port m) s = .next s ∧
        exec (.timeDelayRsp port m) s = .next s) ∧
      ((s.port p).open_ = true →
        (∃ t, exec (.timeSync port m) s = .next t ∧
          (t.port p).neighbour = some ⟨m.depth.toNat, m.locked, m.bound.toNat⟩ ∧ (s.timeMaster = false → parentRight t) ∧
          t.time.now = s.time.now ∧ PortsMoved s t { s with time := t.time } [] ∧
          (s.timeMaster = false → t.time.parent = some p →
            t.time.exchange = some ⟨p, m.exchange.toNat, m.a.toNat, s.time.now, s.time.now⟩ ∧
            TimeSaid t p 1 ((s.hearTime p m).timeMsg m.exchange.toNat)) ∧
          (s.timeMaster = true ∨ t.time.parent ≠ some p → t.time.exchange = s.time.exchange ∧ t.out = s.out)) ∧
        (∃ t, exec (.timeDelayReq port m) s = .next t ∧
          (t.port p).neighbour = some ⟨m.depth.toNat, m.locked, m.bound.toNat⟩ ∧ (s.timeMaster = false → parentRight t) ∧
          PortsMoved s t { s with time := t.time } [] ∧ TimeSaid t p 2 ((s.hearTime p m).timeMsg m.exchange.toNat)) ∧
        ∃ t, exec (.timeDelayRsp port m) s = .next t ∧
          (t.port p).neighbour = some ⟨m.depth.toNat, m.locked, m.bound.toNat⟩ ∧ (s.timeMaster = false → parentRight t) ∧
          ∀ x, s.time.exchange = some x → x.port = p → x.number = m.exchange.toNat → s.timeMaster = false →
            (s.hearTime p m).time.parent = some p →
            let theta : Int := (((x.t2 : Int) - x.t1) - ((m.a.toNat : Int) - x.t3)) / 2
            let small := theta.natAbs * 10 ≤ 4096 * s.timePeriod
            t.time.theta = theta ∧ t.time.exchange = none ∧ t.time.lastDone = s.ticks ∧
              (small → t.time.now = s.time.now ∧ t.time.trimNum = -theta ∧ t.time.trimDen = 8000 * s.timePeriod ∧ t.time.half = 0 ∧
                t.time.state = .locked) ∧
              (¬ small → t.reg Reg.NRN_TIME_STEPS = s.reg Reg.NRN_TIME_STEPS + 1 ∧
                t.time.state = (if s.time.state = .free ∧ 0 < theta then .free else .locked) ∧
                (theta < 0 → t.time.now = s.time.now + theta.natAbs ∧ t.time.half = 0) ∧
                (0 < theta → t.time.now = s.time.now ∧ t.time.half = theta.natAbs)))) ∧
    ∃ t, exec .holdover s = .next t ∧
      let due := s.timeMaster = false ∧ s.time.state = .locked ∧ 1000000 ≤ s.ticks - s.time.lastDone
      (¬ due → t = s) ∧ (due → t.time = { s.time with state := .holdover, holdSince := s.ticks } ∧ t.ports = s.ports)

/-! ### Epochs, persistent registers, beats and pools -/

/-- t is u after one event record has been posted: written to the event ring, or counted as dropped (R288, R289). -/
def EventPosted (s t u : State) : Prop :=
  t = { u with regs := t.regs, host := t.host, eq := t.eq, out := t.out, vectors := t.vectors } ∧
    t.eq.used + t.eq.dropped = s.eq.used + s.eq.dropped + 1 ∧
    ∀ off, off ≠ Reg.HQ_EQ_LOST → t.reg off = u.reg off

/-- A staging operation has failed: the status says why, the event is posted, and nothing else has changed (R385). -/
def StageRefused (s t : State) (st : Nat) : Prop := EventPosted s t { s with cfg := { s.cfg with status := st } }

/-- The epoch e has taken effect between s and t (R379 to R381, R386): it is current, and the epoch before it is retiring; each
of its registers has its staged value, but for the persistent ones that have worn out; the digest is formed anew; jobs that
were held for it wait to start. -/
def EpochApplied (s t : State) (e : Epoch) : Prop :=
  t.cfg.cur = e.num ∧ t.cfg.staged = none ∧ t.cfg.armTime = 0 ∧
    t.cfg.retiring = some { num := s.cfg.cur, values := s.epochValues, digest := s.cfg.digest, tag := s.cfg.tag, slot := none } ∧
    ((e.values.map (·.1)).Nodup → (∀ v ∈ e.values, v.1 ∈ epochOffsets) →
      t.reg Reg.CFG_APPLIED = s.reg Reg.CFG_APPLIED + 1 ∧
      (∀ v ∈ e.values, t.epochValue v.1 = match pregAt v.1 with
        | some i => if (s.preg i).worn then (s.preg i).shadow else v.2
        | none => v.2 &&& BitVec.ofNat 64 (rwMask v.1)) ∧
      ∀ o ∈ epochOffsets, o ∉ e.values.map (·.1) → t.epochValue o = s.epochValue o) ∧
    t.cfg.digest = digestOf t.epochValues t.uarid.meas ∧ t.cfg.tag = tagOf t.cfg.digest ∧
    (∀ j ∈ s.jobs, j.phase = .epochHeld → j.status = none → j.desc.epoch = e.num → { j with phase := .waiting } ∈ t.jobs) ∧
    (∀ slot, e.slot = some slot → t.uarid.activeSlot = slot ∧ t.uarid.meas = s.uarid.measPend ∧ t.uarid.trial = true ∧
      t.power.switching = true) ∧
    (e.slot = none → t.uarid = s.uarid)

/-- Staging, arming, cancelling, application and retirement of epochs, each with its failures and their codes (R267, R384 to
R386). The order in which failures are found is the model's (log entry 36). -/
def Obligations.EpochsAreStagedArmedAndApplied : Prop :=
  ∀ (s : State), s.ordered →
    let c := s.cfg
    let num := s.fld Reg.CFG_STAGE_EPOCH 0 32
    let off := (s.reg Reg.CFG_STAGE_OFFSET).toNat
    let a := (s.reg Reg.CFG_STAGE_TIME).toNat
    (∃ t, exec .stageClear s = .next t ∧ t.cfg.stageList = [] ∧ t = { s with cfg := t.cfg } ∧
      t.cfg = { c with stageList := [], status := t.cfg.status }) ∧
    (∀ v, ∃ t, exec (.stageValueWrite v) s = .next t ∧
      (off ∈ c.stageList.map (·.1) → t = { s with cfg := { c with
        stageList := c.stageList.map fun x => if x.1 = off then (off, v) else x } }) ∧
      (off ∉ c.stageList.map (·.1) → c.stageList.length < 256 →
        t = { s with cfg := { c with stageList := c.stageList ++ [(off, v)] } }) ∧
      (off ∉ c.stageList.map (·.1) → 256 ≤ c.stageList.length → StageRefused s t 4)) ∧
    (∃ t, exec .stage s = .next t ∧
      let known := ∀ x ∈ c.stageList, x.1 ∈ epochOffsets
      let later := c.cur.toNat < num ∧ num ≠ 0xFFFFFFFF
      let free := c.retiring = none ∧ c.staged = none
      let worn := ∃ x ∈ c.stageList, ∃ i, pregAt x.1 = some i ∧ (s.preg i).worn = true
      (¬ known → StageRefused s t 3) ∧ (known → ¬ later → StageRefused s t 5) ∧
      (known → later → ¬ free → StageRefused s t 6) ∧ (known → later → free → worn → StageRefused s t 10) ∧
      (known → later → free → ¬ worn →
        let vals := c.stageList.map stagedEntry
        let d := digestOf (overlay s.epochValues vals) (if s.uarid.prepared.isSome then s.uarid.measPend else s.uarid.meas)
        EventPosted s t { s with cfg := { c with
          staged := some { num := BitVec.ofNat 32 num, values := vals, digest := d, tag := tagOf d, slot := s.uarid.prepared }
          armTime := 0, status := 1 } })) ∧
    (∃ t, exec .arm s = .next t ∧ (c.staged = none → StageRefused s t 11) ∧
      ∀ e, c.staged = some e →
        let unlocked := s.time.state = .free ∧ s.timeMaster = false
        (s.anyPort = true →
          (a < s.deviceTime + 5 * s.beatNs → StageRefused s t 7) ∧
          (s.deviceTime + 5 * s.beatNs ≤ a → a % s.beatNs ≠ 0 → StageRefused s t 8) ∧
          (s.deviceTime + 5 * s.beatNs ≤ a → a % s.beatNs = 0 → unlocked → StageRefused s t 9) ∧
          (s.deviceTime + 5 * s.beatNs ≤ a → a % s.beatNs = 0 → ¬ unlocked →
            EventPosted s t { s with cfg := { c with armTime := a, status := 2 } })) ∧
        (s.anyPort = false → (unlocked → StageRefused s t 9) ∧ (¬ unlocked → EpochApplied s t e))) ∧
    (∃ t, exec .cancel s = .next t ∧
      let late := c.staged = none ∨ c.armTime ≠ 0 ∧ c.armTime < s.deviceTime + s.beatNs
      (late → StageRefused s t 11) ∧ (¬ late → t.cfg = { c with staged := none, armTime := 0, status := 0 } ∧
        t.cores = s.cores ∧ t.pregs = s.pregs)) ∧
    (∃ t, exec .epochApply s = .next t ∧
      (∀ e, c.staged = some e → c.armTime ≠ 0 → c.armTime ≤ s.deviceTime → EpochApplied s t e) ∧
      (c.staged = none ∨ c.armTime = 0 ∨ s.deviceTime < c.armTime → t = s)) ∧
    ∃ t, exec .epochRetire s = .next t ∧ (c.retiring = none → t = s) ∧
      ∀ e, c.retiring = some e →
        let kept := (∃ j ∈ s.jobs, j.num ≠ 0 ∧ j.epoch = e.num.toNat) ∨ s.deviceTime % s.beatNs ≠ 0 ∨
          s.deviceTime < c.appliedAt + s.fld Reg.CFG_EPOCH_CTRL 0 12 * s.beatNs
        (kept → t = s) ∧ (¬ kept → EventPosted s t { s with cfg := { c with retiring := none } })

/-- A persistent register takes a host's write at once, and programs it into the slot that does not hold the durable value; a
newer value waits for the program in progress. SECRET and worn-out registers ignore writes. A program torn by power loss leaves
the durable value. A direct write of an epoch register changes it in every epoch held, and the digest (R388, R393 to R396). -/
def Obligations.PersistentRegistersAndDirectWrites : Prop :=
  (∀ (p : Preg) (v : Word64), p.programming = some v → p.durable.passes = true → p.powerUp.shadow = p.durable.value ∧
    p.powerUp.wear = p.wear) ∧
  ∀ (s : State), s.ordered →
    (∀ (i : BitVec 6) (v : Word64),
      let n := i.toNat
      let p := s.preg n
      (56 ≤ n ∨ p.worn = true → exec (.pregWrite i v) s = .next s) ∧
      (n < 56 → p.worn = false → ∃ t, exec (.pregWrite i v) s = .next t ∧
        t.preg n = { p with shadow := v, programming := some (p.programming.getD v)
                            pending := if p.programming.isSome then some v else p.pending } ∧
        (∀ k, k ≠ n → t.preg k = s.preg k) ∧ t.jobs = s.jobs ∧ t.cores = s.cores ∧
        (32 ≤ n → t = { s with pregs := t.pregs }) ∧
        (n < 32 → t.cfg.digest = digestOf t.epochValues s.uarid.meas ∧ t.cfg.tag = tagOf t.cfg.digest ∧ t.cfg.cur = s.cfg.cur))) ∧
    (∀ (i : BitVec 6),
      let n := i.toNat
      let p := s.preg n
      (p.programming = none → exec (.pregProgramDone i) s = .next s) ∧
      ∀ v, p.programming = some v → ∃ t, exec (.pregProgramDone i) s = .next t ∧
        (t.preg n).durable.value = v ∧ (t.preg n).durable.seq = p.durable.seq + 1 ∧ (t.preg n).durable.passes = true ∧
        (t.preg n).inB = !p.inB ∧ (if p.inB then (t.preg n).slotB = p.slotB else (t.preg n).slotA = p.slotA) ∧
        (t.preg n).shadow = p.shadow ∧ (t.preg n).wear = p.wear + 1 ∧
        (t.preg n).programming = (if 100000 ≤ p.wear + 1 then none else p.pending) ∧ (t.preg n).pending = none ∧
        (∀ k, k ≠ n → t.preg k = s.preg k) ∧
        (p.wear + 1 = 90000 ∨ p.wear + 1 = 100000 → EventPosted s t { s with pregs := t.pregs }) ∧
        (p.wear + 1 ≠ 90000 → p.wear + 1 ≠ 100000 → t = { s with pregs := t.pregs })) ∧
    ∀ (off : BitVec 26) (size : Nat) (v : Word64),
      (epochTarget off.toNat size = none → exec (.directWrite off size v) s = .next s) ∧
      ∀ o b, epochTarget off.toNat size = some (o, b) → pregAt o = none →
        ∃ t, exec (.directWrite off size v) s = .next t ∧
          t.reg o = (s.reg o &&& ~~~(BitVec.ofNat 64 (rwMask o)) ||| normalReg o (mergeAt (s.reg o) b size v)) ∧
          (∀ q ∈ epochOffsets, q ≠ o → t.epochValue q = s.epochValue q) ∧
          t.cfg.digest = digestOf t.epochValues s.uarid.meas ∧ t.cfg.tag = tagOf t.cfg.digest ∧ t.cfg.cur = s.cfg.cur ∧
          (∀ e, s.cfg.staged = some e → ∃ e', t.cfg.staged = some e' ∧ e'.num = e.num ∧ e'.digest = e.digest ∧
            ∀ x ∈ e'.values, x.1 = o → x.2 = t.epochValue o) ∧
          (∀ e, s.cfg.retiring = some e → ∃ e', t.cfg.retiring = some e' ∧ e'.num = e.num ∧ e'.tag = e.tag ∧
            ∀ x ∈ e'.values, x.1 = o → x.2 = t.epochValue o) ∧
          t.pregs = s.pregs ∧ t.jobs = s.jobs ∧ t.cores = s.cores

/-- Grants share a budget that covers the floors: none is below 400 W or the demand within the floor, none above the demand or
400 W, they sum to the budget at most, and something of it is left only where every demand is met (R424). -/
def grantsFair (cs : List Claim) (budget : Nat) : Prop :=
  let g := allocate cs budget
  g.length = cs.length ∧ g.sum ≤ budget ∧
    (∀ x ∈ cs.zip g, max (min x.1.demand x.1.floor) 1600 ≤ x.2 ∧ x.2 ≤ max x.1.demand 1600) ∧
    (g.sum = budget ∨ ∀ x ∈ cs.zip g, x.1.demand ≤ x.2)

/-- Beats: at each multiple of the beat period a beat with the device's epoch, digest, staged epoch and time leaves by every open
port, and every peer heard ages by one; a received beat is compared with the device's own of the same number and period, and a
changed outcome is counted. Pools: rounds hold their view, their grants and their cap, and entries of other members are taken when
newer. Grants are fair (R375, R376, R392, R422 to R425). -/
def Obligations.BeatsAndPoolRounds : Prop :=
  (∀ (cs : List Claim) (budget : Nat), (∀ c ∈ cs, 1600 ≤ c.floor) → (cs.map (·.floor)).sum ≤ budget → grantsFair cs budget) ∧
  ∀ (s : State), s.ordered →
    (∃ t, exec .beatSend s = .next t ∧
      let n := s.deviceTime / s.beatNs
      let k := n / s.roundBeats
      let own : BeatSelf := { number := n, boundary := n * s.beatNs, epoch := s.cfg.cur, digest := s.cfg.digest
                              staged := BitVec.ofNat 32 s.cfg.stagedNum, stagedTag := BitVec.ofNat 32 s.cfg.stagedTag, armTime := s.cfg.armTime }
      ((∃ b ∈ s.cfg.pastBeats.head?, n * s.beatNs ≤ b.boundary) → t = s) ∧
      ((∀ b ∈ s.cfg.pastBeats.head?, b.boundary < n * s.beatNs) → t.jobs = s.jobs.map s.tagBeat ∧
        t.cfg = { s.cfg with pastBeats := (own :: s.cfg.pastBeats).take 4 } ∧ t.cores = s.cores ∧
        (∀ p, p < 6 → (s.port p).open_ = true → ∃ m, (Out.beat p m ∈ t.out ∨ LinkMsg.beat m ∈ (t.port p).linkQueue) ∧
          m.number = BitVec.ofNat 32 n ∧
          m.epoch = s.cfg.cur ∧ m.digest = s.cfg.digest ∧ m.staged = own.staged ∧ m.stagedTag = own.stagedTag ∧
          m.armTime = BitVec.ofNat 64 s.cfg.armTime ∧ m.time = BitVec.ofNat 64 s.deviceTime) ∧
        (∀ p, p < 6 → (t.port p).beatAge = if (s.port p).heard = true ∧ (s.port p).beatAge < 15 then (s.port p).beatAge + 1
          else (s.port p).beatAge) ∧
        (s.inPool = false → t.power = { s.power with flits := t.power.flits }) ∧
        (s.inPool = true → n % s.roundBeats = s.roundBeats / 2 →
          (∀ cs, allClaims (s.poolClaim (s.roundBeats * k)) (List.range s.poolMembers) = some cs →
            t.power.pool.complete = true ∧ t.power.pool.grants = allocate cs s.poolBudget) ∧
          (allClaims (s.poolClaim (s.roundBeats * k)) (List.range s.poolMembers) = none →
            t.power.pool.complete = false ∧ t.power.pool.grants = [])) ∧
        (s.inPool = true → n % s.roundBeats = s.roundBeats - 1 →
          let p := s.power.pool
          let g := p.grants.getD s.poolIndex 0
          t.power.pool.nextCap = some (if p.complete = true ∧ p.conflict = false ∧
              (g ≤ s.ownFloor ∨ s.fallsShown (s.roundBeats * k + s.roundBeats / 2) p.grants = true) then g else s.ownFloor) ∧
            t.reg Reg.HLS_POOL_ROUNDS = s.reg Reg.HLS_POOL_ROUNDS + 1) ∧
        (s.inPool = true → n % s.roundBeats = 0 → s.power.pool.holdFloor = false →
          t.power.pool.cap = s.power.pool.nextCap.getD s.power.pool.cap ∧
          t.power.pool.onFloor = s.power.pool.nextFloor))) ∧
    ∀ (port : PortId) (m : BeatMsg), ∃ t, exec (.msgBeat port m) s = .next t ∧
      let p := port.val
      let mine (b : BeatSelf) : Bool := decide (b.number % 2 ^ 32 = m.number.toNat ∧ b.boundary = b.number * s.beatNs)
      ((s.port p).open_ = false → t = s) ∧
      ((s.port p).open_ = true → (t.port p).beatAge = 0 ∧ (t.port p).heard = true ∧ t.cores = s.cores ∧ t.cfg = s.cfg ∧
        (∀ q, q ≠ p → t.port q = s.port q) ∧
        (∀ b, s.cfg.pastBeats.find? mine = some b →
          (t.port p).outcome = (if b.epoch ≠ m.epoch then 1 else if b.digest ≠ m.digest then 2
            else if b.staged ≠ m.staged ∨ b.stagedTag ≠ m.stagedTag ∨ b.armTime ≠ m.armTime.toNat then 3 else 0) ∧
          t.reg Reg.CFG_PEER_EVENTS = s.reg Reg.CFG_PEER_EVENTS + (if (t.port p).outcome = (s.port p).outcome then 0 else 1)) ∧
        ((∀ b ∈ s.cfg.pastBeats, mine b = false) → (t.port p).outcome = (s.port p).outcome) ∧
        (s.inPool = false ∨ m.pool.toNat ≠ s.poolNumber → t.power = s.power) ∧
        (s.inPool = true → m.pool.toNat = s.poolNumber → ∀ j e,
          let number := fullNumber (s.cfg.pastBeats.head?.elim 0 (·.number)) m.number.toNat
          m.entries[j]? = some e → e.valid = true → j < s.poolMembers → j ≠ s.poolIndex → e.age.toNat ≤ number →
          (∀ x, s.power.pool.member j = some x → x.origin < number - e.age.toNat) →
          t.power.pool.member j = some ⟨e, number - e.age.toNat⟩))

/-! ### Power: the governor, telemetry, heat, and sleep -/

/-- Ten times the governed power of an estimate, in units of 0.25 W (R410). -/
def governed10 (s : State) (est : Nat) : Nat :=
  if s.power.distrust then 11 * max est s.power.pmeas else 10 * est

/-- What one µs does to the current of die d (R418, R420): it rises by slew_up at most, bubbles holding the rest, and with
auto_ballast, while the device is not over its cap, it falls by slew_down at most, ballast keeping it up. -/
def SlewHeld (s t : State) (d level : Nat) (high : Bool) : Prop :=
  let i := s.dieCurrent d
  let x := s.die d
  let y := t.die d
  let up := x.current + s.fld Reg.HLS_SLEW 0 8 < i
  let down := i + s.fld Reg.HLS_SLEW 8 8 < x.current ∧ s.fld Reg.HLS_CTRL 0 1 = 1 ∧ high = false
  (up → y.current = x.current + s.fld Reg.HLS_SLEW 0 8 ∧ y.slewBeta = max 1 level ∧ y.ballast = false) ∧
    (¬ up → down → y.current = x.current - s.fld Reg.HLS_SLEW 8 8 ∧ y.slewBeta = 0 ∧ y.ballast = true) ∧
    (¬ up → ¬ down → y.current = i ∧ y.slewBeta = 0 ∧ y.ballast = false)

/-- The governor: the estimate follows from the activity of the µs; β rises with what the governed power exceeds the cap by, and falls
by one else, and β and G hold at the first boundary after a switch of its image; the current of each die keeps to its slew limits; G follows runs of bubbles and of slack; a cluster's clock takes its
granted point, a slower one at once, a faster one when the rail has its voltage and the die's droop detectors are clear (R401 to
R404, R409 to R411, R417, R418, R420). -/
def Obligations.GovernorHoldsTheCap : Prop :=
  ∀ (s : State), s.ordered →
    let p := s.power
    (∀ levels : List (BitVec 6), ∃ t, exec (.governTick levels) s = .next t ∧
      let est := s.estimate s.pointsNow
      let dyn := s.dynPower s.pointsNow
      let gov := governed10 s est
      let cap := 10 * s.capEff.1
      t = { s with power := t.power, regs := t.regs, freeCount := t.freeCount } ∧ t.power.pest = est ∧ t.power.pdyn = dyn ∧
        t.power.estSum = p.estSum + est ∧ t.power.estCount = p.estCount + 1 ∧ t.power.flits = 0 ∧
        t.power.slices = [0, 0, 0, 0] ∧ t.power.switching = false ∧
        t.power.g = p.g ∧ (∀ k, k < 32 → t.cluster k = { s.cluster k with
          before := (s.cluster k).activity.sum, activity := noActivity, ballast := (t.cluster k).ballast }) ∧
        (∀ d, d < 4 → SlewHeld s t d (levels.getD d 0).toNat (decide (cap < gov))) ∧ t.power.beta ≤ max 63 p.beta ∧
        (∀ off, off ≠ Reg.HLS_THROTTLE_US → t.reg off = s.reg off) ∧
        (p.switching = true → t.power.beta = p.beta ∧ t.power.betaHigh = p.betaHigh ∧ t.power.slack = p.slack ∧ t.regs = s.regs) ∧
        (p.switching = false → t.power.betaHigh = if 8 ≤ t.power.beta then p.betaHigh + 1 else 0) ∧
        (p.switching = false → cap < gov → t.reg Reg.HLS_THROTTLE_US = s.reg Reg.HLS_THROTTLE_US + 1 ∧ t.power.slack = 0 ∧
          (dyn ≠ 0 → t.power.beta = min 63 (p.beta + ceilDiv (64 * (gov - cap)) (10 * dyn)))) ∧
        (p.switching = false → gov ≤ cap → t.regs = s.regs ∧ t.power.beta = p.beta - 1 ∧
          t.power.slack = if t.power.beta = 0 ∧ cap ≤ 20 * (cap - gov) then p.slack + 1 else 0)) ∧
    (∃ t, exec .governedPointStep s = .next t ∧ t = { s with power := t.power } ∧
      (p.switching = true → t = s) ∧
      (p.switching = false → 50 ≤ p.betaHigh → p.g < 7 → t.power = { p with g := p.g + 1, betaHigh := 0 }) ∧
      (p.switching = false → (p.betaHigh < 50 ∨ 7 ≤ p.g) → 200 ≤ p.slack → 0 < p.g → t.power = { p with g := p.g - 1, slack := 0 }) ∧
      ((p.betaHigh < 50 ∨ 7 ≤ p.g) → p.slack < 200 → t = s)) ∧
    ∀ k : ClusterId, ∃ t, exec (.opChange k) s = .next t ∧
      let n := k.toNat
      let d := n / 8
      let now := (s.cluster n).op.toNat
      (s.grantedOp n = none → t = s) ∧ (∀ i, i ≠ n → t.cluster i = s.cluster i) ∧ t.jobs = s.jobs ∧ t.cores = s.cores ∧
        (∀ i, (t.cluster i).stopped = (s.cluster i).stopped) ∧
        ∀ op, s.grantedOp n = some op →
          (op = now → t = s) ∧
          (now < op ∨ op < now ∧ opVdd op ≤ (s.die d).railMv ∧ opVdd op ≤ s.railNow d ∧ s.droopClear d = true →
            (t.cluster n).op = BitVec.ofNat 3 op ∧ t.reg Reg.HLS_OP_CHANGES = s.reg Reg.HLS_OP_CHANGES + 1 ∧ t.held = s.held) ∧
          (op < now → (s.die d).railMv < opVdd op ∨ s.railNow d < opVdd op ∨ s.droopClear d = false →
            t.cluster n = s.cluster n ∧ t.held = s.held ++ [.opChange k] ∧ t.regs = s.regs ∧
            ((s.die d).railMv < opVdd op → s.droopClear d = true → (t.die d).railMv = opVdd op ∧
              (t.die d).railStart = s.railNow d ∧ (t.die d).railAt = s.ticks))

/-- A recalibration slice is released and due (R413, R414). -/
def RecalReleased (t : State) : Prop :=
  t.power.recal = true ∧ t.collim.due = true ∧ ∃ x ∈ t.collim.waiting, x.kind = .current ∧ x.recal = true

/-- Telemetry: sixteen windows in a row that disagree by more than 12 % lead into DISTRUST and request a recalibration, sixteen
that agree after a passed slice lead out; a failed attempt is repeated after 10 ms, three in all; 1 ms without telemetry is
FATAL. Droop halts the die's clusters until its detectors have been clear for the hold time. Heat: the cap falls by 5 W while a junction is at the throttle temperature and rises
again below it, a critical die slows to OP7, 115 °C is FATAL; a hot stack's requests are slowed (R409, R413 to R416, R421, R431). -/
def Obligations.TelemetryDroopAndHeat : Prop :=
  ∀ (s : State), s.ordered →
    let p := s.power
    (∀ (readings : List Nat), ∃ t, exec (.telemetryWindow true readings) s = .next t ∧
      let m := readings.sum
      let n := if p.estCount = 0 then 1 else p.estCount
      let sum := if p.estCount = 0 then p.pest else p.estSum
      let bad := 12 * m * n < 100 * ((m * n - sum) + (sum - m * n))
      let agree := if bad then 0 else min 16 (p.agree + 1)
      let dis := if bad then min 16 (p.disagree + 1) else 0
      t.power.pmeas = m ∧ t.power.lastTele = s.ticks ∧ t.power.estSum = 0 ∧ t.power.estCount = 0 ∧ t.jobs = s.jobs ∧ t.cores = s.cores ∧
        t.reg Reg.HLS_ENERGY = s.reg Reg.HLS_ENERGY + BitVec.ofNat 64 ((p.energyQuarter + m) / 80) ∧
        t.power.energyQuarter = (p.energyQuarter + m) % 80 ∧
        t.power.distrust = (if p.distrust then !(p.recalPassed && decide (agree = 16)) else decide (dis = 16)) ∧
        (p.distrust = false → dis = 16 → RecalReleased t ∧ t.power.recalTries = 1) ∧
        (p.distrust = true → p.recalPassed = true → agree = 16 → t.power.recalTries = 0) ∧
        (p.distrust = true → p.recalPassed = true → dis = 16 → t.power.recalFailed = true ∧ t.power.recalAt = s.ticks) ∧
        (dis ≠ 16 → agree ≠ 16 → t.power.agree = agree ∧ t.power.disagree = dis)) ∧
    (∀ readings, ∃ t, exec (.telemetryWindow false readings) s = .next t ∧
      t.power = { p with gap := true, estSum := 0, estCount := 0, energyQuarter := t.power.energyQuarter } ∧
      t.power.energyQuarter = (p.energyQuarter + p.pmeas) % 80 ∧
      (p.gap = true → t = { s with power := t.power, regs := t.regs })) ∧
    (∃ t, exec .telemetryLost s = .next t ∧ (s.ticks - p.lastTele < 1000000 → t = s) ∧
      (1000000 ≤ s.ticks - p.lastTele → t.module.fatal = true ∧ (s.module.fatal = false → t.jobs = []))) ∧
    (∃ t, exec .recalRetry s = .next t ∧
      let due := p.distrust = true ∧ p.recalFailed = true ∧ p.recalTries < 3 ∧ 10000000 ≤ s.ticks - p.recalAt
      (¬ due → t = s) ∧ (due → RecalReleased t ∧ t.power.recalTries = p.recalTries + 1 ∧ t.power.recalFailed = false)) ∧
    (∃ t, exec .recalRequest s = .next t ∧ RecalReleased t ∧ t = { s with collim := t.collim, power := { p with recal := true } }) ∧
    (∀ k : ClusterId, ∃ t, exec (.droopDetect k) s = .next t ∧ (t.die (k.toNat / 8)).droop = true ∧
      (t.die (k.toNat / 8)).droopClear = s.ticks + 2000 ∧ t.reg Reg.HLS_DROOPS = s.reg Reg.HLS_DROOPS + 1 ∧
      (∀ d, d ≠ k.toNat / 8 → t.die d = s.die d) ∧ t = { s with power := { p with dies := t.power.dies }, regs := t.regs }) ∧
    (∀ d : DieId, ∃ t, exec (.droopHoldEnd d) s = .next t ∧
      let x := s.die d.toNat
      let held := ∀ i, i < 8 → let q := s.cluster (8 * d.toNat + i)
        q.stopped = true ∨ 100 * max 1 (s.fld Reg.HLS_DROOP_CTRL 8 8) ≤ (s.ticks + 2000 - x.droopClear) * opFreq q.op.toNat
      (x.droop = true ∧ held → t.die d.toNat = { x with droop := false } ∧ (∀ e, e ≠ d.toNat → t.die e = s.die e) ∧
        t = { s with power := { p with dies := t.power.dies } }) ∧
      (¬ (x.droop = true ∧ held) → t = s)) ∧
    (∀ d : DieId, ∃ t, exec (.droopPersist d) s = .next t ∧
      let x := s.die d.toNat
      let due := x.droop = true ∧ 10000 ≤ s.ticks - x.droopSince
      (¬ due → t = s) ∧ (due → t.die d.toNat = { x with extraG := min 7 (x.extraG + 1), droopSince := s.ticks } ∧
        ∀ e, e ≠ d.toNat → t.die e = s.die e)) ∧
    (∀ r : ThermalReadings, r.dies.length = 4 → s.module.fatal = false → ∃ t, exec (.thermalRead r) s = .next t ∧
      let temps (d : Nat) : List Nat := flagged (s.die d).sensorFlags (r.dies.getD d [])
      let top := hottest (temps 0 ++ temps 1 ++ temps 2 ++ temps 3 ++ r.base)
      t.power.hottest = top ∧ t.power.baseTemp = hottest r.base ∧ t.power.stackTemp = hottest r.stackTemps ∧
        (∀ d, d < 4 → (t.die d).hottest = hottest (temps d) ∧
          (t.die d).crit = (if (s.die d).crit then decide (s.throttleAt ≤ hottest (temps d)) else decide (s.critAt ≤ hottest (temps d)))) ∧
        (∀ n, n < 6 → t.power.stackRate.getD n 0 =
          let c := r.stackTemps.getD n 0
          let old := p.stackRate.getD n 0
          if 100 ≤ c then 4 else if 95 ≤ c then max old 2 else if c < 92 then 1 else old) ∧
        t.power.throttling = (p.throttling || decide (s.throttleAt ≤ top)) ∧
        (p.throttling = false → s.throttleAt ≤ top → t.power.thermalCap = min s.capEff.1 3000) ∧
        (p.throttling = true ∨ top < s.throttleAt → t.power.thermalCap = p.thermalCap) ∧
        t.module.fatal = decide (115 ≤ top) ∧ (top < 115 → t.jobs = s.jobs ∧ t.cores = s.cores)) ∧
    ∃ t, exec .thermalCapStep s = .next t ∧
      let since := s.ticks - p.lastThermStep
      (p.throttling = false → t = s) ∧
      (p.throttling = true → s.throttleAt ≤ p.hottest → 100000 ≤ since →
        t = { s with power := { p with thermalCap := p.thermalCap - 20, lastThermStep := s.ticks } }) ∧
      (p.throttling = true → p.hottest + 2 < s.throttleAt → 1000000 ≤ since →
        (p.thermalCap + 20 ≤ 3000 → t = { s with power := { p with thermalCap := p.thermalCap + 20, lastThermStep := s.ticks } }) ∧
        (3000 < p.thermalCap + 20 → 3000 < t.power.thermalCap ∧ t.power.throttling = false)) ∧
      (since < 100000 → t = s)

/-- The device has entered DOZE or DORMANT: every cluster clock stands; what software holds in cores, memory and jobs is as it
was (R406, R407, R430). -/
def Entered (s t : State) (st : DevState) : Prop :=
  t.power.state = st ∧ t.power.enteredAt = s.ticks ∧ t.power.clusters.all (·.stopped) = true ∧ t.cores = s.cores ∧
    t.jobs = s.jobs ∧ t.shared = s.shared ∧ t.stacked = s.stacked ∧ t.sync = s.sync

/-- What DORMANT adds: the compute dies' rails are off, SLOW has gone out on every UP port, which runs at the low rate on one
lane, and the host link is low (R353, R407, R489). -/
def EnteredDormant (s t : State) : Prop :=
  Entered s t .dormant ∧ (∀ d ∈ t.power.dies, d.railMv = 0) ∧ t.module.low = true ∧
    (∀ p, p < 6 → (s.port p).state = .up → (t.port p).state = .low ∧ (t.port p).priorActive = (s.port p).active ∧
      ((∃ dev lanes seq, Out.linkMsg p 1 dev lanes seq ∈ t.out) ∨ LinkMsg.link kindSlow ∈ (t.port p).linkQueue)) ∧
    ∀ p, p < 6 → (s.port p).state ≠ .up → CreditsOnly s t p

/-- Sleep: idle clusters stop their clocks and start them on demand, once the rail has the voltage of their point; the device enters DOZE and DORMANT under their conditions,
by itself or on request, and an unmet request is noted; a wake source brings it back, from DORMANT with the compute dies
cleared but for FAULTY facets, strikes and the RW fields of the per-core blocks (R8, R48, R65, R225, R353, R402, R405 to R408, R488, R507). -/
def Obligations.DeviceSleepsAndWakes : Prop :=
  ∀ (s : State), s.ordered →
    let p := s.power
    let may := s.mayDormant = true
    (∀ k : ClusterId, ∃ t, exec (.clusterClockStop k) s = .next t ∧
      let q := s.cluster k.toNat
      let due := q.stopped = false ∧ p.state = .run ∧ s.needsClock k.toNat = false ∧
        25600 ≤ (s.ticks - q.idleSince) * opFreq q.op.toNat
      (¬ due → t = s) ∧ (due → t.cluster k.toNat = { q with stopped := true, idleSince := s.ticks } ∧
        (∀ i, i ≠ k.toNat → t.cluster i = s.cluster i) ∧ t = { s with power := t.power })) ∧
    (∀ k : ClusterId, ∃ t, exec (.clusterClockStart k) s = .next t ∧
      let due := (s.cluster k.toNat).stopped = true ∧ p.state = .run ∧ s.needsClock k.toNat = true
      let op := (s.grantedOp k.toNat).getD (s.cluster k.toNat).op.toNat
      let d := k.toNat / 8
      (¬ due → t = s) ∧
      (due → opVdd op ≤ s.railNow d → t.clockStopped (64 * k.toNat) = false ∧ (t.cluster k.toNat).op = BitVec.ofNat 3 op ∧
        (∀ i, i ≠ k.toNat → t.cluster i = s.cluster i) ∧ t = { s with power := t.power, regs := t.regs }) ∧
      (due → s.railNow d < opVdd op → opVdd op ≤ (t.die d).railMv ∧
        t = { s with power := { p with dies := t.power.dies }, held := s.held ++ [.clusterClockStart k] })) ∧
    (∃ t, exec .dozeEntry s = .next t ∧
      let due := p.state = .run ∧ s.jobs = [] ∧ s.collim.due = false ∧ p.allStopped = true ∧ p.waking = false ∧
        1000 * max 1 (s.fld Reg.HLS_IDLE 0 16) ≤ s.ticks - p.idleFrom
      (¬ due → t = s) ∧ (due → Entered s t .doze)) ∧
    (∃ t, exec .dormantEntry s = .next t ∧
      let due := may ∧ (p.state = .doze ∧ 1000000 * max 1 (s.fld Reg.HLS_IDLE 16 16) ≤ s.ticks - p.enteredAt ∨
        s.module.d3 = true ∧ p.state ≠ .dormant)
      (¬ due → t = s) ∧ (due → EnteredDormant s t)) ∧
    (∃ t, exec .stateReqDoze s = .next t ∧
      (p.state = .run → s.jobs = [] → s.collim.due = false → p.waking = false → Entered s t .doze) ∧
      (p.state = .run → s.jobs ≠ [] ∨ s.collim.due = true ∨ p.waking = true → t = { s with power := { p with reqRefused := true } }) ∧
      (p.state = .doze → t = s) ∧ (p.state = .dormant → t = { s with power := { p with reqRefused := true } })) ∧
    (∃ t, exec .stateReqDormant s = .next t ∧ (p.state = .dormant → t = s) ∧
      (p.state ≠ .dormant → may → EnteredDormant s t) ∧
      (p.state ≠ .dormant → ¬ may → t = { s with power := { p with reqRefused := true } })) ∧
    (∃ t, exec .stateReqWake s = .next t ∧ (p.state = .run → t = s) ∧
      (p.state ≠ .run → t = { s with power := { p with waking := true } })) ∧
    ∃ t, exec .deviceWake s = .next t ∧
      let due := p.state ≠ .run ∧ (p.waking = true ∨ s.collim.due = true)
      (¬ due → t = s) ∧
      (due → t.power.state = .run ∧ t.power.waking = false ∧ t.jobs = s.jobs ∧ t.shared = s.shared ∧ t.stacked = s.stacked ∧
        (p.state = .doze → t.cores = s.cores ∧ t.ports = s.ports) ∧
        (p.state = .dormant →
          (∀ c, (t.core c).mem = [] ∧ (t.core c).full = [] ∧ (t.core c).acm = [] ∧ (t.core c).live = 0 ∧
            (t.core c).strikes = (s.core c).strikes ∧
            ∀ f, (t.core c).facet f = { Facet.reset with state := if ((s.core c).facet f).state = .faulty then .faulty else .empty }) ∧
          (∀ c, c < 2048 → t.reg (Reg.FCT_CTRL c) = s.reg (Reg.FCT_CTRL c)) ∧
          ∀ q, q < 6 → (s.port q).state = .low → ((∃ dev lanes seq, Out.linkMsg q 2 dev lanes seq ∈ t.out) ∨ LinkMsg.link kindFast ∈ (t.port q).linkQueue) ∧
            ((s.port q).peerLow = false → (t.port q).state = .up ∧ (t.port q).active = (s.port q).priorActive)))

/-! ### Collimation -/

/-- Between s and t a slice has completed: it no longer waits, and was counted (R449). -/
def SliceRan (s t : State) (x : Slice) : Prop :=
  t.collim.waiting = s.collim.waiting.erase x ∧ t.reg Reg.COL_SLICES = s.reg Reg.COL_SLICES + 1 ∧
    t.reg Reg.COL_ABANDONED = s.reg Reg.COL_ABANDONED ∧ t.jobs = s.jobs

/-- Between s and t a slice was put off to a later time. -/
def SlicePutOff (s t : State) (x : Slice) (at_ : Nat) : Prop :=
  t.collim.waiting = s.collim.waiting.map fun y => if y = x then { y with retryAt := at_ } else y

/-- COL_LOG holds a failure (R449). -/
def ColLogged (s t : State) (kind unit sub phase : Nat) : Prop :=
  t.reg Reg.COL_FAILS = s.reg Reg.COL_FAILS + 1 ∧ t.fld Reg.COL_LOG 0 4 = kind ∧ t.fld Reg.COL_LOG 4 11 = unit ∧
    t.fld Reg.COL_LOG 15 5 = sub ∧ t.fld Reg.COL_LOG 20 3 = phase ∧ t.fld Reg.COL_LOG 23 1 = 1

/-- No failure was counted or logged. -/
def NotFailed (s t : State) : Prop :=
  t.reg Reg.COL_FAILS = s.reg Reg.COL_FAILS ∧ t.reg Reg.COL_LOG = s.reg Reg.COL_LOG

/-- The facets of the other cores, and the other facets of core c, stand as before. -/
def OnlyFacet (s t : State) (c f : Nat) : Prop :=
  (∀ d, d ≠ c → t.core d = s.core d) ∧ ∀ y, y ≠ f → (t.core c).facet y = (s.core c).facet y

/-- A facet with every row and entry of its exponent store zero. -/
def blank (g : Facet) : Facet := { g with rows := [], rowParity := [], colExp := [], offsets := [], expParity := [] }

/-- Slices are released over the cycle, one facet after another that is not FAULTY, and CURRENT at its start; asleep, the oldest
is due after lag_s; what was put off is tried again when its time has come (R434, R446, R447). -/
def SlicesAreReleased : Prop :=
  ∀ (s : State), s.ordered →
    let c := s.collim
    let now := s.deviceTime
    (∃ t, exec .sliceRelease s = .next t ∧ (s.fld Reg.COL_CTRL 0 1 = 0 → t = s) ∧
      (s.fld Reg.COL_CTRL 0 1 = 1 → (∀ x ∈ c.waiting, x ∈ t.collim.waiting) ∧ t.cores = s.cores ∧ t.jobs = s.jobs ∧
        (c.cycle = 0 ∨ c.cycleAt + s.cycleNs ≤ now → t.collim.cycle = c.cycle + 1 ∧
          t.collim.cycleAt = (if c.cycle = 0 then now else c.cycleAt + s.cycleNs) ∧
          ∃ x ∈ t.collim.waiting, x.kind = .current ∧ x.cycle = c.cycle + 1 ∧ x.released = s.ticks) ∧
        (c.cycle ≠ 0 → now < c.cycleAt + s.cycleNs → t.collim.cycle = c.cycle ∧ t.collim.cycleAt = c.cycleAt ∧
          (now < c.nextFacetAt ∨ 65536 ≤ c.position → t.collim.position = c.position) ∧
          (c.nextFacetAt ≤ now → c.position < 65536 → ∃ i, c.position ≤ i ∧ i ≤ 65536 ∧ t.collim.position = i + 1 ∧
            t.collim.nextFacetAt = c.nextFacetAt + c.facetStep ∧
            let core := fun (k : Nat) => 64 * (k % 32) + k / 32 % 64
            (∀ k, c.position ≤ k → k < i → ((s.core (core k)).facet (k / 2048)).state = .faulty) ∧
            (i < 65536 → ((s.core (core i)).facet (i / 2048)).state ≠ .faulty ∧
              (s.fld Reg.COL_CTRL 1 1 = 1 → ∃ x ∈ t.collim.waiting, x.kind = .facet (core i) (i / 2048) ∧ x.cycle = c.cycle ∧
                x.released = s.ticks)))))) ∧
    (∃ t, exec .sliceDue s = .next t ∧
      let lag := 1000000000 * max 1 (s.fld Reg.COL_CTRL 16 16)
      let due := s.power.state ≠ .run ∧ ∃ x ∈ c.waiting, x.retryAt = 0 ∧ x.released + lag ≤ s.ticks
      (due → t = { s with collim := { c with due := true } }) ∧ (¬ due → t = s)) ∧
    ∃ t, exec .sliceRetry s = .next t ∧ t = { s with collim := { c with waiting := t.collim.waiting } } ∧
      t.collim.waiting.map (fun x => { x with retryAt := 0 }) = c.waiting.map (fun x => { x with retryAt := 0 }) ∧
      ∀ (n : Nat) (x : Slice), c.waiting[n]? = some x →
        t.collim.waiting[n]? = some { x with retryAt := if x.retryAt ≤ s.ticks then 0 else x.retryAt }

/-- A slice tests its unit and reports, once no slice of an older cycle
can be tried. A facet that is in use is tried again 10 ms later; a parity error met while it is saved
abandons its slice; a phase that fails twice makes it FAULTY with every row zero, one that passes on repeat is counted, and a clean
slice restores it and clears its strike. Re-qualification tries a FAULTY facet until one slice fails or three pass, after which it
is EMPTY and out of the fault log. A cluster that a job needs, and a CURRENT slice that exceeds the cap, abandon their slice; a
low sensor is flagged; a lane that passes is tried in a retrain (in a training where its port is not open, log entry 126); a failed
CURRENT slice on request is a failed attempt (R53, R149, R414, R433 to R445). -/
def SlicesTestTheirUnits : Prop :=
  ∀ (s : State), s.ordered →
    let q := s.collim
    let on := s.power.state = .run ∧ s.module.fatal = false
    (∀ (core : CoreId) (facet : FacetId) (r : FacetSliceResult), ∃ t, exec (.facetSlice core facet r) s = .next t ∧
      let c := core.toNat
      let f := facet.toNat
      let g := (s.core c).facet f
      (¬ on → t = s) ∧
      (on → q.requal = none → s.readySlice (.facet c f) = none → t = s) ∧
      (on → q.requal = none → ∀ x, s.readySlice (.facet c f) = some x → g.state ≠ .faulty →
        (s.facetIdle c f = false → SlicePutOff s t x (s.ticks + 10000000) ∧ t = { s with collim := t.collim }) ∧
        (s.facetIdle c f = true →
          t.reg Reg.COL_WAIT_CYCLES = s.reg Reg.COL_WAIT_CYCLES + BitVec.ofNat 64 r.waited ∧ OnlyFacet s t c f ∧
          (g.state = .loaded → (∃ y < 1024, g.badSegment y ≠ none) →
            t.reg Reg.COL_ABANDONED = s.reg Reg.COL_ABANDONED + 1 ∧ t.reg Reg.COL_SLICES = s.reg Reg.COL_SLICES ∧
            t.reg (Reg.FCT_PARITY_ERRS c) = s.reg (Reg.FCT_PARITY_ERRS c) + 1) ∧
          ((g.state = .loaded → ∀ y < 1024, g.badSegment y = none) → SliceRan s t x ∧
            let kept := if g.state = .loaded then g.restored s.deviceTime else blank g
            (testFail r = none → NotFailed s t ∧ (t.core c).facet f = kept ∧ (t.core c).strikes.getLsbD f = false ∧
              t.reg Reg.COL_TRANSIENTS = s.reg Reg.COL_TRANSIENTS) ∧
            (∀ p, testFail r = some p → r.repeatFails = false → NotFailed s t ∧ (t.core c).facet f = kept ∧
              (t.core c).strikes = (s.core c).strikes ∧ t.reg Reg.COL_TRANSIENTS = s.reg Reg.COL_TRANSIENTS + 1) ∧
            (∀ p, testFail r = some p → r.repeatFails = true → ColLogged s t 0 c f p ∧
              (t.core c).facet f = { blank g with state := .faulty } ∧ t.uarid.faultLog = s.uarid.faultLog ++ [(c, f)])))) ∧
      (on → ∀ n, q.requal = some (c, f, n) → s.facetIdle c f = true → OnlyFacet s t c f ∧
        t.reg Reg.COL_SLICES = s.reg Reg.COL_SLICES + 1 ∧
        (∀ p, testFail r = some p → ColLogged s t 11 c f p ∧ t.collim.requal = none ∧ t.fld Reg.COL_REQUAL_STAT 0 4 = 0 ∧
          (t.core c).facet f = blank g ∧ t.uarid = s.uarid) ∧
        (testFail r = none → n < 2 → NotFailed s t ∧ t.collim.requal = some (c, f, n + 1) ∧ (t.core c).facet f = blank g) ∧
        (testFail r = none → 2 ≤ n → NotFailed s t ∧ t.collim.requal = none ∧ (t.core c).facet f = Facet.reset ∧
          (t.core c).strikes.getLsbD f = false ∧ t.uarid.faultLog = s.uarid.faultLog.filter (fun e => e ≠ (c, f)) ∧
          t.fld Reg.COL_REQUAL_STAT 0 2 = 3 ∧ t.fld Reg.COL_REQUAL_STAT 2 3 = 6))) ∧
    (∀ v : Word32, ∃ t, exec (.requal v) s = .next t ∧
      let c := bits v 0 11
      let f := bits v 11 5
      let go := v.getLsbD 16 = true ∧ q.requal = none ∧ ((s.core c).facet f).state = .faulty
      (¬ go → t = s) ∧ (go → t = { s with collim := { q with requal := some (c, f, 0) }, regs := t.regs } ∧
        t.fld Reg.COL_REQUAL_STAT 0 3 = 4)) ∧
    (∀ (k : ClusterId) (r : ClusterSliceResult), ∃ t, exec (.clusterSlice k r) s = .next t ∧
      let stands := on ∧ (s.cluster k.toNat).stopped = true
      (¬ stands ∨ s.readySlice (.cluster k.toNat) = none → t = s) ∧
      (stands → ∀ x, s.readySlice (.cluster k.toNat) = some x → t.cores = s.cores ∧
        (s.needsClock k.toNat = true → ((t.cluster k.toNat).stopped = false ∨ .clusterClockStart k ∈ t.held) ∧
          SlicePutOff s t x (s.ticks + 10000000) ∧
          t.reg Reg.COL_ABANDONED = s.reg Reg.COL_ABANDONED + 1) ∧
        (s.needsClock k.toNat = false → SliceRan s t x ∧ t.power = { s.power with slices := t.power.slices } ∧
          (r.pllOk = true → r.droopOk = true → NotFailed s t) ∧
          (r.pllOk = false → ColLogged s t 3 k.toNat 0 0) ∧
          (r.pllOk = true → r.droopOk = false → ColLogged s t 4 k.toNat 0 0)))) ∧
    (∀ (d : DieId) (l : List Nat), ∃ t, exec (.thermalSlice d l) s = .next t ∧
      let m := median l
      let still := on ∧ s.dieStill d.toNat = true
      (¬ still ∨ s.readySlice (.thermal d.toNat) = none → t = s) ∧
      (still → ∀ x, s.readySlice (.thermal d.toNat) = some x → SliceRan s t x ∧ t.cores = s.cores ∧
        ((∀ v ∈ l, m ≤ v + 3 ∧ v ≤ m + 3) → NotFailed s t ∧ (t.die d.toNat).sensorFlags = []) ∧
        ((∃ v ∈ l, v + 3 < m ∨ m + 3 < v) → ColLogged s t 5 d.toNat 0 0 ∧
          ∀ n, n ∈ (t.die d.toNat).sensorFlags ↔ n ∈ (s.die d.toNat).sensorFlags ∨ ∃ v, l[n]? = some v ∧ v + 3 < m))) ∧
    (∀ (port : PortId) (lane : BitVec 2) (ok retrainOk : Bool), ∃ t, exec (.laneSlice port lane ok retrainOk) s = .next t ∧
      let p := port.val
      let l := lane.toNat
      let b : BitVec 4 := BitVec.ofNat 4 (2 ^ l)
      (¬ on ∨ s.readySlice (.lane p l) = none → t = s) ∧
      (on → ∀ x, s.readySlice (.lane p l) = some x → (∀ i, i ≠ p → t.port i = s.port i) ∧
        ((s.port p).withdrawn.getLsbD l = false → t.collim.waiting = q.waiting.erase x ∧ t.ports = s.ports) ∧
        ((s.port p).withdrawn.getLsbD l = true → SliceRan s t x ∧
          (ok = false → ColLogged s t 6 p l 0 ∧ t.ports = s.ports) ∧
          (ok = true → NotFailed s t ∧ (s.portEn p = false → t.ports = s.ports) ∧
            (s.portEn p = true →
              ∃ h, TrainingBegun (s.modPort p fun y => { y with withdrawn := y.withdrawn &&& ~~~b }) t p
                (if retrainOk then h ||| b else h &&& ~~~b) (if (s.port p).open_ = true ∨ (s.port p).state = .retrain then .retrain else .training)))))) ∧
    ∀ r : CurrentSliceResult, ∃ t, exec (.currentSlice r) s = .next t ∧
      let may := on ∧ s.power.gov10 + 2400 ≤ 10 * s.capEff.1
      (¬ may ∨ s.readySlice .current = none → t = s) ∧
      (may → ∀ x, s.readySlice .current = some x → t.cores = s.cores ∧
        (r.abandoned = true → SlicePutOff s t x (s.ticks + 10000000) ∧ t.power = s.power ∧
          t.reg Reg.COL_ABANDONED = s.reg Reg.COL_ABANDONED + 1) ∧
        (r.abandoned = false → SliceRan s t x ∧
          (r.pass = true → NotFailed s t ∧ t.power.coefficients = r.coefficients ∧ t.power.recalPassed = true ∧
            t.power.recalFailed = false) ∧
          (r.pass = false → ColLogged s t 9 0 0 0 ∧ t.power.coefficients = s.power.coefficients ∧
            (x.recal = true ∨ s.power.distrust = true → t.power.recalFailed = true ∧ t.power.recalAt = s.ticks) ∧
            (x.recal = false → s.power.distrust = false → t.power = { s.power with slices := t.power.slices }))))

/-- Slices are released over the cycle, one facet after another that is not FAULTY, and CURRENT at its start; asleep, the oldest
is due after lag_s; what was put off is tried again when its time has come (R434, R446, R447).
A slice tests its unit and reports, once no slice of an older cycle
can be tried. A facet that is in use is tried again 10 ms later; a parity error met while it is saved
abandons its slice; a phase that fails twice makes it FAULTY with every row zero, one that passes on repeat is counted, and a clean
slice restores it and clears its strike. Re-qualification tries a FAULTY facet until one slice fails or three pass, after which it
is EMPTY and out of the fault log. A cluster that a job needs, and a CURRENT slice that exceeds the cap, abandon their slice; a
low sensor is flagged; a lane that passes is tried in a retrain (in a training where its port is not open, log entry 126); a failed
CURRENT slice on request is a failed attempt (R53, R149, R414, R433 to R445). -/
def Obligations.CollimationSlices : Prop := SlicesAreReleased ∧ SlicesTestTheirUnits

/-! ### The Uarid: boot and firmware, sessions, keys and life cycle, attestation -/

/-- The device has booted from a slot: its bundle's measurements are current and certified, FAULTY facets stand again, and the
tamper latch is restored (R453, R455). -/
def BootedFrom (s t : State) (slot : Bool) : Prop :=
  let u := t.uarid
  u.booted = true ∧ u.ready = true ∧ u.recoverMode = false ∧ u.activeSlot = slot ∧ u.meas = bundleMeas (s.uarid.slot slot) ∧
    u.aliasFor = u.meas ∧ u.prepared = none ∧ u.tampered = s.uarid.tamperLogged ∧ u.faultLog = s.uarid.faultLog ∧ t.jobs = s.jobs ∧
    ∀ e ∈ s.uarid.faultLog, e.1 < 2048 → ((t.core e.1).facet e.2).state = .faulty

/-- A firmware operation was refused with a status: the event is posted, and nothing else has changed (R477, R478). -/
def FwRefused (s t : State) (st : Nat) : Prop := EventPosted s t { s with uarid := { s.uarid with fwStatus := st } }

/-- Boot takes the boot slot where its bundle passes, else the other one, whose use is noted for the event; with neither the ROM
takes a bundle by the sideband into slot A and boots from it when it passes. WRITE checks a bundle and programs it into the slot
that the device does not run from, PREPARE loads a slot's measurements as pending, UNPREPARE discards them, COMMIT raises the
rollback count and ends the trial; each is refused with its status where its condition does not hold. CERT_READY issues the alias
certificate over the current measurements (R453 to R460, R494). -/
def Obligations.BundlesBootAndUpdate : Prop :=
  ∀ (s : State), s.ordered →
    let u := s.uarid
    let passes (b : Bool) := bundleFault u (u.slot b) = none
    let up := u.booted = true ∧ s.module.fatal = false
    (∃ t, exec .boot s = .next t ∧
      let due := s.module.pwrGood = true ∧ u.booted = false ∧ u.recoverMode = false
      (¬ due → t = s) ∧
      (due → passes u.bootSlot → BootedFrom s t u.bootSlot ∧ t.uarid.bootSlot = u.bootSlot ∧ t.uarid.trial = u.trial) ∧
      (due → ¬ passes u.bootSlot → passes (!u.bootSlot) → BootedFrom s t (!u.bootSlot) ∧ t.uarid.bootSlot = (!u.bootSlot) ∧
        t.uarid.trial = false ∧ t.uarid.fallback = true) ∧
      (due → ¬ passes u.bootSlot → ¬ passes (!u.bootSlot) → t.uarid.recoverMode = true ∧ t.uarid.booted = false ∧ t.cores = s.cores)) ∧
    (∀ (off : Word32) (data : List Byte), ∃ t, exec (.recoveryWrite off data) s = .next t ∧ (u.recoverMode = false → t = s) ∧
      (u.recoverMode = true → 50331648 < off.toNat + data.length ∨ 1000 < data.length → t = { s with out := s.out ++ [.recovery 1] }) ∧
      (u.recoverMode = true → off.toNat + data.length ≤ 50331648 → data.length ≤ 1000 →
        t = { s with uarid := { u with slotA := t.uarid.slotA }, out := s.out ++ [.recovery 0] } ∧
        ∀ k, Sparse.get 0 t.uarid.slotA k =
          if off.toNat ≤ k ∧ k < off.toNat + data.length then data.getD (k - off.toNat) 0 else Sparse.get 0 u.slotA k)) ∧
    (∀ n : Word32, ∃ t, exec (.recoveryDone n) s = .next t ∧ (u.recoverMode = false → t = s) ∧
      (u.recoverMode = true → passes false → BootedFrom s t false ∧ t.uarid.bootSlot = false ∧ Out.recovery 0 ∈ t.out) ∧
      (u.recoverMode = true → ¬ passes false → t = { s with uarid := { u with validA := false }, out := s.out ++ [.recovery 1] })) ∧
    (∀ slot : Bool, ∃ t, exec (.fwWrite slot) s = .next t ∧
      let src := (s.reg Reg.UAR_FW_SRC).toNat
      let len := s.fld Reg.UAR_FW_LEN 0 26
      let m := flashOf (Sparse.getList 0 s.shared src len)
      let inside := len ≤ 50331648 ∧ src + len ≤ 0x0F000000 ∧ src < 0x0F000000
      (¬ up → t = s) ∧ (up → slot = u.activeSlot → FwRefused s t 8) ∧
      (up → slot ≠ u.activeSlot → u.prepared = some slot → FwRefused s t 9) ∧
      (up → slot ≠ u.activeSlot → u.prepared ≠ some slot →
        (¬ inside → FwRefused s t 11) ∧
        (inside → s.faultless → t.shared = s.shared ∧ t.jobs = s.jobs ∧
          (∀ st, bundleFault u m = some st → t.uarid = { u with fwStatus := st }) ∧
          (bundleFault u m = none → t.uarid = { u.setSlot slot m true with fwStatus := 2, progress := 100 })))) ∧
    (∀ slot : Bool, ∃ t, exec (.fwPrepare slot) s = .next t ∧ (¬ up → t = s) ∧ (up → slot = u.activeSlot → FwRefused s t 8) ∧
      (up → slot ≠ u.activeSlot → s.slotStaged = true → FwRefused s t 9) ∧
      (up → slot ≠ u.activeSlot → s.slotStaged = false →
        (∀ st, bundleFault u (u.slot slot) = some st → FwRefused s t st) ∧
        (passes slot → t = { s with uarid := { u with prepared := some slot, measPend := bundleMeas (u.slot slot), fwStatus := 2 } }))) ∧
    (∃ t, exec .fwUnprepare s = .next t ∧ (¬ up → t = s) ∧ (up → s.slotStaged = true → FwRefused s t 9) ∧
      (up → s.slotStaged = false → t = { s with uarid := { u with prepared := none, measPend := [], fwStatus := 2 } })) ∧
    (∃ t, exec .fwCommit s = .next t ∧ (¬ up → t = s) ∧ (up → u.trial = false → FwRefused s t 10) ∧
      (up → u.trial = true → t.uarid.trial = false ∧ t.uarid.fwStatus = 2 ∧
        t.uarid.rollback = max u.rollback (bundleSvn (u.slot u.activeSlot)) ∧ t.uarid.meas = u.meas ∧ t.jobs = s.jobs ∧
        (∀ i, i < 4 → t.uarid.vendorRevoke.getLsbD i =
          (u.vendorRevoke.getLsbD i || (hdrField (u.slot u.activeSlot) 42 4).testBit i)) ∧
        ∀ b, t.uarid.valid b = (bundleFault t.uarid (u.slot b)).isNone)) ∧
    ∃ t, exec .certReady s = .next t ∧ (u.certBusy = none → t = s) ∧
      (u.certBusy ≠ none → EventPosted s t { s with uarid := { u with aliasFor := u.meas, certBusy := none } })

/-- The rows of management requests, with the op of each (R469). -/
def mgmtRows : List (Nat × (MgmtReq → Instr)) :=
  [(0x01, .openReq), (0x02, .openRsp), (0x03, .close), (0x10, .setKey), (0x11, .setOwner), (0x12, .lifecycle),
    (0x13, .clearTamper), (0x14, .readLog), (0x15, .nonce), (0x16, .recover)]

/-- A request of an op has come to a Uarid that serves it: by the mailbox, where it stands, or on another path (R464, R478). -/
structure Comes (s : State) (op : Nat) (q : MgmtReq) : Prop where
  up : s.uaridUp = true
  come : s.hasCome op q = true
  free : s.uarid.wiping = none

/-- A request within session x is accepted: its counter is greater, and its tag is right (R465, R467). -/
structure InSession (s : State) (op : Nat) (q : MgmtReq) (x : Session) : Prop extends Comes s op q where
  session : s.session q.session.toNat = some x
  newer : x.counter < q.counter.toNat
  tag : q.tag = sessionTag x.key (mgmtHeader op false q.session.toNat q.counter.toNat q.payload.length 0) q.payload

/-- A response left on the way its request came: into the mailbox, by the sideband, or as a MGMT message (R464, R465, R478). -/
def MgmtAnswered (s t : State) (op : Nat) (q : MgmtReq) (key : Option (List Byte)) (status : Nat) (payload : List Byte) : Prop :=
  let body := responseBody op q key status payload
  match q.path with
  | .mailbox => Sparse.getList 0 t.uarid.mbox 0 body.length = body ∧ t.uarid.busy = false ∧
      t.fld Reg.UAR_MBOX_CTRL 0 13 = body.length % 8192 ∧ t.fld Reg.UAR_MBOX_CTRL 15 1 = 1
  | .sideband => ∃ tag, Out.mgmt .sideband op q.session.toNat q.counter.toNat status payload tag ∈ t.out
  | .fabric src => s.inTorus src.toNat = true → src.toNat ≠ s.selfDev → s.requests.length < 65536 →
      ∃ txn, Sent s t (ownHdr s src txn s.cfg.tag) (payloadWords (.mgmt body)) (.mgmt body)

/-- Sessions, challenges and persistent registers stand as before. -/
def SessionsKept (s t : State) : Prop :=
  t.uarid.sessions = s.uarid.sessions ∧ t.uarid.challenges = s.uarid.challenges ∧ t.pregs = s.pregs

/-- Sessions: a request waits while the secure region is wiped; OPEN_REQ is answered with a nonce and an identifier, or STATE,
LOCKED, REFUSED or BUSY; OPEN_RSP with the right proof opens the session under the derived key, a wrong one is counted and locks
OPEN_REQ for 2^min(f - 1, 10) s; a request in a session with an old counter or a wrong tag is discarded and counted; CLOSE and
60 s without a request close it; a challenge expires after 10 s. Requests arrive by go of the mailbox and by MGMT messages
(R236, R464 to R469, R478). -/
def Obligations.SessionsOpenServeAndClose : Prop :=
  ∀ (s : State), s.ordered →
    let u := s.uarid
    (∀ r ∈ mgmtRows, ∀ q, (s.uaridUp = false ∨ s.hasCome r.1 q = false → exec (r.2 q) s = .next s) ∧
      (s.uaridUp = true → s.hasCome r.1 q = true → u.wiping ≠ none →
        exec (r.2 q) s = .next { s with held := s.held ++ [r.2 q] }) ∧
      (Comes s r.1 q → (r.1 ∈ [0x03, 0x11, 0x12, 0x13, 0x14] ∨ r.1 = 0x10 ∧ q.session ≠ 0) → (¬ ∃ x, InSession s r.1 q x) →
        ∃ t, exec (r.2 q) s = .next t ∧ t = { s with uarid := { u with busy := t.uarid.busy }, regs := t.regs } ∧
          (q.path = .mailbox → t.uarid.busy = false) ∧ t.reg Reg.UAR_AUTH_FAILS = s.reg Reg.UAR_AUTH_FAILS + 1 ∧
          ∀ off, off ≠ Reg.UAR_AUTH_FAILS → t.reg off = s.reg off)) ∧
    (∀ q, Comes s 0x01 q → ∃ t, exec (.openReq q) s = .next t ∧ t.uarid.sessions = u.sessions ∧ t.pregs = s.pregs ∧
      let locked := s.ticks < u.lockedUntil
      (u.life = 3 → SessionsKept s t ∧ MgmtAnswered s t 1 q none 5 []) ∧
      (u.life ≠ 3 → locked → SessionsKept s t ∧ MgmtAnswered s t 1 q none 2 []) ∧
      (u.life ≠ 3 → ¬ locked → s.keyHeld = false → SessionsKept s t ∧ MgmtAnswered s t 1 q none 1 []) ∧
      (u.life ≠ 3 → ¬ locked → s.keyHeld = true → 4 ≤ u.sessions.length → SessionsKept s t ∧ MgmtAnswered s t 1 q none 3 []) ∧
      (u.life ≠ 3 → ¬ locked → s.keyHeld = true → u.sessions.length < 4 → ∃ x : Challenge, x.path = q.path ∧ x.issued = s.ticks ∧
        x.nonce.length = 32 ∧ t.uarid.challenges = u.challenges.filter (fun c => c.path ≠ q.path) ++ [x] ∧
        MgmtAnswered s t 1 q none 0 (x.nonce ++ toBytes 2 x.id))) ∧
    (∀ q, Comes s 0x02 q → ∃ t, exec (.openRsp q) s = .next t ∧
      let ch := u.challenges.find? fun c => c.path = q.path
      let gone := fun (x : Challenge) => x.issued + 10000000000 ≤ s.ticks ∨ s.keyHeld = false
      (u.life = 3 → SessionsKept s t ∧ MgmtAnswered s t 2 q none 5 []) ∧
      (u.life ≠ 3 → (∀ x, ch = some x → gone x) → SessionsKept s t ∧ MgmtAnswered s t 2 q none 1 []) ∧
      (∀ x, u.life ≠ 3 → ch = some x → ¬ gone x → 4 ≤ u.sessions.length → SessionsKept s t ∧ MgmtAnswered s t 2 q none 3 []) ∧
      ∀ x, u.life ≠ 3 → ch = some x → ¬ gone x → u.sessions.length < 4 →
        let nr := q.payload.take 32
        let ctx := x.nonce ++ nr ++ toBytes 8 u.serial.toNat
        t.uarid.challenges = u.challenges.filter (fun c => c.id ≠ x.id) ∧
        (q.payload.drop 32 ≠ kmac256 s.mgmtKey ctx "DLM2048-OPEN" → t.uarid.sessions = u.sessions ∧
          MgmtAnswered s t 2 q none 4 [] ∧ t.reg Reg.UAR_AUTH_FAILS = s.reg Reg.UAR_AUTH_FAILS + 1 ∧
          t.uarid.lockedUntil = s.ticks + 2 ^ min s.fails 10 * 1000000000 ∧
          ((s.preg 63).worn = false → (t.preg 63).shadow = (s.preg 63).shadow + 1)) ∧
        (q.payload.drop 32 = kmac256 s.mgmtKey ctx "DLM2048-OPEN" →
          t.uarid.sessions = u.sessions ++ [⟨x.id, kmac256 s.mgmtKey ctx "DLM2048-SESSION", 0, s.ticks, q.path⟩] ∧
          MgmtAnswered s t 2 q none 0 (kmac256 s.mgmtKey (nr ++ x.nonce ++ toBytes 8 u.serial.toNat) "DLM2048-DEVICE") ∧
          t.reg Reg.UAR_SESSIONS = s.reg Reg.UAR_SESSIONS + 1 ∧ ((s.preg 63).worn = false → t.fails = 0))) ∧
    (∀ q x, InSession s 0x03 q x → ∃ t, exec (.close q) s = .next t ∧ MgmtAnswered s t 3 q (some x.key) 0 [] ∧
      (∀ y ∈ t.uarid.sessions, y.id ≠ x.id ∧ y ∈ u.sessions) ∧ (∀ y ∈ u.sessions, y.id ≠ x.id → y ∈ t.uarid.sessions)) ∧
    (∀ n : BitVec 16, ∃ t, exec (.challengeExpiry n) s = .next t ∧
      let left := u.challenges.filter fun c => ¬ (c.id = n.toNat ∧ c.issued + 10000000000 ≤ s.ticks)
      t = { s with uarid := { u with challenges := left } }) ∧
    (∀ n : BitVec 16, ∃ t, exec (.sessionIdleClose n) s = .next t ∧
      let due := ∃ x, s.session n.toNat = some x ∧ x.last + 60000000000 ≤ s.ticks
      (¬ due → t = s) ∧ (due → EventPosted s t { s with uarid := { u with sessions := u.sessions.filter (fun y => y.id ≠ n.toNat) } })) ∧
    (∀ n : BitVec 13, ∃ t, exec (.uarMboxGo n) s = .next t ∧
      (u.busy = true → t = { s with regs := t.regs } ∧ t.fld Reg.UAR_MBOX_CTRL 16 1 = 1) ∧
      (u.busy = false → s.uaridUp = true →
        let got := parseMgmt .mailbox (Sparse.getList 0 u.mbox 0 (if n = 0 then 8192 else n.toNat))
        (∀ op q, got = some (op, q) → op ∈ mgmtRows.map (·.1) → t.hasCome op q = true ∧ SessionsKept s t) ∧
        (got = none → t.uarid.busy = false ∧ t.fld Reg.UAR_MBOX_CTRL 15 1 = 1 ∧ SessionsKept s t))) ∧
    ∀ (h : MsgHdr) (body : List Byte), Arrived s h →
      (u.wiping ≠ none → exec (.msgMgmt h body) s = .next { s with held := s.held ++ [.msgMgmt h body] }) ∧
      (u.wiping = none → ∃ t, exec (.msgMgmt h body) s = .next t ∧
        (s.uaridUp = false ∨ (∀ op q, parseMgmt (.fabric h.src) body = some (op, q) → 1024 < mgmtSize q) → Replied s t s h 0 [] []) ∧
        ∀ op q, s.uaridUp = true → parseMgmt (.fabric h.src) body = some (op, q) → mgmtSize q ≤ 1024 → ∀ c, (op, c) ∈ mgmtRows →
          ∃ a b, Replied s a s h 0 [] [] ∧ exec (c q) a = .next b ∧ PortsMoved b t b [])

/-- A key was written into registers 56 to 59, least significant byte first; the other persistent registers stand, but for f
(R464, R468). -/
def KeyWritten (s t : State) (key : List Byte) : Prop :=
  (∀ i, i < 4 → (s.preg (56 + i)).worn = false →
    (t.preg (56 + i)).shadow = BitVec.ofNat 64 (ofBytes ((key.drop (8 * i)).take 8))) ∧
  ∀ i, i < 56 ∨ 60 ≤ i → i ≠ 63 → t.preg i = s.preg i

/-- What a change of life cycle and a tamper have in common: the wipe runs, the SECRET registers are 0, sessions and challenges
are gone; jobs, epochs and measurements stand (R236, R474, R475). -/
def Locked (s t : State) : Prop :=
  t.uarid.wiping ≠ none ∧ t.uarid.sessions = [] ∧ t.uarid.challenges = [] ∧
    (∀ i, i < 8 → (s.preg (56 + i)).worn = false → (t.preg (56 + i)).shadow = 0) ∧ (∀ i, i < 56 → t.preg i = s.preg i) ∧
    t.jobs = s.jobs ∧ t.cfg = s.cfg ∧ t.uarid.meas = s.uarid.meas

/-- A failed proof was counted in f, and OPEN_REQ is locked (R468). -/
def ProofFailed (s t : State) : Prop :=
  t.reg Reg.UAR_AUTH_FAILS = s.reg Reg.UAR_AUTH_FAILS + 1 ∧ t.uarid.lockedUntil = s.ticks + 2 ^ min s.fails 10 * 1000000000 ∧
    ((s.preg 63).worn = false → (t.preg 63).shadow = (s.preg 63).shadow + 1)

/-- Keys and life cycle: SET_KEY in a session, or the first key by the mailbox, writes the key registers; SET_OWNER blows the
owner's digest and enters PRODUCTION; LIFECYCLE enters RMA or SCRAPPED; each change wipes, clears and closes; CLEAR_TAMPER clears
the latch; READ_LOG and NONCE answer; RECOVER writes a new key where its nonce and signature hold. A tamper latches and wipes;
the wipe clears the secure region after 2,048 S-cycles, once more for a tamper during it (R236, R469 to R476). -/
def Obligations.KeysLifeCycleAndTamper : Prop :=
  ∀ (s : State), s.ordered →
    let u := s.uarid
    (∀ q, Comes s 0x10 q → q.session = 0 → ∃ t, exec (.setKey q) s = .next t ∧
      let first := q.path = .mailbox ∧ s.keyHeld = false ∧ (u.life = 0 ∨ u.life = 2 ∧ u.ownerDigest = none) ∧ q.payload.length = 32
      (u.life = 3 → t.pregs = s.pregs ∧ MgmtAnswered s t 0x10 q none 5 []) ∧
      (u.life ≠ 3 → ¬ first → t.pregs = s.pregs ∧ MgmtAnswered s t 0x10 q none 1 []) ∧
      (first → KeyWritten s t q.payload ∧ t.preg 63 = s.preg 63 ∧ MgmtAnswered s t 0x10 q none 0 [])) ∧
    (∀ q x, InSession s 0x10 q x → q.session ≠ 0 → ∃ t, exec (.setKey q) s = .next t ∧
      (u.life = 3 → t.pregs = s.pregs ∧ MgmtAnswered s t 0x10 q (some x.key) 5 []) ∧
      (u.life ≠ 3 → q.payload.length ≠ 32 → t.pregs = s.pregs ∧ MgmtAnswered s t 0x10 q (some x.key) 1 []) ∧
      (u.life ≠ 3 → q.payload.length = 32 → KeyWritten s t q.payload ∧ t.preg 63 = s.preg 63 ∧
        MgmtAnswered s t 0x10 q (some x.key) 0 [])) ∧
    (∀ q x, InSession s 0x11 q x → ∃ t, exec (.setOwner q) s = .next t ∧
      let good := q.path = .mailbox ∧ q.payload.length = 1952
      (u.life ≠ 0 → t.pregs = s.pregs ∧ t.uarid.life = u.life ∧ MgmtAnswered s t 0x11 q (some x.key) 5 []) ∧
      (u.life = 0 → ¬ good → t.pregs = s.pregs ∧ t.uarid.life = 0 ∧ MgmtAnswered s t 0x11 q (some x.key) 1 []) ∧
      (u.life = 0 → good → t.uarid.ownerDigest = some (shake256 q.payload 32) ∧ t.uarid.life = 1 ∧ Locked s t ∧
        t.uarid.aliasFor = u.meas ∧ MgmtAnswered s t 0x11 q (some x.key) 0 [])) ∧
    (∀ q x, InSession s 0x12 q x → ∃ t, exec (.lifecycle q) s = .next t ∧
      let n := ofBytes q.payload
      (u.life = 3 → t.pregs = s.pregs ∧ t.uarid.life = 3 ∧ MgmtAnswered s t 0x12 q (some x.key) 5 []) ∧
      (u.life ≠ 3 → n = 3 ∨ n = 2 ∧ u.life ≠ 2 → t.uarid.life = n ∧ Locked s t ∧ MgmtAnswered s t 0x12 q (some x.key) 0 []) ∧
      (u.life ≠ 3 → n ≠ 3 → n ≠ 2 ∨ u.life = 2 → t.pregs = s.pregs ∧ t.uarid.life = u.life ∧
        MgmtAnswered s t 0x12 q (some x.key) 1 [])) ∧
    (∀ q x, InSession s 0x13 q x → ∃ t, exec (.clearTamper q) s = .next t ∧
      (u.life = 0 ∨ u.life = 3 → t.uarid.tampered = u.tampered ∧ MgmtAnswered s t 0x13 q (some x.key) 5 []) ∧
      (u.life = 1 ∨ u.life = 2 → t.uarid.tampered = false ∧ t.uarid.tamperLogged = false ∧
        MgmtAnswered s t 0x13 q (some x.key) 0 [])) ∧
    (∀ q x, InSession s 0x14 q x → ∃ t, exec (.readLog q) s = .next t ∧ t.uarid.faultLog = u.faultLog ∧
      (u.life = 3 → MgmtAnswered s t 0x14 q (some x.key) 5 []) ∧
      (u.life ≠ 3 → ∃ l, l.length ≤ 960 ∧ MgmtAnswered s t 0x14 q (some x.key) 0 l)) ∧
    (∀ q, Comes s 0x15 q → ∃ t, exec (.nonce q) s = .next t ∧
      let good := q.path = .mailbox ∧ q.session = 0
      (u.life = 0 ∨ u.life = 3 → t.uarid.recoverNonce = u.recoverNonce ∧ MgmtAnswered s t 0x15 q none 5 []) ∧
      (u.life = 1 ∨ u.life = 2 → ¬ good → t.uarid.recoverNonce = u.recoverNonce ∧ MgmtAnswered s t 0x15 q none 1 []) ∧
      (u.life = 1 ∨ u.life = 2 → good → ∃ n, n.length = 32 ∧ t.uarid.recoverNonce = some (n, s.ticks) ∧
        MgmtAnswered s t 0x15 q none 0 n)) ∧
    (∀ q, Comes s 0x16 q → ∃ t, exec (.recover q) s = .next t ∧
      let good := q.path = .mailbox ∧ q.session = 0
      let p := q.payload
      let pub := (p.drop 64).take 1952
      let ctx := ascii "DLM2048-RECOVER"
      let holds := u.ownerDigest = some (shake256 pub 32) ∧
        (∃ at_, u.recoverNonce = some ((p.drop 32).take 32, at_) ∧ s.ticks < at_ + 60000000000) ∧
        Config.mldsaVerify pub (0 :: BitVec.ofNat 8 ctx.length :: ctx ++
          (ctx ++ toBytes 8 u.serial.toNat ++ (p.drop 32).take 32 ++ p.take 32)) (p.drop 2016) = true
      (u.life = 0 ∨ u.life = 3 → t.pregs = s.pregs ∧ MgmtAnswered s t 0x16 q none 5 []) ∧
      (u.life = 1 ∨ u.life = 2 → ¬ good → t.pregs = s.pregs ∧ MgmtAnswered s t 0x16 q none 1 []) ∧
      (u.life = 1 ∨ u.life = 2 → good → holds → KeyWritten s t (p.take 32) ∧ ((s.preg 63).worn = false → t.fails = 0) ∧
        MgmtAnswered s t 0x16 q none 0 []) ∧
      (u.life = 1 ∨ u.life = 2 → good → ¬ holds → (∀ i, i ≠ 63 → t.preg i = s.preg i) ∧ ProofFailed s t ∧
        MgmtAnswered s t 0x16 q none 1 [])) ∧
    (∀ src : TamperSource, ∃ t, exec (.tamper src) s = .next t ∧
      (src = .debug → u.life ≠ 1 → t = s) ∧
      (src ≠ .debug ∨ u.life = 1 → t.uarid.tampered = true ∧ t.uarid.tamperLogged = true ∧ Locked s t ∧
        t.reg Reg.UAR_TAMPERS = s.reg Reg.UAR_TAMPERS + 1 ∧
        t.uarid.wipeAgain = (u.wipeAgain || u.wiping.isSome) ∧ (∀ a, u.wiping = some a → t.uarid.wiping = some a))) ∧
    ∃ t, exec .wipeDone s = .next t ∧
      (u.wiping = none → t = s) ∧
      (∀ a, u.wiping = some a → (s.ticks - a) * 14 < 20480 → t = s) ∧
      ∀ a, u.wiping = some a → 20480 ≤ (s.ticks - a) * 14 → EventPosted s t { s with uarid := { u with
        secure := [], wiping := if u.wipeAgain then some s.ticks else none, wipeAgain := false } }

/-- The state after an SPDM response. -/
def spdmSaid (s : State) (p : SpdmPath) (code : Nat) (body : List Byte) : State := { s with out := s.out ++ [.spdm p code body] }

/-- What stands before an answer of the attestation part, and what is answered instead: nothing before boot step 5, errors in
SCRAPPED, before the algorithms are agreed, and while a new alias certificate is made; while the secure region is wiped the request waits
(R236, R455, R460, R463, R472). -/
def AttestGate (s : State) (p : SpdmPath) (i : Instr) (answers : State → Prop) : Prop :=
  let u := s.uarid
  let up := u.ready = true ∧ s.module.fatal = false
  ∃ t, exec i s = .next t ∧ (¬ up → t = s) ∧ (up → u.life = 3 → t = spdmSaid s p 0x7F [0x07]) ∧
    (up → u.life ≠ 3 → (u.conn p).algs = false → t = spdmSaid s p 0x7F [0x04]) ∧
    (up → u.life ≠ 3 → (u.conn p).algs = true → u.certBusy ≠ none → t = spdmSaid s p 0x7F [0x42]) ∧
    (up → u.life ≠ 3 → (u.conn p).algs = true → u.certBusy = none → u.wiping ≠ none → t = { s with held := s.held ++ [i] }) ∧
    (up → u.life ≠ 3 → (u.conn p).algs = true → u.certBusy = none → u.wiping = none → answers t)

/-- The SPDM responder: versions 1.2 and 1.3, certificate, challenge and measurement capabilities, ML-DSA-65 and SHA3-384 alone,
slot 0's chain in portions, challenges signed with the alias key over the nonce and the chain's digest, and the measurement
blocks 1 to 7, 0x10 and 0x11, signed on request (R463). The codes and layouts of DSP0274 are the model's (PRESUMED, log entry 37). -/
def Obligations.AttestationAnswers : Prop :=
  ∀ (s : State) (p : SpdmPath),
    let u := s.uarid
    let up := u.ready = true ∧ s.module.fatal = false
    (∃ t, exec (.getVersion p) s = .next t ∧ (¬ up → t = s) ∧
      (up → Out.spdm p 0x04 [0x00, 0x12, 0x00, 0x13] ∈ t.out ∧ t.uarid.conn p = ⟨true, false, false⟩)) ∧
    (∃ t, exec (.getCapabilities p) s = .next t ∧ (¬ up → t = s) ∧
      (up → (u.conn p).version = false → t = spdmSaid s p 0x7F [0x04]) ∧
      (up → (u.conn p).version = true → t.uarid.conn p = ⟨true, true, false⟩ ∧
        ∃ b, Out.spdm p 0x61 b ∈ t.out ∧ ofBytes b = 2 ^ 1 + 2 ^ 2 + 2 ^ 4)) ∧
    (∀ a b : Bool, ∃ t, exec (.negotiateAlgorithms p a b) s = .next t ∧ (¬ up → t = s) ∧
      (up → u.life = 3 → t = spdmSaid s p 0x7F [0x07]) ∧
      (up → u.life ≠ 3 → (u.conn p).caps = false → t = spdmSaid s p 0x7F [0x04]) ∧
      (up → u.life ≠ 3 → (u.conn p).caps = true → (a && b) = false → t = spdmSaid s p 0x7F [0x01]) ∧
      (up → u.life ≠ 3 → (u.conn p).caps = true → a = true → b = true → t.uarid.conn p = ⟨true, true, true⟩ ∧
        ∃ x, Out.spdm p 0x63 x ∈ t.out ∧ ofBytes (x.take 4) = 0x0001F3A5 ∧ ofBytes (x.drop 4) = 1)) ∧
    AttestGate s p (.getDigests p) (fun t => t = spdmSaid s p 0x01 (1 :: sha3_384 u.chain)) ∧
    (∀ (slot : BitVec 4) (off len : BitVec 16), AttestGate s p (.getCertificate p slot off len) fun t =>
      let n := u.chain.length
      let k := min len.toNat (n - off.toNat)
      (slot ≠ 0 ∨ n ≤ off.toNat → t = spdmSaid s p 0x7F [0x01]) ∧
      (slot = 0 → off.toNat < n → t = spdmSaid s p 0x02
        (toBytes 2 k ++ toBytes 2 (n - off.toNat - k) ++ (u.chain.drop off.toNat).take k))) ∧
    (∀ (slot : BitVec 4) (nonce : List Byte), AttestGate s p (.challenge p slot nonce) fun t =>
      let d := sha3_384 u.chain
      (slot ≠ 0 → t = spdmSaid s p 0x7F [0x01]) ∧
      (slot = 0 → ∃ own sig, own.length = 32 ∧ Out.spdm p 0x03 (d ++ own ++ sig) ∈ t.out ∧
        (∃ n, sig = Config.mldsaSign n u.aliasSeed (nonce ++ d ++ own)) ∧ t = { s with out := t.out, freeCount := t.freeCount })) ∧
    (∀ (k : Byte) (nonce : List Byte), AttestGate s p (.getMeasurements p k true nonce) fun t =>
      (s.measAnswer k.toNat = none → t = spdmSaid s p 0x7F [0x01]) ∧
      ∀ b, s.measAnswer k.toNat = some b → ∃ own sig, own.length = 32 ∧ Out.spdm p 0x60 (b ++ own ++ sig) ∈ t.out ∧
        (∃ n, sig = Config.mldsaSign n u.aliasSeed (nonce ++ b ++ own)) ∧ t = { s with out := t.out, freeCount := t.freeCount }) ∧
    ∀ (k : Byte) (nonce : List Byte), AttestGate s p (.getMeasurements p k false nonce) fun t =>
      (∀ i, 1 ≤ i → i ≤ 7 → k.toNat = i → t = spdmSaid s p 0x60
        (1 :: k :: toBytes 2 (u.meas.getD (i - 1) []).length ++ u.meas.getD (i - 1) [])) ∧
      (k = 0x10 → ∃ b, t = spdmSaid s p 0x60 (1 :: k :: toBytes 2 8 ++ b) ∧ b.take 6 = [BitVec.ofNat 8 u.life,
        BitVec.ofNat 8 u.tampered.toNat, BitVec.ofNat 8 u.rollback, BitVec.ofNat 8 u.activeSlot.toNat, BitVec.ofNat 8 u.trial.toNat,
        BitVec.ofNat 8 (bundleSvn (u.slot u.activeSlot))]) ∧
      (k = 0x11 → t = spdmSaid s p 0x60 (1 :: k :: toBytes 2 36 ++ (toBytes 32 s.cfg.digest.toNat ++ toBytes 4 s.cfg.cur.toNat))) ∧
      (k ≠ 0 → k ≠ 0xFF → k ≠ 0x10 → k ≠ 0x11 → 7 < k.toNat → t = spdmSaid s p 0x7F [0x01]) ∧
      (k = 0 → t = spdmSaid s p 0x60 [9])

/-! ### The module: power, resets, the host link and the sideband -/

/-- What power-up keeps of the Uarid: fuses, flash, boot record and fault log; what it clears: boot, sessions, mailbox (R450, R506). -/
def UaridKept (u v : Uarid) : Prop :=
  v.uds = u.uds ∧ v.serial = u.serial ∧ v.vendorDigests = u.vendorDigests ∧ v.vendorRevoke = u.vendorRevoke ∧
    v.ownerDigest = u.ownerDigest ∧ v.lifecycle = u.lifecycle ∧ v.rollback = u.rollback ∧ v.slotA = u.slotA ∧
    v.slotB = u.slotB ∧ v.bootSlot = u.bootSlot ∧ v.trial = u.trial ∧ v.faultLog = u.faultLog ∧
    v.tamperLogged = u.tamperLogged ∧ v.booted = false ∧ v.ready = false ∧ v.sessions = [] ∧ v.challenges = [] ∧ v.busy = false

/-- The device as after power-up: no job, cores, memories, counters, ports and registers at their reset values, persistent
registers at their durable values, the Uarid's durable state kept (R395, R487, R506). -/
def PoweredUp (s t : State) : Prop :=
  t.jobs = [] ∧ t.cores = State.reset.cores ∧ t.shared = State.reset.shared ∧ t.stacked = State.reset.stacked ∧
    t.sync = State.reset.sync ∧ t.expo = State.reset.expo ∧ t.ports = State.reset.ports ∧ t.rings = State.reset.rings ∧
    t.module.fatal = false ∧ (∀ off, off ≠ Reg.HQ_EQ_LOST → t.reg off = State.reset.reg off) ∧
    (∀ i, t.preg i = (s.preg i).powerUp) ∧ t.uarid.wiping = none

/-- The host link has retrained to a speed and a width, and the change is reported DEGRADED where it is narrower than ×16 or
slower than at boot (R484). -/
def LinkRetrained (s t : State) (speed width : Nat) (failed : BitVec 16) : Prop :=
  let bad := width < 16 ∨ speed < s.module.bootSpeed
  t.module.linkSpeed = speed ∧ t.module.linkWidth = width ∧ t.module.failed = failed ∧ t.jobs = s.jobs ∧ t.cores = s.cores ∧
    t.reg Reg.GLB_PCIE_RETRAINS = s.reg Reg.GLB_PCIE_RETRAINS + 1 ∧
    (bad → t.reg Reg.GLB_PCIE_DEGRADES = s.reg Reg.GLB_PCIE_DEGRADES + 1 ∧ t.fld Reg.GLB_FAULT_STAT 1 3 = 4 ∧
      Out.pldm pldmPcie ∈ t.out) ∧
    (¬ bad → t.reg Reg.GLB_PCIE_DEGRADES = s.reg Reg.GLB_PCIE_DEGRADES ∧ t.out = s.out ++ [.linkTrain speed width])

/-- Power and resets. PWR_EN powers the device up, and its loss, or an input out of range for more than 500 µs, stops it as a FATAL
fault does. With fatal set PERST_N resets the whole device as power-up does; otherwise it and a Function Level Reset stop every
job without a record and return the host-facing state, telling the holders of identities, and keep the rest. PERST_N's release
trains the link once the device has booted. D3hot leads into DORMANT, and D0 wakes (R395, R450, R484 to R488, R497, R498, R506).
The trained speed and width are free values (log entry 38). -/
def Obligations.PowerResetsAndHostLink : Prop :=
  ∀ (s : State), s.ordered →
    let m := s.module
    (∃ t, exec .pwrEnAssert s = .next t ∧ (m.pwrEn = true → t = s) ∧
      (m.pwrEn = false → PoweredUp s t ∧ UaridKept s.uarid t.uarid ∧ t.module.pwrEn = true ∧ t.module.pwrGood = true)) ∧
    (∃ t, exec .pwrEnDeassert s = .next t ∧ (m.pwrEn = false → t = s) ∧
      (m.pwrEn = true → PoweredUp s t ∧ t.module.pwrEn = false ∧ t.module.pwrGood = false ∧ t.uarid.booted = false ∧
        (m.fatal = false → ∃ e, UaridKept { s.uarid with faultLog := s.uarid.faultLog ++ [e] } t.uarid) ∧
        (m.fatal = true → UaridKept s.uarid t.uarid))) ∧
    (∀ us, ∃ t, exec (.inputOutOfRange us) s = .next t ∧ (us ≤ 500 → t = s) ∧
      (500 < us → t.module.fatal = true ∧ t.module.pwrGood = false ∧ (m.fatal = false → t.jobs = []) ∧ t.shared = s.shared)) ∧
    (∃ t, exec .perstNFullReset s = .next t ∧ (m.fatal = false → t = s) ∧
      (m.fatal = true → PoweredUp s t ∧ UaridKept s.uarid t.uarid ∧ t.host = s.host)) ∧
    (∃ t, exec .functionLevelReset s = .next t ∧ (m.fatal = true → t = s) ∧
      (m.fatal = false → t.jobs = [] ∧ t.rings = State.reset.rings ∧ t.eq = State.reset.eq ∧ t.vectors = State.reset.vectors ∧
        t.windows = [] ∧ t.pageReqs = [] ∧ (∀ off, off / 0x100000 = 1 → t.reg off = State.reset.reg off) ∧
        t.host = s.host ∧ t.shared = s.shared ∧ t.stacked = s.stacked ∧ t.sync = s.sync ∧ t.expo = s.expo ∧ t.pregs = s.pregs ∧
        t.cfg = s.cfg ∧ t.uarid = s.uarid ∧
        (∀ c, (t.core c).mem = (s.core c).mem ∧ (t.core c).facets = (s.core c).facets ∧ (t.core c).live = (s.core c).live ∧
          ∀ r, (t.core c).physRow r = (s.core c).physRow r) ∧
        (∀ j ∈ s.jobs, j.num ≠ 0 → ∀ c ∈ j.cores, (s.core c).job = j.num → (t.core c).job = 0 ∧ (t.core c).issued = []) ∧
        (s.requests.length + (s.jobs.map (·.syncDevs.length)).sum < 65536 → ∀ j ∈ s.jobs, ∀ d ∈ j.syncDevs, d < 4096 → d ≠ s.selfDev → s.inTorus d = true →
          ∃ txn, Sent s t (ownHdr s (BitVec.ofNat 12 d) txn s.cfg.tag) (payloadWords (.jobend (BitVec.ofNat 24 j.num)))
            (.jobend (BitVec.ofNat 24 j.num))))) ∧
    (∃ t, exec .perstNDeassert s = .next t ∧ (m.perstN = true ∨ m.pwrGood = false → t = s) ∧
      (m.perstN = false → m.pwrGood = true → t.module.perstN = true ∧
        (s.uarid.booted = false → t = { s with module := { m with perstN := true } }) ∧
        (s.uarid.booted = true → 1 ≤ t.module.linkSpeed ∧ t.module.linkSpeed ≤ 7 ∧ t.module.linkWidth ∈ [16, 8, 4, 1] ∧
          t.module.bootSpeed = t.module.linkSpeed ∧ t.module.bootWidth = t.module.linkWidth ∧ t.module.degraded = false ∧
          (t.module.linkWidth ≠ 1 → t.out = s.out ++ [.linkTrain t.module.linkSpeed t.module.linkWidth])))) ∧
    (∃ t, exec .d3hot s = .next t ∧ t.module.d3 = true ∧
      let u : State := { s with module := { m with d3 := true } }
      (s.jobs ≠ [] ∨ s.power.state = .dormant → t = u) ∧
      (s.jobs = [] → s.power.state ≠ .dormant → u.mayDormant = true → EnteredDormant u t) ∧
      (s.jobs = [] → s.power.state ≠ .dormant → u.mayDormant = false → t = { u with power := { s.power with reqRefused := true } })) ∧
    (∃ t, exec .d0 s = .next t ∧ t = { s with module := { m with d3 := false }, power := t.power } ∧
      t.power = if s.power.state = .run then s.power else { s.power with waking := true }) ∧
    (∀ (speed : BitVec 3) (width : BitVec 5) (failed : BitVec 16),
      (∃ t, exec (.pcieLinkDegrade speed width failed) s = .next t ∧
        let worse := m.linkSpeed ≠ 0 ∧ (width.toNat < m.linkWidth ∨ speed.toNat < m.linkSpeed)
        (¬ worse → t = s) ∧ (worse → LinkRetrained s t speed.toNat width.toNat failed)) ∧
      ∃ t, exec (.retrainLink speed width failed) s = .next t ∧
        (m.linkSpeed = 0 → t = s) ∧ (m.linkSpeed ≠ 0 → LinkRetrained s t speed.toNat width.toNat failed)) ∧
    (∀ e : Byte, exec (.eidAssignment e) s = .next { s with module := { m with eid := e } }) ∧
    ∀ n : BitVec 8, ∃ t, exec (.numericSensorRead n) s = .next t ∧ t.jobs = s.jobs ∧ t.cores = s.cores ∧ t.regs = s.regs ∧
      (n = 0 ∨ 10 < n.toNat → t = s) ∧
      (0 < n.toNat → n.toNat ≤ 10 → ∃ v, t.out = s.out ++ [.sensor v] ∧
        (n = 1 → v = s.power.pmeas / 4) ∧ (n = 5 → v = s.power.baseTemp) ∧ (n = 6 → v = s.power.stackTemp) ∧
        (n = 4 → v = hottest (s.power.dies.map (·.hottest))) ∧ (n = 8 → v = s.capEff.1 / 4) ∧
        (n = 9 → v = (s.reg Reg.HLS_ENERGY).toNat / 1000) ∧
        (n = 10 → v = if m.fatal then 3 else match s.power.state with | .run => 0 | .doze => 1 | .dormant => 2) ∧
        (n ≠ 2 → n ≠ 3 → n ≠ 7 → t = { s with out := t.out }))

/-! ### The block as a whole: its queue, its tick, its reset, and its encodings -/

/-- Every command of core c's list that is still to come stands in its buffer. -/
def AllFetched (s : State) (c : Nat) : Prop :=
  ∀ j, s.jobOn c = some j → j.desc.cmdCount ≤ (s.core c).nextSeq + (s.core c).buffer.length

/-- One tick in which no list has anything left to fetch, but for physical faults: 1 ns passes, what was held is tried again, the
waits and the clusters' cycles are counted, with the bubbles of each and what arbitration costs, a scrub read may fall due, and the
first digest is formed 10 µs after reset (R49, R223, R229, R232, R317, R381, R399, R412). -/
def TickPasses (s t : State) : Prop :=
  t = { s with regs := t.regs, cores := t.cores, power := t.power, cfg := t.cfg, ticks := s.ticks + 1, time := s.time.advance
               pending := t.pending, held := [] } ∧
    (∀ c, t.core c = { s.core c with scrubDue := (t.core c).scrubDue }) ∧
    t.power = { s.power with clusters := t.power.clusters, pool := t.power.pool } ∧
    (∀ k, k < 32 → let q := s.cluster k
      let b := bubblesIn (s.clusterBeta k) q.cycles (s.fCycles (64 * k))
      (q.stopped = true → t.cluster k = q) ∧
      (q.stopped = false → t.cluster k = { q with cycles := q.cycles + s.fCycles (64 * k), bubble := (t.cluster k).bubble, activity := (t.cluster k).activity } ∧
        ((∀ i, i < 64 → (s.core (64 * k + i)).ballast = none) → (t.cluster k).activity = q.activity) ∧
        ∀ i, i < 64 → t.reg (Reg.FCT_BUBBLES (64 * k + i)) = s.reg (Reg.FCT_BUBBLES (64 * k + i)) + BitVec.ofNat 64 b)) ∧
    (s.cfg.tag ≠ 0 → t.cfg = s.cfg) ∧
    (∀ off, off ≠ Reg.HLS_BALLAST_CYCLES → off ≠ Reg.SHM_CONFLICTS → (∀ c, off ≠ Reg.SEQ_WAIT c ∧ off ≠ Reg.SEQ_FENCE c ∧
      off ≠ Reg.MEM_TAG_WAIT c ∧ off ≠ Reg.MEM_CONFLICTS c ∧ off ≠ Reg.MEM_WCOLL c ∧ off ≠ Reg.FCT_BUBBLES c) → t.reg off = s.reg off) ∧
    ∀ c, c < 2048 → t.reg (Reg.SEQ_WAIT c) =
      s.reg (Reg.SEQ_WAIT c) + if (s.jobOn c).isSome ∧ (s.core c).waitOn.isSome then BitVec.ofNat 64 (s.fCycles c) else 0

/-- A step takes the command at the front of the queue and runs it with the queue's rest; with no command waiting it is one tick,
after which the physical faults of its ns strike. Where no core has a command to fetch or to issue, only time passes (the tick
and the faults: the model's choices, log entries 3 and 127). -/
def Obligations.StepTakesTheFront : Prop :=
  (∀ (s : State) (c : Instr) (rest : List Instr), step { s with pending := c :: rest } = exec c { s with pending := rest }) ∧
  (∀ s : State, s.pending = [] → step s = .next ((Config.strikes s.ticks).foldl State.strike (calmTick s))) ∧
  (∀ s : State, s.ordered → s.pending = [] → (∀ c, AllFetched s c ∧ s.fetchFor c = none) →
    TickPasses s (calmTick s) ∧ (calmTick s).pending = s.held) ∧
  ∀ (s : State) (nbits w : Nat), decodeTableWord nbits w = none ∧ s.withFetchWord nbits w = s

/-- What stands at position n of a list: a command with the parameter records that its header names (R294, R298). -/
def fetchedAt (s : State) (j : Job) (o : Opnd) (n : Nat) : Fetched :=
  let w := s.codeAt o n
  let h := hdrOf w
  let r (k : Nat) : Code := if k < h.prmN.toNat ∧ recordsInside j h then s.codeAt o (h.prm.toNat + k) else 0
  ⟨w, r 0, r 1⟩

/-- The dispatch unit fills the buffer of a core, whenever it has 2 free entries, with the commands that stand next in its list, to
64 of them or to the list's end. With no command waiting, the command at the head of the buffer comes to issue; one that is
none is refused, and its job ends with BAD_CMD (R294, R297, R298, R300, R301). -/
def Obligations.FetchBringsTheNextCommand : Prop :=
  (∀ (s : State) (j : Job) (c : Nat) (o : Opnd), s.ordered → s.faultless → s.jobOn c = some j → j.status = none →
    s.clockStopped c = false → (s.core c).buffer.length ≤ 62 → j.listOf c = some o →
    (∀ r ∈ (s.core c).issued, r.seq < (s.core c).nextSeq) →
    let k := s.core c
    let from_ := k.nextSeq + k.buffer.length
    let n := min (64 - k.buffer.length) (j.desc.cmdCount - from_)
    (∀ i, from_ ≤ i → i < from_ + n → let h := hdrOf (s.codeAt o i)
      ∀ m b, m = i ∨ h.prm.toNat ≤ m ∧ m < h.prm.toNat + h.prmN.toNat → b < 32 →
        ∃ p, o.plain (32 * m + b) = some p ∧ placeOpen s false p = true) →
    let t := s.fillBuffer c
    t = { s with cores := t.cores, bankIdle := t.bankIdle } ∧ (∀ d, d ≠ c → t.core d = s.core d) ∧
      t.core c = { k with buffer := k.buffer ++ (List.range n).map fun i => fetchedAt s j o (from_ + i) }) ∧
  ∀ (s : State) (j : Job) (c : Nat) (e : Fetched) (l : List Fetched), s.ordered → c < 2048 → s.pending = [] → s.held = [] →
    (∀ d, AllFetched s d ∧ (d ≠ c → s.fetchFor d = none)) → s.fetchFor c = some j → j.status = none →
    (s.core c).buffer = e :: l →
    (∀ i, decodeTile (BitVec.ofNat 11 c) e.word e.rec0 e.rec1 = .ok i → TickPasses s (calmTick s) ∧ (calmTick s).pending = [i]) ∧
    ∀ n, decodeTile (BitVec.ofNat 11 c) e.word e.rec0 e.rec1 = .error n → (calmTick s).pending = [] ∧
      EndedWith (calmTick s) j.num .badCmd c (s.core c).nextSeq ∧ (calmTick s).fld Reg.GLB_CMD_LOG0 0 6 = n % 64

/-- Reset leaves no job and no session, every facet EMPTY, every counter 0, the maps in order, and the registers at the reset
values of their maps (R8, R59, R449, R505, R506). -/
def Obligations.ResetLeavesTheStatedValues : Prop :=
  let s := State.reset
  s.ordered ∧ s.pending = [] ∧ s.jobs = [] ∧ s.uarid.sessions = [] ∧ s.windows = [] ∧ s.module.fatal = false ∧
    s.power.state = .run ∧ s.cfg.cur = 0 ∧ s.cfg.staged = none ∧
    (∀ c f, (s.core c).facet f = Facet.reset ∧ ((s.core c).facet f).state = .empty) ∧ (∀ c, (s.core c).live = 0) ∧
    (∀ n, s.ctr n = 0) ∧ (∀ r, s.ring r = Ring.reset) ∧
    s.fld Reg.COL_CTRL 0 3 = 7 ∧ s.fld Reg.COL_CTRL 3 5 = 3 ∧ s.fld Reg.COL_CTRL 8 8 = 24 ∧ s.fld Reg.COL_CTRL 16 16 = 600 ∧
    ∀ off ∈ [Reg.COL_SLICES, Reg.SYN_OPS, Reg.GLB_CONTAINED, Reg.HLS_ENERGY, Reg.UAR_SESSIONS, Reg.HQ_EQ_LOST], s.reg off = 0

/-- Every step keeps the form of the state: every map in rising order, every memory in its canonical form, every list of fixed
length at its length. (An invariant of the model's representation; log entry 39.) -/
def Obligations.StepKeepsOrdered : Prop :=
  ∀ s t : State, s.ordered → step s = .next t → t.ordered

/-- Opcodes of tile commands whose body begins at bit 32, where others keep the number of their parameter records (R298, R302). -/
def fromBit32 : List Nat := [1, 2, 3, 4, 8, 9, 0x0D, 0x0E, 0x0F, 0x10, 0x11, 0x12, 0x13, 0x14, 0x15]

/-- Tile commands: what is written is read again, with every field at every value, and what is read without a reserved bit
accounts for every bit of the command and of its records (R297, R298, R302). -/
def Obligations.TileCommandsReadAsWritten : Prop :=
  (∀ (i : Instr) (c : CoreId) (h : Hdr), tileOf i = some (c.toNat, h) → h.reserved = false → (h.prmN = 0 → h.prm = 0) →
    (opcodeOf i ∈ fromBit32 → h.prmN = 0) →
    decodeTile c (encodeTile i) (encodeRecords i).1 (encodeRecords i).2 = .ok i) ∧
  ∀ (c : CoreId) (w r q : Code) (i : Instr) (d : Nat) (h : Hdr), decodeTile c w r q = .ok i → tileOf i = some (d, h) →
    d = c.toNat ∧ (h.reserved = false → encodeTile i = w &&& ~~~unusedBits i ∧ encodeRecords i = (r, q))

/-- Messages and flits: the bytes of a request or response for this device are read as the command that they are, with every
field; the bytes of a data flit as that flit, with a good check (R347, R348, R354 to R356). -/
def Obligations.MessagesReadAsWritten : Prop :=
  (∀ (self : DevNum) (p : PortId) (h : MsgHdr) (m : Payload), h.inPort = some p → h.dst = self → payloadOk m = true →
    (∀ t r, m ≠ .bad t r) → (∀ b, m = .mgmt b → b.length % 4 = 0) → (∀ st d, m = .rsp st d → d.length % 4 = 0) →
    (∀ x, m = .transit x → x.core.toNat < 2048) →
    readMessage self p (messageBytes h m) = some (routedCommand h (payloadWords m) m)) ∧
  ∀ (p : PortId) (fecOk : Bool) (seq ack : BitVec 10) (nak : Bool) (cvc : BitVec 2) (ccount : BitVec 6) (payload : List Byte),
    payload.length = 244 → readFlit p fecOk (flitBytes (flitBody seq ack nak false cvc ccount payload)) =
      .dataFlitReceive p ⟨seq, ack, nak, cvc, ccount, payload, true, fecOk⟩
end

