-- ==== Sys2Proof/Laws/Sparse.lean ====
section
/-!
SUPPORT. Laws of the sparse maps: what is set at a key is read there and nowhere else, and every operation keeps the rising
order of the keys and the canonical form.
-/

namespace Sys2Proof.Machine

variable {α : Type}

theorem Sparse.rising_tail {k : Nat} {v : α} {m : Sparse α} (h : Sparse.rising ((k, v) :: m) = true) :
    Sparse.above k m = true ∧ Sparse.rising m = true := by
  simpa [Sparse.rising] using h

/-- A key at or below the bound of a rising map is not listed. -/
theorem Sparse.get_below (d : α) {lo k : Nat} {m : Sparse α} (h : Sparse.above lo m = true) (hk : k ≤ lo) :
    Sparse.get d m k = d := by
  cases m with
  | nil => rfl
  | cons e m =>
    obtain ⟨k', v⟩ := e
    have : lo < k' := by simpa [Sparse.above] using h
    simp [Sparse.get, show ¬ k = k' by omega, show k < k' by omega]

variable [DecidableEq α]

/-- A new key above a bound keeps the bound. -/
theorem Sparse.above_set (d : α) {lo k : Nat} {m : Sparse α} (v : α) (h : Sparse.above lo m = true)
    (hr : Sparse.rising m = true) (hk : lo < k) : Sparse.above lo (Sparse.set d m k v) = true := by
  cases m with
  | nil => by_cases hv : v = d <;> simp [Sparse.set, hv, Sparse.above, hk]
  | cons e m =>
    obtain ⟨k', v'⟩ := e
    have h1 : lo < k' := by simpa [Sparse.above] using h
    have h2 := (Sparse.rising_tail hr).1
    by_cases e1 : k = k'
    · subst e1
      by_cases hv : v = d
      · cases m with
        | nil => simp [Sparse.set, hv, Sparse.above]
        | cons e m =>
          have : k < e.1 := by simpa [Sparse.above] using h2
          simp [Sparse.set, hv, Sparse.above]; omega
      · simp [Sparse.set, hv, Sparse.above, hk]
    · by_cases e2 : k < k'
      · by_cases hv : v = d <;> simp [Sparse.set, e1, e2, hv, Sparse.above, hk, h1]
      · simp [Sparse.set, e1, e2, Sparse.above, h1]

/-- Setting a key keeps the order. -/
theorem Sparse.rising_set (d : α) (k : Nat) (v : α) {m : Sparse α} (hr : Sparse.rising m = true) :
    Sparse.rising (Sparse.set d m k v) = true := by
  induction m with
  | nil => by_cases hv : v = d <;> simp [Sparse.set, hv, Sparse.rising, Sparse.above]
  | cons e m ih =>
    obtain ⟨k', v'⟩ := e
    obtain ⟨h1, h2⟩ := Sparse.rising_tail hr
    by_cases e1 : k = k'
    · subst e1
      by_cases hv : v = d <;> simp [Sparse.set, hv, Sparse.rising, h1, h2]
    · by_cases e2 : k < k'
      · by_cases hv : v = d
        · simpa [Sparse.set, e1, e2, hv] using hr
        · have : Sparse.rising ((k, v) :: (k', v') :: m) = (decide (k < k') && Sparse.rising ((k', v') :: m)) := rfl
          simp [Sparse.set, e1, e2, hv, this, hr]
      · have := Sparse.above_set d v h1 h2 (show k' < k by omega)
        simp [Sparse.set, e1, e2, Sparse.rising, this, ih h2]

/-- What is set at a key of a rising map is read there, and every other key reads as before. -/
theorem Sparse.get_set (d : α) (k : Nat) (v : α) {m : Sparse α} (hr : Sparse.rising m = true) (i : Nat) :
    Sparse.get d (Sparse.set d m k v) i = if i = k then v else Sparse.get d m i := by
  induction m with
  | nil =>
    by_cases hv : v = d
    · subst hv; simp [Sparse.set, Sparse.get]
    · by_cases hi : i = k
      · simp [Sparse.set, hv, Sparse.get, hi]
      · simp [Sparse.set, hv, Sparse.get, hi]
  | cons e m ih =>
    obtain ⟨k', v'⟩ := e
    obtain ⟨h1, h2⟩ := Sparse.rising_tail hr
    by_cases e1 : k = k'
    · subst e1
      by_cases hv : v = d
      · subst hv
        by_cases hi : i = k
        · subst hi; simp [Sparse.set, Sparse.get_below v h1 le_rfl]
        · by_cases hl : i < k
          · simp [Sparse.set, Sparse.get, hi, hl, Sparse.get_below v h1 hl.le]
          · simp [Sparse.set, Sparse.get, hi, hl]
      · by_cases hi : i = k <;> simp [Sparse.set, hv, Sparse.get, hi]
    · by_cases e2 : k < k'
      · by_cases hv : v = d
        · subst hv
          by_cases hi : i = k
          · subst hi; simp [Sparse.set, e1, e2, Sparse.get]
          · simp [Sparse.set, e1, e2, hi]
        · by_cases hi : i = k
          · simp [Sparse.set, e1, e2, hv, Sparse.get, hi]
          · by_cases hl : i < k
            · simp [Sparse.set, e1, e2, hv, Sparse.get, hi, hl, show ¬ i = k' by omega, show i < k' by omega]
            · simp [Sparse.set, e1, e2, hv, Sparse.get, hi, hl]
      · by_cases hi : i = k'
        · subst hi; simp [Sparse.set, e1, e2, Sparse.get, show ¬ i = k by omega]
        · by_cases hl : i < k'
          · simp [Sparse.set, e1, e2, Sparse.get, hi, hl, show ¬ i = k by omega]
          · simp [Sparse.set, e1, e2, Sparse.get, hi, hl, ih h2]

/-- A key other than the one that is set reads as before, by whatever default it is read. -/
theorem Sparse.get_set_other (d d' : α) (k : Nat) (v : α) {m : Sparse α} (hr : Sparse.rising m = true) (i : Nat)
    (hi : i ≠ k) : Sparse.get d' (Sparse.set d m k v) i = Sparse.get d' m i := by
  induction m with
  | nil =>
    by_cases hv : v = d
    · simp [Sparse.set, hv]
    · simp [Sparse.set, hv, Sparse.get, hi]
  | cons e m ih =>
    obtain ⟨k', v'⟩ := e
    obtain ⟨h1, h2⟩ := Sparse.rising_tail hr
    by_cases e1 : k = k'
    · subst e1
      by_cases hl : i < k
      · by_cases hv : v = d <;> simp [Sparse.set, hv, Sparse.get, hi, hl, Sparse.get_below d' h1 hl.le]
      · by_cases hv : v = d <;> simp [Sparse.set, hv, Sparse.get, hi, hl]
    · by_cases e2 : k < k'
      · by_cases hv : v = d
        · simp [Sparse.set, e1, e2, hv]
        · by_cases hl : i < k
          · simp [Sparse.set, e1, e2, hv, Sparse.get, hi, hl, show ¬ i = k' by omega, show i < k' by omega]
          · simp [Sparse.set, e1, e2, hv, Sparse.get, hi, hl]
      · by_cases hi' : i = k'
        · simp [Sparse.set, e1, e2, Sparse.get, hi']
        · by_cases hl : i < k'
          · simp [Sparse.set, e1, e2, Sparse.get, hi', hl]
          · simp [Sparse.set, e1, e2, Sparse.get, hi', hl, ih h2]

/-- The canonical form is a rising map with no default listed. -/
theorem Sparse.wf_iff (d : α) (m : Sparse α) :
    Sparse.wf d m = true ↔ Sparse.rising m = true ∧ ∀ e ∈ m, e.2 ≠ d := by
  induction m with
  | nil => simp [Sparse.wf, Sparse.rising]
  | cons e m ih =>
    obtain ⟨k, v⟩ := e
    simp only [Sparse.wf, Sparse.rising, Bool.and_eq_true, ih, decide_eq_true_eq, List.mem_cons, forall_eq_or_imp]
    tauto

/-- No entry of a set map is the default where none was. -/
theorem Sparse.mem_set (d : α) (k : Nat) (v : α) {m : Sparse α} (h : ∀ e ∈ m, e.2 ≠ d) :
    ∀ e ∈ Sparse.set d m k v, e.2 ≠ d := by
  induction m with
  | nil => by_cases hv : v = d <;> simp [Sparse.set, hv]
  | cons e m ih =>
    obtain ⟨k', v'⟩ := e
    simp only [List.mem_cons, forall_eq_or_imp] at h
    by_cases e1 : k = k'
    · subst e1
      by_cases hv : v = d
      · simpa [Sparse.set, hv] using h.2
      · simp only [Sparse.set, if_true, hv, if_false, List.mem_cons, forall_eq_or_imp]; exact ⟨hv, h.2⟩
    · by_cases e2 : k < k'
      · by_cases hv : v = d
        · simpa [Sparse.set, e1, e2, hv] using h
        · simp only [Sparse.set, e1, e2, if_true, hv, if_false, List.mem_cons, forall_eq_or_imp]; exact ⟨hv, h⟩
      · simp only [Sparse.set, e1, e2, if_false, List.mem_cons, forall_eq_or_imp]; exact ⟨h.1, ih h.2⟩

/-- Setting a key keeps the canonical form. -/
theorem Sparse.wf_set (d : α) (k : Nat) (v : α) {m : Sparse α} (h : Sparse.wf d m = true) :
    Sparse.wf d (Sparse.set d m k v) = true := by
  rw [Sparse.wf_iff] at h ⊢
  exact ⟨Sparse.rising_set d k v h.1, Sparse.mem_set d k v h.2⟩

/-- Setting keys in order keeps the canonical form. -/
theorem Sparse.wf_setList (d : α) (vs : List α) (k : Nat) {m : Sparse α} (h : Sparse.wf d m = true) :
    Sparse.wf d (Sparse.setList d m k vs) = true := by
  induction vs generalizing m k with
  | nil => exact h
  | cons v vs ih => exact ih _ (Sparse.wf_set d k v h)

/-- Setting keys in order keeps the order. -/
theorem Sparse.rising_setList (d : α) (vs : List α) (k : Nat) {m : Sparse α} (h : Sparse.rising m = true) :
    Sparse.rising (Sparse.setList d m k vs) = true := by
  induction vs generalizing m k with
  | nil => exact h
  | cons v vs ih => exact ih _ (Sparse.rising_set d k v h)

/-- What is set from key k on is read there, and every other key reads as before. -/
theorem Sparse.get_setList (d : α) (vs : List α) (k : Nat) {m : Sparse α} (h : Sparse.rising m = true) (i : Nat) :
    Sparse.get d (Sparse.setList d m k vs) i =
      if k ≤ i ∧ i < k + vs.length then vs.getD (i - k) d else Sparse.get d m i := by
  induction vs generalizing m k with
  | nil => simp [Sparse.setList]
  | cons v vs ih =>
    rw [Sparse.setList, ih _ (Sparse.rising_set d k v h), Sparse.get_set d k v h]
    by_cases hi : i = k
    · subst hi; simp
    · by_cases h1 : k + 1 ≤ i ∧ i < k + 1 + vs.length
      · rw [if_pos h1, if_pos (by simp; omega)]
        obtain ⟨j, rfl⟩ : ∃ j, i = k + 1 + j := ⟨i - (k + 1), by omega⟩
        rw [show k + 1 + j - (k + 1) = j by omega, show k + 1 + j - k = j + 1 by omega]; simp
      · rw [if_neg h1, if_neg hi, if_neg (by simp; omega)]

omit [DecidableEq α] in
theorem Sparse.above_filter (p : Nat × α → Bool) {lo : Nat} {m : Sparse α} (ha : Sparse.above lo m = true)
    (h : Sparse.rising m = true) : Sparse.above lo (m.filter p) = true := by
  induction m generalizing lo with
  | nil => rfl
  | cons e m ih =>
    obtain ⟨k, v⟩ := e
    obtain ⟨h1, h2⟩ := Sparse.rising_tail h
    have hk : lo < k := by simpa [Sparse.above] using ha
    by_cases hp : p (k, v) = true
    · simp [hp, Sparse.above, hk]
    · have : Sparse.above lo m = true := by
        cases m with
        | nil => rfl
        | cons e m => have : k < e.1 := by simpa [Sparse.above] using h1
                      simp [Sparse.above]; omega
      simpa [List.filter_cons, hp] using ih this h2

omit [DecidableEq α] in
/-- Taking entries out keeps the order. -/
theorem Sparse.rising_filter (p : Nat × α → Bool) {m : Sparse α} (h : Sparse.rising m = true) :
    Sparse.rising (m.filter p) = true := by
  induction m with
  | nil => rfl
  | cons e m ih =>
    obtain ⟨k, v⟩ := e
    obtain ⟨h1, h2⟩ := Sparse.rising_tail h
    by_cases hp : p (k, v) = true
    · simp [hp, Sparse.rising, ih h2, Sparse.above_filter p h1 h2]
    · simpa [List.filter_cons, hp] using ih h2

/-- Taking entries out keeps the canonical form. -/
theorem Sparse.wf_filter (d : α) (p : Nat × α → Bool) {m : Sparse α} (h : Sparse.wf d m = true) :
    Sparse.wf d (m.filter p) = true := by
  rw [Sparse.wf_iff] at h ⊢
  exact ⟨Sparse.rising_filter p h.1, fun e he => h.2 e (List.mem_filter.mp he).1⟩

/-- Dropping keys keeps the canonical form. -/
theorem Sparse.wf_drop (d : α) (p : Nat → Bool) {m : Sparse α} (h : Sparse.wf d m = true) :
    Sparse.wf d (Sparse.drop p m) = true := Sparse.wf_filter d _ h

omit [DecidableEq α] in
/-- Changing values, and not keys, keeps the order. -/
theorem Sparse.rising_map {β : Type} (f : Nat × α → β) (m : Sparse α) :
    Sparse.rising (m.map fun e => (e.1, f e)) = Sparse.rising m := by
  induction m with
  | nil => rfl
  | cons e m ih =>
    obtain ⟨k, v⟩ := e
    simp only [List.map_cons, Sparse.rising, ih]
    cases m <;> rfl

end Sys2Proof.Machine
end

