-- ==== Sys2Proof/Laws/State.lean ====
section
/-!
SUPPORT. What each update of the state leaves alone, field by field, and what a register, core, ring, port, vector, counter
or exposure slot reads after one was set. No proof need unfold a record update.
-/

namespace Sys2Proof.Machine

@[simp] theorem State.setReg_pending (s : State) (off : Nat) (v : Word64) : (s.setReg off v).pending = s.pending := rfl
@[simp] theorem State.setReg_held (s : State) (off : Nat) (v : Word64) : (s.setReg off v).held = s.held := rfl
@[simp] theorem State.setReg_ticks (s : State) (off : Nat) (v : Word64) : (s.setReg off v).ticks = s.ticks := rfl
@[simp] theorem State.setReg_freeCount (s : State) (off : Nat) (v : Word64) : (s.setReg off v).freeCount = s.freeCount := rfl
@[simp] theorem State.setReg_latches (s : State) (off : Nat) (v : Word64) : (s.setReg off v).latches = s.latches := rfl
@[simp] theorem State.setReg_cores (s : State) (off : Nat) (v : Word64) : (s.setReg off v).cores = s.cores := rfl
@[simp] theorem State.setReg_jobs (s : State) (off : Nat) (v : Word64) : (s.setReg off v).jobs = s.jobs := rfl
@[simp] theorem State.setReg_lastJob (s : State) (off : Nat) (v : Word64) : (s.setReg off v).lastJob = s.lastJob := rfl
@[simp] theorem State.setReg_lastRing (s : State) (off : Nat) (v : Word64) : (s.setReg off v).lastRing = s.lastRing := rfl
@[simp] theorem State.setReg_rings (s : State) (off : Nat) (v : Word64) : (s.setReg off v).rings = s.rings := rfl
@[simp] theorem State.setReg_eq (s : State) (off : Nat) (v : Word64) : (s.setReg off v).eq = s.eq := rfl
@[simp] theorem State.setReg_vectors (s : State) (off : Nat) (v : Word64) : (s.setReg off v).vectors = s.vectors := rfl
@[simp] theorem State.setReg_shared (s : State) (off : Nat) (v : Word64) : (s.setReg off v).shared = s.shared := rfl
@[simp] theorem State.setReg_sharedEcc (s : State) (off : Nat) (v : Word64) : (s.setReg off v).sharedEcc = s.sharedEcc := rfl
@[simp] theorem State.setReg_banks (s : State) (off : Nat) (v : Word64) : (s.setReg off v).banks = s.banks := rfl
@[simp] theorem State.setReg_bankIdle (s : State) (off : Nat) (v : Word64) : (s.setReg off v).bankIdle = s.bankIdle := rfl
@[simp] theorem State.setReg_stacked (s : State) (off : Nat) (v : Word64) : (s.setReg off v).stacked = s.stacked := rfl
@[simp] theorem State.setReg_stackedEcc (s : State) (off : Nat) (v : Word64) : (s.setReg off v).stackedEcc = s.stackedEcc := rfl
@[simp] theorem State.setReg_tlb (s : State) (off : Nat) (v : Word64) : (s.setReg off v).tlb = s.tlb := rfl
@[simp] theorem State.setReg_pageReqs (s : State) (off : Nat) (v : Word64) : (s.setReg off v).pageReqs = s.pageReqs := rfl
@[simp] theorem State.setReg_host (s : State) (off : Nat) (v : Word64) : (s.setReg off v).host = s.host := rfl
@[simp] theorem State.setReg_hostPages (s : State) (off : Nat) (v : Word64) : (s.setReg off v).hostPages = s.hostPages := rfl
@[simp] theorem State.setReg_windows (s : State) (off : Nat) (v : Word64) : (s.setReg off v).windows = s.windows := rfl
@[simp] theorem State.setReg_sync (s : State) (off : Nat) (v : Word64) : (s.setReg off v).sync = s.sync := rfl
@[simp] theorem State.setReg_expo (s : State) (off : Nat) (v : Word64) : (s.setReg off v).expo = s.expo := rfl
@[simp] theorem State.setReg_identities (s : State) (off : Nat) (v : Word64) : (s.setReg off v).identities = s.identities := rfl
@[simp] theorem State.setReg_identityBroken (s : State) (off : Nat) (v : Word64) : (s.setReg off v).identityBroken = s.identityBroken := rfl
@[simp] theorem State.setReg_speLast (s : State) (off : Nat) (v : Word64) : (s.setReg off v).speLast = s.speLast := rfl
@[simp] theorem State.setReg_staging (s : State) (off : Nat) (v : Word64) : (s.setReg off v).staging = s.staging := rfl
@[simp] theorem State.setReg_requests (s : State) (off : Nat) (v : Word64) : (s.setReg off v).requests = s.requests := rfl
@[simp] theorem State.setReg_nextTxn (s : State) (off : Nat) (v : Word64) : (s.setReg off v).nextTxn = s.nextTxn := rfl
@[simp] theorem State.setReg_ports (s : State) (off : Nat) (v : Word64) : (s.setReg off v).ports = s.ports := rfl
@[simp] theorem State.setReg_time (s : State) (off : Nat) (v : Word64) : (s.setReg off v).time = s.time := rfl
@[simp] theorem State.setReg_cfg (s : State) (off : Nat) (v : Word64) : (s.setReg off v).cfg = s.cfg := rfl
@[simp] theorem State.setReg_pregs (s : State) (off : Nat) (v : Word64) : (s.setReg off v).pregs = s.pregs := rfl
@[simp] theorem State.setReg_power (s : State) (off : Nat) (v : Word64) : (s.setReg off v).power = s.power := rfl
@[simp] theorem State.setReg_collim (s : State) (off : Nat) (v : Word64) : (s.setReg off v).collim = s.collim := rfl
@[simp] theorem State.setReg_uarid (s : State) (off : Nat) (v : Word64) : (s.setReg off v).uarid = s.uarid := rfl
@[simp] theorem State.setReg_module (s : State) (off : Nat) (v : Word64) : (s.setReg off v).module = s.module := rfl
@[simp] theorem State.setReg_hostRead (s : State) (off : Nat) (v : Word64) : (s.setReg off v).hostRead = s.hostRead := rfl
@[simp] theorem State.setReg_out (s : State) (off : Nat) (v : Word64) : (s.setReg off v).out = s.out := rfl

@[simp] theorem State.setFld_pending (s : State) (off lo n v : Nat) : (s.setFld off lo n v).pending = s.pending := rfl
@[simp] theorem State.setFld_held (s : State) (off lo n v : Nat) : (s.setFld off lo n v).held = s.held := rfl
@[simp] theorem State.setFld_ticks (s : State) (off lo n v : Nat) : (s.setFld off lo n v).ticks = s.ticks := rfl
@[simp] theorem State.setFld_freeCount (s : State) (off lo n v : Nat) : (s.setFld off lo n v).freeCount = s.freeCount := rfl
@[simp] theorem State.setFld_latches (s : State) (off lo n v : Nat) : (s.setFld off lo n v).latches = s.latches := rfl
@[simp] theorem State.setFld_cores (s : State) (off lo n v : Nat) : (s.setFld off lo n v).cores = s.cores := rfl
@[simp] theorem State.setFld_jobs (s : State) (off lo n v : Nat) : (s.setFld off lo n v).jobs = s.jobs := rfl
@[simp] theorem State.setFld_lastJob (s : State) (off lo n v : Nat) : (s.setFld off lo n v).lastJob = s.lastJob := rfl
@[simp] theorem State.setFld_lastRing (s : State) (off lo n v : Nat) : (s.setFld off lo n v).lastRing = s.lastRing := rfl
@[simp] theorem State.setFld_rings (s : State) (off lo n v : Nat) : (s.setFld off lo n v).rings = s.rings := rfl
@[simp] theorem State.setFld_eq (s : State) (off lo n v : Nat) : (s.setFld off lo n v).eq = s.eq := rfl
@[simp] theorem State.setFld_vectors (s : State) (off lo n v : Nat) : (s.setFld off lo n v).vectors = s.vectors := rfl
@[simp] theorem State.setFld_shared (s : State) (off lo n v : Nat) : (s.setFld off lo n v).shared = s.shared := rfl
@[simp] theorem State.setFld_sharedEcc (s : State) (off lo n v : Nat) : (s.setFld off lo n v).sharedEcc = s.sharedEcc := rfl
@[simp] theorem State.setFld_banks (s : State) (off lo n v : Nat) : (s.setFld off lo n v).banks = s.banks := rfl
@[simp] theorem State.setFld_bankIdle (s : State) (off lo n v : Nat) : (s.setFld off lo n v).bankIdle = s.bankIdle := rfl
@[simp] theorem State.setFld_stacked (s : State) (off lo n v : Nat) : (s.setFld off lo n v).stacked = s.stacked := rfl
@[simp] theorem State.setFld_stackedEcc (s : State) (off lo n v : Nat) : (s.setFld off lo n v).stackedEcc = s.stackedEcc := rfl
@[simp] theorem State.setFld_tlb (s : State) (off lo n v : Nat) : (s.setFld off lo n v).tlb = s.tlb := rfl
@[simp] theorem State.setFld_pageReqs (s : State) (off lo n v : Nat) : (s.setFld off lo n v).pageReqs = s.pageReqs := rfl
@[simp] theorem State.setFld_host (s : State) (off lo n v : Nat) : (s.setFld off lo n v).host = s.host := rfl
@[simp] theorem State.setFld_hostPages (s : State) (off lo n v : Nat) : (s.setFld off lo n v).hostPages = s.hostPages := rfl
@[simp] theorem State.setFld_windows (s : State) (off lo n v : Nat) : (s.setFld off lo n v).windows = s.windows := rfl
@[simp] theorem State.setFld_sync (s : State) (off lo n v : Nat) : (s.setFld off lo n v).sync = s.sync := rfl
@[simp] theorem State.setFld_expo (s : State) (off lo n v : Nat) : (s.setFld off lo n v).expo = s.expo := rfl
@[simp] theorem State.setFld_identities (s : State) (off lo n v : Nat) : (s.setFld off lo n v).identities = s.identities := rfl
@[simp] theorem State.setFld_identityBroken (s : State) (off lo n v : Nat) : (s.setFld off lo n v).identityBroken = s.identityBroken := rfl
@[simp] theorem State.setFld_speLast (s : State) (off lo n v : Nat) : (s.setFld off lo n v).speLast = s.speLast := rfl
@[simp] theorem State.setFld_staging (s : State) (off lo n v : Nat) : (s.setFld off lo n v).staging = s.staging := rfl
@[simp] theorem State.setFld_requests (s : State) (off lo n v : Nat) : (s.setFld off lo n v).requests = s.requests := rfl
@[simp] theorem State.setFld_nextTxn (s : State) (off lo n v : Nat) : (s.setFld off lo n v).nextTxn = s.nextTxn := rfl
@[simp] theorem State.setFld_ports (s : State) (off lo n v : Nat) : (s.setFld off lo n v).ports = s.ports := rfl
@[simp] theorem State.setFld_time (s : State) (off lo n v : Nat) : (s.setFld off lo n v).time = s.time := rfl
@[simp] theorem State.setFld_cfg (s : State) (off lo n v : Nat) : (s.setFld off lo n v).cfg = s.cfg := rfl
@[simp] theorem State.setFld_pregs (s : State) (off lo n v : Nat) : (s.setFld off lo n v).pregs = s.pregs := rfl
@[simp] theorem State.setFld_power (s : State) (off lo n v : Nat) : (s.setFld off lo n v).power = s.power := rfl
@[simp] theorem State.setFld_collim (s : State) (off lo n v : Nat) : (s.setFld off lo n v).collim = s.collim := rfl
@[simp] theorem State.setFld_uarid (s : State) (off lo n v : Nat) : (s.setFld off lo n v).uarid = s.uarid := rfl
@[simp] theorem State.setFld_module (s : State) (off lo n v : Nat) : (s.setFld off lo n v).module = s.module := rfl
@[simp] theorem State.setFld_hostRead (s : State) (off lo n v : Nat) : (s.setFld off lo n v).hostRead = s.hostRead := rfl
@[simp] theorem State.setFld_out (s : State) (off lo n v : Nat) : (s.setFld off lo n v).out = s.out := rfl

@[simp] theorem State.count_pending (s : State) (off k : Nat) : (s.count off k).pending = s.pending := rfl
@[simp] theorem State.count_held (s : State) (off k : Nat) : (s.count off k).held = s.held := rfl
@[simp] theorem State.count_ticks (s : State) (off k : Nat) : (s.count off k).ticks = s.ticks := rfl
@[simp] theorem State.count_freeCount (s : State) (off k : Nat) : (s.count off k).freeCount = s.freeCount := rfl
@[simp] theorem State.count_latches (s : State) (off k : Nat) : (s.count off k).latches = s.latches := rfl
@[simp] theorem State.count_cores (s : State) (off k : Nat) : (s.count off k).cores = s.cores := rfl
@[simp] theorem State.count_jobs (s : State) (off k : Nat) : (s.count off k).jobs = s.jobs := rfl
@[simp] theorem State.count_lastJob (s : State) (off k : Nat) : (s.count off k).lastJob = s.lastJob := rfl
@[simp] theorem State.count_lastRing (s : State) (off k : Nat) : (s.count off k).lastRing = s.lastRing := rfl
@[simp] theorem State.count_rings (s : State) (off k : Nat) : (s.count off k).rings = s.rings := rfl
@[simp] theorem State.count_eq (s : State) (off k : Nat) : (s.count off k).eq = s.eq := rfl
@[simp] theorem State.count_vectors (s : State) (off k : Nat) : (s.count off k).vectors = s.vectors := rfl
@[simp] theorem State.count_shared (s : State) (off k : Nat) : (s.count off k).shared = s.shared := rfl
@[simp] theorem State.count_sharedEcc (s : State) (off k : Nat) : (s.count off k).sharedEcc = s.sharedEcc := rfl
@[simp] theorem State.count_banks (s : State) (off k : Nat) : (s.count off k).banks = s.banks := rfl
@[simp] theorem State.count_bankIdle (s : State) (off k : Nat) : (s.count off k).bankIdle = s.bankIdle := rfl
@[simp] theorem State.count_stacked (s : State) (off k : Nat) : (s.count off k).stacked = s.stacked := rfl
@[simp] theorem State.count_stackedEcc (s : State) (off k : Nat) : (s.count off k).stackedEcc = s.stackedEcc := rfl
@[simp] theorem State.count_tlb (s : State) (off k : Nat) : (s.count off k).tlb = s.tlb := rfl
@[simp] theorem State.count_pageReqs (s : State) (off k : Nat) : (s.count off k).pageReqs = s.pageReqs := rfl
@[simp] theorem State.count_host (s : State) (off k : Nat) : (s.count off k).host = s.host := rfl
@[simp] theorem State.count_hostPages (s : State) (off k : Nat) : (s.count off k).hostPages = s.hostPages := rfl
@[simp] theorem State.count_windows (s : State) (off k : Nat) : (s.count off k).windows = s.windows := rfl
@[simp] theorem State.count_sync (s : State) (off k : Nat) : (s.count off k).sync = s.sync := rfl
@[simp] theorem State.count_expo (s : State) (off k : Nat) : (s.count off k).expo = s.expo := rfl
@[simp] theorem State.count_identities (s : State) (off k : Nat) : (s.count off k).identities = s.identities := rfl
@[simp] theorem State.count_identityBroken (s : State) (off k : Nat) : (s.count off k).identityBroken = s.identityBroken := rfl
@[simp] theorem State.count_speLast (s : State) (off k : Nat) : (s.count off k).speLast = s.speLast := rfl
@[simp] theorem State.count_staging (s : State) (off k : Nat) : (s.count off k).staging = s.staging := rfl
@[simp] theorem State.count_requests (s : State) (off k : Nat) : (s.count off k).requests = s.requests := rfl
@[simp] theorem State.count_nextTxn (s : State) (off k : Nat) : (s.count off k).nextTxn = s.nextTxn := rfl
@[simp] theorem State.count_ports (s : State) (off k : Nat) : (s.count off k).ports = s.ports := rfl
@[simp] theorem State.count_time (s : State) (off k : Nat) : (s.count off k).time = s.time := rfl
@[simp] theorem State.count_cfg (s : State) (off k : Nat) : (s.count off k).cfg = s.cfg := rfl
@[simp] theorem State.count_pregs (s : State) (off k : Nat) : (s.count off k).pregs = s.pregs := rfl
@[simp] theorem State.count_power (s : State) (off k : Nat) : (s.count off k).power = s.power := rfl
@[simp] theorem State.count_collim (s : State) (off k : Nat) : (s.count off k).collim = s.collim := rfl
@[simp] theorem State.count_uarid (s : State) (off k : Nat) : (s.count off k).uarid = s.uarid := rfl
@[simp] theorem State.count_module (s : State) (off k : Nat) : (s.count off k).module = s.module := rfl
@[simp] theorem State.count_hostRead (s : State) (off k : Nat) : (s.count off k).hostRead = s.hostRead := rfl
@[simp] theorem State.count_out (s : State) (off k : Nat) : (s.count off k).out = s.out := rfl

@[simp] theorem State.setCore_pending (s : State) (c : Nat) (k : Core) : (s.setCore c k).pending = s.pending := rfl
@[simp] theorem State.setCore_held (s : State) (c : Nat) (k : Core) : (s.setCore c k).held = s.held := rfl
@[simp] theorem State.setCore_ticks (s : State) (c : Nat) (k : Core) : (s.setCore c k).ticks = s.ticks := rfl
@[simp] theorem State.setCore_freeCount (s : State) (c : Nat) (k : Core) : (s.setCore c k).freeCount = s.freeCount := rfl
@[simp] theorem State.setCore_regs (s : State) (c : Nat) (k : Core) : (s.setCore c k).regs = s.regs := rfl
@[simp] theorem State.setCore_latches (s : State) (c : Nat) (k : Core) : (s.setCore c k).latches = s.latches := rfl
@[simp] theorem State.setCore_jobs (s : State) (c : Nat) (k : Core) : (s.setCore c k).jobs = s.jobs := rfl
@[simp] theorem State.setCore_lastJob (s : State) (c : Nat) (k : Core) : (s.setCore c k).lastJob = s.lastJob := rfl
@[simp] theorem State.setCore_lastRing (s : State) (c : Nat) (k : Core) : (s.setCore c k).lastRing = s.lastRing := rfl
@[simp] theorem State.setCore_rings (s : State) (c : Nat) (k : Core) : (s.setCore c k).rings = s.rings := rfl
@[simp] theorem State.setCore_eq (s : State) (c : Nat) (k : Core) : (s.setCore c k).eq = s.eq := rfl
@[simp] theorem State.setCore_vectors (s : State) (c : Nat) (k : Core) : (s.setCore c k).vectors = s.vectors := rfl
@[simp] theorem State.setCore_shared (s : State) (c : Nat) (k : Core) : (s.setCore c k).shared = s.shared := rfl
@[simp] theorem State.setCore_sharedEcc (s : State) (c : Nat) (k : Core) : (s.setCore c k).sharedEcc = s.sharedEcc := rfl
@[simp] theorem State.setCore_banks (s : State) (c : Nat) (k : Core) : (s.setCore c k).banks = s.banks := rfl
@[simp] theorem State.setCore_bankIdle (s : State) (c : Nat) (k : Core) : (s.setCore c k).bankIdle = s.bankIdle := rfl
@[simp] theorem State.setCore_stacked (s : State) (c : Nat) (k : Core) : (s.setCore c k).stacked = s.stacked := rfl
@[simp] theorem State.setCore_stackedEcc (s : State) (c : Nat) (k : Core) : (s.setCore c k).stackedEcc = s.stackedEcc := rfl
@[simp] theorem State.setCore_tlb (s : State) (c : Nat) (k : Core) : (s.setCore c k).tlb = s.tlb := rfl
@[simp] theorem State.setCore_pageReqs (s : State) (c : Nat) (k : Core) : (s.setCore c k).pageReqs = s.pageReqs := rfl
@[simp] theorem State.setCore_host (s : State) (c : Nat) (k : Core) : (s.setCore c k).host = s.host := rfl
@[simp] theorem State.setCore_hostPages (s : State) (c : Nat) (k : Core) : (s.setCore c k).hostPages = s.hostPages := rfl
@[simp] theorem State.setCore_windows (s : State) (c : Nat) (k : Core) : (s.setCore c k).windows = s.windows := rfl
@[simp] theorem State.setCore_sync (s : State) (c : Nat) (k : Core) : (s.setCore c k).sync = s.sync := rfl
@[simp] theorem State.setCore_expo (s : State) (c : Nat) (k : Core) : (s.setCore c k).expo = s.expo := rfl
@[simp] theorem State.setCore_identities (s : State) (c : Nat) (k : Core) : (s.setCore c k).identities = s.identities := rfl
@[simp] theorem State.setCore_identityBroken (s : State) (c : Nat) (k : Core) : (s.setCore c k).identityBroken = s.identityBroken := rfl
@[simp] theorem State.setCore_speLast (s : State) (c : Nat) (k : Core) : (s.setCore c k).speLast = s.speLast := rfl
@[simp] theorem State.setCore_staging (s : State) (c : Nat) (k : Core) : (s.setCore c k).staging = s.staging := rfl
@[simp] theorem State.setCore_requests (s : State) (c : Nat) (k : Core) : (s.setCore c k).requests = s.requests := rfl
@[simp] theorem State.setCore_nextTxn (s : State) (c : Nat) (k : Core) : (s.setCore c k).nextTxn = s.nextTxn := rfl
@[simp] theorem State.setCore_ports (s : State) (c : Nat) (k : Core) : (s.setCore c k).ports = s.ports := rfl
@[simp] theorem State.setCore_time (s : State) (c : Nat) (k : Core) : (s.setCore c k).time = s.time := rfl
@[simp] theorem State.setCore_cfg (s : State) (c : Nat) (k : Core) : (s.setCore c k).cfg = s.cfg := rfl
@[simp] theorem State.setCore_pregs (s : State) (c : Nat) (k : Core) : (s.setCore c k).pregs = s.pregs := rfl
@[simp] theorem State.setCore_power (s : State) (c : Nat) (k : Core) : (s.setCore c k).power = s.power := rfl
@[simp] theorem State.setCore_collim (s : State) (c : Nat) (k : Core) : (s.setCore c k).collim = s.collim := rfl
@[simp] theorem State.setCore_uarid (s : State) (c : Nat) (k : Core) : (s.setCore c k).uarid = s.uarid := rfl
@[simp] theorem State.setCore_module (s : State) (c : Nat) (k : Core) : (s.setCore c k).module = s.module := rfl
@[simp] theorem State.setCore_hostRead (s : State) (c : Nat) (k : Core) : (s.setCore c k).hostRead = s.hostRead := rfl
@[simp] theorem State.setCore_out (s : State) (c : Nat) (k : Core) : (s.setCore c k).out = s.out := rfl

@[simp] theorem State.modCore_pending (s : State) (c : Nat) (f : Core → Core) : (s.modCore c f).pending = s.pending := rfl
@[simp] theorem State.modCore_held (s : State) (c : Nat) (f : Core → Core) : (s.modCore c f).held = s.held := rfl
@[simp] theorem State.modCore_ticks (s : State) (c : Nat) (f : Core → Core) : (s.modCore c f).ticks = s.ticks := rfl
@[simp] theorem State.modCore_freeCount (s : State) (c : Nat) (f : Core → Core) : (s.modCore c f).freeCount = s.freeCount := rfl
@[simp] theorem State.modCore_regs (s : State) (c : Nat) (f : Core → Core) : (s.modCore c f).regs = s.regs := rfl
@[simp] theorem State.modCore_latches (s : State) (c : Nat) (f : Core → Core) : (s.modCore c f).latches = s.latches := rfl
@[simp] theorem State.modCore_jobs (s : State) (c : Nat) (f : Core → Core) : (s.modCore c f).jobs = s.jobs := rfl
@[simp] theorem State.modCore_lastJob (s : State) (c : Nat) (f : Core → Core) : (s.modCore c f).lastJob = s.lastJob := rfl
@[simp] theorem State.modCore_lastRing (s : State) (c : Nat) (f : Core → Core) : (s.modCore c f).lastRing = s.lastRing := rfl
@[simp] theorem State.modCore_rings (s : State) (c : Nat) (f : Core → Core) : (s.modCore c f).rings = s.rings := rfl
@[simp] theorem State.modCore_eq (s : State) (c : Nat) (f : Core → Core) : (s.modCore c f).eq = s.eq := rfl
@[simp] theorem State.modCore_vectors (s : State) (c : Nat) (f : Core → Core) : (s.modCore c f).vectors = s.vectors := rfl
@[simp] theorem State.modCore_shared (s : State) (c : Nat) (f : Core → Core) : (s.modCore c f).shared = s.shared := rfl
@[simp] theorem State.modCore_sharedEcc (s : State) (c : Nat) (f : Core → Core) : (s.modCore c f).sharedEcc = s.sharedEcc := rfl
@[simp] theorem State.modCore_banks (s : State) (c : Nat) (f : Core → Core) : (s.modCore c f).banks = s.banks := rfl
@[simp] theorem State.modCore_bankIdle (s : State) (c : Nat) (f : Core → Core) : (s.modCore c f).bankIdle = s.bankIdle := rfl
@[simp] theorem State.modCore_stacked (s : State) (c : Nat) (f : Core → Core) : (s.modCore c f).stacked = s.stacked := rfl
@[simp] theorem State.modCore_stackedEcc (s : State) (c : Nat) (f : Core → Core) : (s.modCore c f).stackedEcc = s.stackedEcc := rfl
@[simp] theorem State.modCore_tlb (s : State) (c : Nat) (f : Core → Core) : (s.modCore c f).tlb = s.tlb := rfl
@[simp] theorem State.modCore_pageReqs (s : State) (c : Nat) (f : Core → Core) : (s.modCore c f).pageReqs = s.pageReqs := rfl
@[simp] theorem State.modCore_host (s : State) (c : Nat) (f : Core → Core) : (s.modCore c f).host = s.host := rfl
@[simp] theorem State.modCore_hostPages (s : State) (c : Nat) (f : Core → Core) : (s.modCore c f).hostPages = s.hostPages := rfl
@[simp] theorem State.modCore_windows (s : State) (c : Nat) (f : Core → Core) : (s.modCore c f).windows = s.windows := rfl
@[simp] theorem State.modCore_sync (s : State) (c : Nat) (f : Core → Core) : (s.modCore c f).sync = s.sync := rfl
@[simp] theorem State.modCore_expo (s : State) (c : Nat) (f : Core → Core) : (s.modCore c f).expo = s.expo := rfl
@[simp] theorem State.modCore_identities (s : State) (c : Nat) (f : Core → Core) : (s.modCore c f).identities = s.identities := rfl
@[simp] theorem State.modCore_identityBroken (s : State) (c : Nat) (f : Core → Core) : (s.modCore c f).identityBroken = s.identityBroken := rfl
@[simp] theorem State.modCore_speLast (s : State) (c : Nat) (f : Core → Core) : (s.modCore c f).speLast = s.speLast := rfl
@[simp] theorem State.modCore_staging (s : State) (c : Nat) (f : Core → Core) : (s.modCore c f).staging = s.staging := rfl
@[simp] theorem State.modCore_requests (s : State) (c : Nat) (f : Core → Core) : (s.modCore c f).requests = s.requests := rfl
@[simp] theorem State.modCore_nextTxn (s : State) (c : Nat) (f : Core → Core) : (s.modCore c f).nextTxn = s.nextTxn := rfl
@[simp] theorem State.modCore_ports (s : State) (c : Nat) (f : Core → Core) : (s.modCore c f).ports = s.ports := rfl
@[simp] theorem State.modCore_time (s : State) (c : Nat) (f : Core → Core) : (s.modCore c f).time = s.time := rfl
@[simp] theorem State.modCore_cfg (s : State) (c : Nat) (f : Core → Core) : (s.modCore c f).cfg = s.cfg := rfl
@[simp] theorem State.modCore_pregs (s : State) (c : Nat) (f : Core → Core) : (s.modCore c f).pregs = s.pregs := rfl
@[simp] theorem State.modCore_power (s : State) (c : Nat) (f : Core → Core) : (s.modCore c f).power = s.power := rfl
@[simp] theorem State.modCore_collim (s : State) (c : Nat) (f : Core → Core) : (s.modCore c f).collim = s.collim := rfl
@[simp] theorem State.modCore_uarid (s : State) (c : Nat) (f : Core → Core) : (s.modCore c f).uarid = s.uarid := rfl
@[simp] theorem State.modCore_module (s : State) (c : Nat) (f : Core → Core) : (s.modCore c f).module = s.module := rfl
@[simp] theorem State.modCore_hostRead (s : State) (c : Nat) (f : Core → Core) : (s.modCore c f).hostRead = s.hostRead := rfl
@[simp] theorem State.modCore_out (s : State) (c : Nat) (f : Core → Core) : (s.modCore c f).out = s.out := rfl

@[simp] theorem State.modIssued_pending (s : State) (c seq : Nat) (f : Issued → Issued) : (s.modIssued c seq f).pending = s.pending := rfl
@[simp] theorem State.modIssued_held (s : State) (c seq : Nat) (f : Issued → Issued) : (s.modIssued c seq f).held = s.held := rfl
@[simp] theorem State.modIssued_ticks (s : State) (c seq : Nat) (f : Issued → Issued) : (s.modIssued c seq f).ticks = s.ticks := rfl
@[simp] theorem State.modIssued_freeCount (s : State) (c seq : Nat) (f : Issued → Issued) : (s.modIssued c seq f).freeCount = s.freeCount := rfl
@[simp] theorem State.modIssued_regs (s : State) (c seq : Nat) (f : Issued → Issued) : (s.modIssued c seq f).regs = s.regs := rfl
@[simp] theorem State.modIssued_latches (s : State) (c seq : Nat) (f : Issued → Issued) : (s.modIssued c seq f).latches = s.latches := rfl
@[simp] theorem State.modIssued_jobs (s : State) (c seq : Nat) (f : Issued → Issued) : (s.modIssued c seq f).jobs = s.jobs := rfl
@[simp] theorem State.modIssued_lastJob (s : State) (c seq : Nat) (f : Issued → Issued) : (s.modIssued c seq f).lastJob = s.lastJob := rfl
@[simp] theorem State.modIssued_lastRing (s : State) (c seq : Nat) (f : Issued → Issued) : (s.modIssued c seq f).lastRing = s.lastRing := rfl
@[simp] theorem State.modIssued_rings (s : State) (c seq : Nat) (f : Issued → Issued) : (s.modIssued c seq f).rings = s.rings := rfl
@[simp] theorem State.modIssued_eq (s : State) (c seq : Nat) (f : Issued → Issued) : (s.modIssued c seq f).eq = s.eq := rfl
@[simp] theorem State.modIssued_vectors (s : State) (c seq : Nat) (f : Issued → Issued) : (s.modIssued c seq f).vectors = s.vectors := rfl
@[simp] theorem State.modIssued_shared (s : State) (c seq : Nat) (f : Issued → Issued) : (s.modIssued c seq f).shared = s.shared := rfl
@[simp] theorem State.modIssued_sharedEcc (s : State) (c seq : Nat) (f : Issued → Issued) : (s.modIssued c seq f).sharedEcc = s.sharedEcc := rfl
@[simp] theorem State.modIssued_banks (s : State) (c seq : Nat) (f : Issued → Issued) : (s.modIssued c seq f).banks = s.banks := rfl
@[simp] theorem State.modIssued_bankIdle (s : State) (c seq : Nat) (f : Issued → Issued) : (s.modIssued c seq f).bankIdle = s.bankIdle := rfl
@[simp] theorem State.modIssued_stacked (s : State) (c seq : Nat) (f : Issued → Issued) : (s.modIssued c seq f).stacked = s.stacked := rfl
@[simp] theorem State.modIssued_stackedEcc (s : State) (c seq : Nat) (f : Issued → Issued) : (s.modIssued c seq f).stackedEcc = s.stackedEcc := rfl
@[simp] theorem State.modIssued_tlb (s : State) (c seq : Nat) (f : Issued → Issued) : (s.modIssued c seq f).tlb = s.tlb := rfl
@[simp] theorem State.modIssued_pageReqs (s : State) (c seq : Nat) (f : Issued → Issued) : (s.modIssued c seq f).pageReqs = s.pageReqs := rfl
@[simp] theorem State.modIssued_host (s : State) (c seq : Nat) (f : Issued → Issued) : (s.modIssued c seq f).host = s.host := rfl
@[simp] theorem State.modIssued_hostPages (s : State) (c seq : Nat) (f : Issued → Issued) : (s.modIssued c seq f).hostPages = s.hostPages := rfl
@[simp] theorem State.modIssued_windows (s : State) (c seq : Nat) (f : Issued → Issued) : (s.modIssued c seq f).windows = s.windows := rfl
@[simp] theorem State.modIssued_sync (s : State) (c seq : Nat) (f : Issued → Issued) : (s.modIssued c seq f).sync = s.sync := rfl
@[simp] theorem State.modIssued_expo (s : State) (c seq : Nat) (f : Issued → Issued) : (s.modIssued c seq f).expo = s.expo := rfl
@[simp] theorem State.modIssued_identities (s : State) (c seq : Nat) (f : Issued → Issued) : (s.modIssued c seq f).identities = s.identities := rfl
@[simp] theorem State.modIssued_identityBroken (s : State) (c seq : Nat) (f : Issued → Issued) : (s.modIssued c seq f).identityBroken = s.identityBroken := rfl
@[simp] theorem State.modIssued_speLast (s : State) (c seq : Nat) (f : Issued → Issued) : (s.modIssued c seq f).speLast = s.speLast := rfl
@[simp] theorem State.modIssued_staging (s : State) (c seq : Nat) (f : Issued → Issued) : (s.modIssued c seq f).staging = s.staging := rfl
@[simp] theorem State.modIssued_requests (s : State) (c seq : Nat) (f : Issued → Issued) : (s.modIssued c seq f).requests = s.requests := rfl
@[simp] theorem State.modIssued_nextTxn (s : State) (c seq : Nat) (f : Issued → Issued) : (s.modIssued c seq f).nextTxn = s.nextTxn := rfl
@[simp] theorem State.modIssued_ports (s : State) (c seq : Nat) (f : Issued → Issued) : (s.modIssued c seq f).ports = s.ports := rfl
@[simp] theorem State.modIssued_time (s : State) (c seq : Nat) (f : Issued → Issued) : (s.modIssued c seq f).time = s.time := rfl
@[simp] theorem State.modIssued_cfg (s : State) (c seq : Nat) (f : Issued → Issued) : (s.modIssued c seq f).cfg = s.cfg := rfl
@[simp] theorem State.modIssued_pregs (s : State) (c seq : Nat) (f : Issued → Issued) : (s.modIssued c seq f).pregs = s.pregs := rfl
@[simp] theorem State.modIssued_power (s : State) (c seq : Nat) (f : Issued → Issued) : (s.modIssued c seq f).power = s.power := rfl
@[simp] theorem State.modIssued_collim (s : State) (c seq : Nat) (f : Issued → Issued) : (s.modIssued c seq f).collim = s.collim := rfl
@[simp] theorem State.modIssued_uarid (s : State) (c seq : Nat) (f : Issued → Issued) : (s.modIssued c seq f).uarid = s.uarid := rfl
@[simp] theorem State.modIssued_module (s : State) (c seq : Nat) (f : Issued → Issued) : (s.modIssued c seq f).module = s.module := rfl
@[simp] theorem State.modIssued_hostRead (s : State) (c seq : Nat) (f : Issued → Issued) : (s.modIssued c seq f).hostRead = s.hostRead := rfl
@[simp] theorem State.modIssued_out (s : State) (c seq : Nat) (f : Issued → Issued) : (s.modIssued c seq f).out = s.out := rfl

@[simp] theorem State.setFull_pending (s : State) (c n : Nat) (b : Bool) : (s.setFull c n b).pending = s.pending := rfl
@[simp] theorem State.setFull_held (s : State) (c n : Nat) (b : Bool) : (s.setFull c n b).held = s.held := rfl
@[simp] theorem State.setFull_ticks (s : State) (c n : Nat) (b : Bool) : (s.setFull c n b).ticks = s.ticks := rfl
@[simp] theorem State.setFull_freeCount (s : State) (c n : Nat) (b : Bool) : (s.setFull c n b).freeCount = s.freeCount := rfl
@[simp] theorem State.setFull_regs (s : State) (c n : Nat) (b : Bool) : (s.setFull c n b).regs = s.regs := rfl
@[simp] theorem State.setFull_latches (s : State) (c n : Nat) (b : Bool) : (s.setFull c n b).latches = s.latches := rfl
@[simp] theorem State.setFull_jobs (s : State) (c n : Nat) (b : Bool) : (s.setFull c n b).jobs = s.jobs := rfl
@[simp] theorem State.setFull_lastJob (s : State) (c n : Nat) (b : Bool) : (s.setFull c n b).lastJob = s.lastJob := rfl
@[simp] theorem State.setFull_lastRing (s : State) (c n : Nat) (b : Bool) : (s.setFull c n b).lastRing = s.lastRing := rfl
@[simp] theorem State.setFull_rings (s : State) (c n : Nat) (b : Bool) : (s.setFull c n b).rings = s.rings := rfl
@[simp] theorem State.setFull_eq (s : State) (c n : Nat) (b : Bool) : (s.setFull c n b).eq = s.eq := rfl
@[simp] theorem State.setFull_vectors (s : State) (c n : Nat) (b : Bool) : (s.setFull c n b).vectors = s.vectors := rfl
@[simp] theorem State.setFull_shared (s : State) (c n : Nat) (b : Bool) : (s.setFull c n b).shared = s.shared := rfl
@[simp] theorem State.setFull_sharedEcc (s : State) (c n : Nat) (b : Bool) : (s.setFull c n b).sharedEcc = s.sharedEcc := rfl
@[simp] theorem State.setFull_banks (s : State) (c n : Nat) (b : Bool) : (s.setFull c n b).banks = s.banks := rfl
@[simp] theorem State.setFull_bankIdle (s : State) (c n : Nat) (b : Bool) : (s.setFull c n b).bankIdle = s.bankIdle := rfl
@[simp] theorem State.setFull_stacked (s : State) (c n : Nat) (b : Bool) : (s.setFull c n b).stacked = s.stacked := rfl
@[simp] theorem State.setFull_stackedEcc (s : State) (c n : Nat) (b : Bool) : (s.setFull c n b).stackedEcc = s.stackedEcc := rfl
@[simp] theorem State.setFull_tlb (s : State) (c n : Nat) (b : Bool) : (s.setFull c n b).tlb = s.tlb := rfl
@[simp] theorem State.setFull_pageReqs (s : State) (c n : Nat) (b : Bool) : (s.setFull c n b).pageReqs = s.pageReqs := rfl
@[simp] theorem State.setFull_host (s : State) (c n : Nat) (b : Bool) : (s.setFull c n b).host = s.host := rfl
@[simp] theorem State.setFull_hostPages (s : State) (c n : Nat) (b : Bool) : (s.setFull c n b).hostPages = s.hostPages := rfl
@[simp] theorem State.setFull_windows (s : State) (c n : Nat) (b : Bool) : (s.setFull c n b).windows = s.windows := rfl
@[simp] theorem State.setFull_sync (s : State) (c n : Nat) (b : Bool) : (s.setFull c n b).sync = s.sync := rfl
@[simp] theorem State.setFull_expo (s : State) (c n : Nat) (b : Bool) : (s.setFull c n b).expo = s.expo := rfl
@[simp] theorem State.setFull_identities (s : State) (c n : Nat) (b : Bool) : (s.setFull c n b).identities = s.identities := rfl
@[simp] theorem State.setFull_identityBroken (s : State) (c n : Nat) (b : Bool) : (s.setFull c n b).identityBroken = s.identityBroken := rfl
@[simp] theorem State.setFull_speLast (s : State) (c n : Nat) (b : Bool) : (s.setFull c n b).speLast = s.speLast := rfl
@[simp] theorem State.setFull_staging (s : State) (c n : Nat) (b : Bool) : (s.setFull c n b).staging = s.staging := rfl
@[simp] theorem State.setFull_requests (s : State) (c n : Nat) (b : Bool) : (s.setFull c n b).requests = s.requests := rfl
@[simp] theorem State.setFull_nextTxn (s : State) (c n : Nat) (b : Bool) : (s.setFull c n b).nextTxn = s.nextTxn := rfl
@[simp] theorem State.setFull_ports (s : State) (c n : Nat) (b : Bool) : (s.setFull c n b).ports = s.ports := rfl
@[simp] theorem State.setFull_time (s : State) (c n : Nat) (b : Bool) : (s.setFull c n b).time = s.time := rfl
@[simp] theorem State.setFull_cfg (s : State) (c n : Nat) (b : Bool) : (s.setFull c n b).cfg = s.cfg := rfl
@[simp] theorem State.setFull_pregs (s : State) (c n : Nat) (b : Bool) : (s.setFull c n b).pregs = s.pregs := rfl
@[simp] theorem State.setFull_power (s : State) (c n : Nat) (b : Bool) : (s.setFull c n b).power = s.power := rfl
@[simp] theorem State.setFull_collim (s : State) (c n : Nat) (b : Bool) : (s.setFull c n b).collim = s.collim := rfl
@[simp] theorem State.setFull_uarid (s : State) (c n : Nat) (b : Bool) : (s.setFull c n b).uarid = s.uarid := rfl
@[simp] theorem State.setFull_module (s : State) (c n : Nat) (b : Bool) : (s.setFull c n b).module = s.module := rfl
@[simp] theorem State.setFull_hostRead (s : State) (c n : Nat) (b : Bool) : (s.setFull c n b).hostRead = s.hostRead := rfl
@[simp] theorem State.setFull_out (s : State) (c n : Nat) (b : Bool) : (s.setFull c n b).out = s.out := rfl

@[simp] theorem State.modFacet_pending (s : State) (c n : Nat) (f : Facet → Facet) : (s.modFacet c n f).pending = s.pending := rfl
@[simp] theorem State.modFacet_held (s : State) (c n : Nat) (f : Facet → Facet) : (s.modFacet c n f).held = s.held := rfl
@[simp] theorem State.modFacet_ticks (s : State) (c n : Nat) (f : Facet → Facet) : (s.modFacet c n f).ticks = s.ticks := rfl
@[simp] theorem State.modFacet_freeCount (s : State) (c n : Nat) (f : Facet → Facet) : (s.modFacet c n f).freeCount = s.freeCount := rfl
@[simp] theorem State.modFacet_regs (s : State) (c n : Nat) (f : Facet → Facet) : (s.modFacet c n f).regs = s.regs := rfl
@[simp] theorem State.modFacet_latches (s : State) (c n : Nat) (f : Facet → Facet) : (s.modFacet c n f).latches = s.latches := rfl
@[simp] theorem State.modFacet_jobs (s : State) (c n : Nat) (f : Facet → Facet) : (s.modFacet c n f).jobs = s.jobs := rfl
@[simp] theorem State.modFacet_lastJob (s : State) (c n : Nat) (f : Facet → Facet) : (s.modFacet c n f).lastJob = s.lastJob := rfl
@[simp] theorem State.modFacet_lastRing (s : State) (c n : Nat) (f : Facet → Facet) : (s.modFacet c n f).lastRing = s.lastRing := rfl
@[simp] theorem State.modFacet_rings (s : State) (c n : Nat) (f : Facet → Facet) : (s.modFacet c n f).rings = s.rings := rfl
@[simp] theorem State.modFacet_eq (s : State) (c n : Nat) (f : Facet → Facet) : (s.modFacet c n f).eq = s.eq := rfl
@[simp] theorem State.modFacet_vectors (s : State) (c n : Nat) (f : Facet → Facet) : (s.modFacet c n f).vectors = s.vectors := rfl
@[simp] theorem State.modFacet_shared (s : State) (c n : Nat) (f : Facet → Facet) : (s.modFacet c n f).shared = s.shared := rfl
@[simp] theorem State.modFacet_sharedEcc (s : State) (c n : Nat) (f : Facet → Facet) : (s.modFacet c n f).sharedEcc = s.sharedEcc := rfl
@[simp] theorem State.modFacet_banks (s : State) (c n : Nat) (f : Facet → Facet) : (s.modFacet c n f).banks = s.banks := rfl
@[simp] theorem State.modFacet_bankIdle (s : State) (c n : Nat) (f : Facet → Facet) : (s.modFacet c n f).bankIdle = s.bankIdle := rfl
@[simp] theorem State.modFacet_stacked (s : State) (c n : Nat) (f : Facet → Facet) : (s.modFacet c n f).stacked = s.stacked := rfl
@[simp] theorem State.modFacet_stackedEcc (s : State) (c n : Nat) (f : Facet → Facet) : (s.modFacet c n f).stackedEcc = s.stackedEcc := rfl
@[simp] theorem State.modFacet_tlb (s : State) (c n : Nat) (f : Facet → Facet) : (s.modFacet c n f).tlb = s.tlb := rfl
@[simp] theorem State.modFacet_pageReqs (s : State) (c n : Nat) (f : Facet → Facet) : (s.modFacet c n f).pageReqs = s.pageReqs := rfl
@[simp] theorem State.modFacet_host (s : State) (c n : Nat) (f : Facet → Facet) : (s.modFacet c n f).host = s.host := rfl
@[simp] theorem State.modFacet_hostPages (s : State) (c n : Nat) (f : Facet → Facet) : (s.modFacet c n f).hostPages = s.hostPages := rfl
@[simp] theorem State.modFacet_windows (s : State) (c n : Nat) (f : Facet → Facet) : (s.modFacet c n f).windows = s.windows := rfl
@[simp] theorem State.modFacet_sync (s : State) (c n : Nat) (f : Facet → Facet) : (s.modFacet c n f).sync = s.sync := rfl
@[simp] theorem State.modFacet_expo (s : State) (c n : Nat) (f : Facet → Facet) : (s.modFacet c n f).expo = s.expo := rfl
@[simp] theorem State.modFacet_identities (s : State) (c n : Nat) (f : Facet → Facet) : (s.modFacet c n f).identities = s.identities := rfl
@[simp] theorem State.modFacet_identityBroken (s : State) (c n : Nat) (f : Facet → Facet) : (s.modFacet c n f).identityBroken = s.identityBroken := rfl
@[simp] theorem State.modFacet_speLast (s : State) (c n : Nat) (f : Facet → Facet) : (s.modFacet c n f).speLast = s.speLast := rfl
@[simp] theorem State.modFacet_staging (s : State) (c n : Nat) (f : Facet → Facet) : (s.modFacet c n f).staging = s.staging := rfl
@[simp] theorem State.modFacet_requests (s : State) (c n : Nat) (f : Facet → Facet) : (s.modFacet c n f).requests = s.requests := rfl
@[simp] theorem State.modFacet_nextTxn (s : State) (c n : Nat) (f : Facet → Facet) : (s.modFacet c n f).nextTxn = s.nextTxn := rfl
@[simp] theorem State.modFacet_ports (s : State) (c n : Nat) (f : Facet → Facet) : (s.modFacet c n f).ports = s.ports := rfl
@[simp] theorem State.modFacet_time (s : State) (c n : Nat) (f : Facet → Facet) : (s.modFacet c n f).time = s.time := rfl
@[simp] theorem State.modFacet_cfg (s : State) (c n : Nat) (f : Facet → Facet) : (s.modFacet c n f).cfg = s.cfg := rfl
@[simp] theorem State.modFacet_pregs (s : State) (c n : Nat) (f : Facet → Facet) : (s.modFacet c n f).pregs = s.pregs := rfl
@[simp] theorem State.modFacet_power (s : State) (c n : Nat) (f : Facet → Facet) : (s.modFacet c n f).power = s.power := rfl
@[simp] theorem State.modFacet_collim (s : State) (c n : Nat) (f : Facet → Facet) : (s.modFacet c n f).collim = s.collim := rfl
@[simp] theorem State.modFacet_uarid (s : State) (c n : Nat) (f : Facet → Facet) : (s.modFacet c n f).uarid = s.uarid := rfl
@[simp] theorem State.modFacet_module (s : State) (c n : Nat) (f : Facet → Facet) : (s.modFacet c n f).module = s.module := rfl
@[simp] theorem State.modFacet_hostRead (s : State) (c n : Nat) (f : Facet → Facet) : (s.modFacet c n f).hostRead = s.hostRead := rfl
@[simp] theorem State.modFacet_out (s : State) (c n : Nat) (f : Facet → Facet) : (s.modFacet c n f).out = s.out := rfl

@[simp] theorem State.setRing_pending (s : State) (n : Nat) (r : Ring) : (s.setRing n r).pending = s.pending := rfl
@[simp] theorem State.setRing_held (s : State) (n : Nat) (r : Ring) : (s.setRing n r).held = s.held := rfl
@[simp] theorem State.setRing_ticks (s : State) (n : Nat) (r : Ring) : (s.setRing n r).ticks = s.ticks := rfl
@[simp] theorem State.setRing_freeCount (s : State) (n : Nat) (r : Ring) : (s.setRing n r).freeCount = s.freeCount := rfl
@[simp] theorem State.setRing_regs (s : State) (n : Nat) (r : Ring) : (s.setRing n r).regs = s.regs := rfl
@[simp] theorem State.setRing_latches (s : State) (n : Nat) (r : Ring) : (s.setRing n r).latches = s.latches := rfl
@[simp] theorem State.setRing_cores (s : State) (n : Nat) (r : Ring) : (s.setRing n r).cores = s.cores := rfl
@[simp] theorem State.setRing_jobs (s : State) (n : Nat) (r : Ring) : (s.setRing n r).jobs = s.jobs := rfl
@[simp] theorem State.setRing_lastJob (s : State) (n : Nat) (r : Ring) : (s.setRing n r).lastJob = s.lastJob := rfl
@[simp] theorem State.setRing_lastRing (s : State) (n : Nat) (r : Ring) : (s.setRing n r).lastRing = s.lastRing := rfl
@[simp] theorem State.setRing_eq (s : State) (n : Nat) (r : Ring) : (s.setRing n r).eq = s.eq := rfl
@[simp] theorem State.setRing_vectors (s : State) (n : Nat) (r : Ring) : (s.setRing n r).vectors = s.vectors := rfl
@[simp] theorem State.setRing_shared (s : State) (n : Nat) (r : Ring) : (s.setRing n r).shared = s.shared := rfl
@[simp] theorem State.setRing_sharedEcc (s : State) (n : Nat) (r : Ring) : (s.setRing n r).sharedEcc = s.sharedEcc := rfl
@[simp] theorem State.setRing_banks (s : State) (n : Nat) (r : Ring) : (s.setRing n r).banks = s.banks := rfl
@[simp] theorem State.setRing_bankIdle (s : State) (n : Nat) (r : Ring) : (s.setRing n r).bankIdle = s.bankIdle := rfl
@[simp] theorem State.setRing_stacked (s : State) (n : Nat) (r : Ring) : (s.setRing n r).stacked = s.stacked := rfl
@[simp] theorem State.setRing_stackedEcc (s : State) (n : Nat) (r : Ring) : (s.setRing n r).stackedEcc = s.stackedEcc := rfl
@[simp] theorem State.setRing_tlb (s : State) (n : Nat) (r : Ring) : (s.setRing n r).tlb = s.tlb := rfl
@[simp] theorem State.setRing_pageReqs (s : State) (n : Nat) (r : Ring) : (s.setRing n r).pageReqs = s.pageReqs := rfl
@[simp] theorem State.setRing_host (s : State) (n : Nat) (r : Ring) : (s.setRing n r).host = s.host := rfl
@[simp] theorem State.setRing_hostPages (s : State) (n : Nat) (r : Ring) : (s.setRing n r).hostPages = s.hostPages := rfl
@[simp] theorem State.setRing_windows (s : State) (n : Nat) (r : Ring) : (s.setRing n r).windows = s.windows := rfl
@[simp] theorem State.setRing_sync (s : State) (n : Nat) (r : Ring) : (s.setRing n r).sync = s.sync := rfl
@[simp] theorem State.setRing_expo (s : State) (n : Nat) (r : Ring) : (s.setRing n r).expo = s.expo := rfl
@[simp] theorem State.setRing_identities (s : State) (n : Nat) (r : Ring) : (s.setRing n r).identities = s.identities := rfl
@[simp] theorem State.setRing_identityBroken (s : State) (n : Nat) (r : Ring) : (s.setRing n r).identityBroken = s.identityBroken := rfl
@[simp] theorem State.setRing_speLast (s : State) (n : Nat) (r : Ring) : (s.setRing n r).speLast = s.speLast := rfl
@[simp] theorem State.setRing_staging (s : State) (n : Nat) (r : Ring) : (s.setRing n r).staging = s.staging := rfl
@[simp] theorem State.setRing_requests (s : State) (n : Nat) (r : Ring) : (s.setRing n r).requests = s.requests := rfl
@[simp] theorem State.setRing_nextTxn (s : State) (n : Nat) (r : Ring) : (s.setRing n r).nextTxn = s.nextTxn := rfl
@[simp] theorem State.setRing_ports (s : State) (n : Nat) (r : Ring) : (s.setRing n r).ports = s.ports := rfl
@[simp] theorem State.setRing_time (s : State) (n : Nat) (r : Ring) : (s.setRing n r).time = s.time := rfl
@[simp] theorem State.setRing_cfg (s : State) (n : Nat) (r : Ring) : (s.setRing n r).cfg = s.cfg := rfl
@[simp] theorem State.setRing_pregs (s : State) (n : Nat) (r : Ring) : (s.setRing n r).pregs = s.pregs := rfl
@[simp] theorem State.setRing_power (s : State) (n : Nat) (r : Ring) : (s.setRing n r).power = s.power := rfl
@[simp] theorem State.setRing_collim (s : State) (n : Nat) (r : Ring) : (s.setRing n r).collim = s.collim := rfl
@[simp] theorem State.setRing_uarid (s : State) (n : Nat) (r : Ring) : (s.setRing n r).uarid = s.uarid := rfl
@[simp] theorem State.setRing_module (s : State) (n : Nat) (r : Ring) : (s.setRing n r).module = s.module := rfl
@[simp] theorem State.setRing_hostRead (s : State) (n : Nat) (r : Ring) : (s.setRing n r).hostRead = s.hostRead := rfl
@[simp] theorem State.setRing_out (s : State) (n : Nat) (r : Ring) : (s.setRing n r).out = s.out := rfl

@[simp] theorem State.setPort_pending (s : State) (p : Nat) (q : Port) : (s.setPort p q).pending = s.pending := rfl
@[simp] theorem State.setPort_held (s : State) (p : Nat) (q : Port) : (s.setPort p q).held = s.held := rfl
@[simp] theorem State.setPort_ticks (s : State) (p : Nat) (q : Port) : (s.setPort p q).ticks = s.ticks := rfl
@[simp] theorem State.setPort_freeCount (s : State) (p : Nat) (q : Port) : (s.setPort p q).freeCount = s.freeCount := rfl
@[simp] theorem State.setPort_regs (s : State) (p : Nat) (q : Port) : (s.setPort p q).regs = s.regs := rfl
@[simp] theorem State.setPort_latches (s : State) (p : Nat) (q : Port) : (s.setPort p q).latches = s.latches := rfl
@[simp] theorem State.setPort_cores (s : State) (p : Nat) (q : Port) : (s.setPort p q).cores = s.cores := rfl
@[simp] theorem State.setPort_jobs (s : State) (p : Nat) (q : Port) : (s.setPort p q).jobs = s.jobs := rfl
@[simp] theorem State.setPort_lastJob (s : State) (p : Nat) (q : Port) : (s.setPort p q).lastJob = s.lastJob := rfl
@[simp] theorem State.setPort_lastRing (s : State) (p : Nat) (q : Port) : (s.setPort p q).lastRing = s.lastRing := rfl
@[simp] theorem State.setPort_rings (s : State) (p : Nat) (q : Port) : (s.setPort p q).rings = s.rings := rfl
@[simp] theorem State.setPort_eq (s : State) (p : Nat) (q : Port) : (s.setPort p q).eq = s.eq := rfl
@[simp] theorem State.setPort_vectors (s : State) (p : Nat) (q : Port) : (s.setPort p q).vectors = s.vectors := rfl
@[simp] theorem State.setPort_shared (s : State) (p : Nat) (q : Port) : (s.setPort p q).shared = s.shared := rfl
@[simp] theorem State.setPort_sharedEcc (s : State) (p : Nat) (q : Port) : (s.setPort p q).sharedEcc = s.sharedEcc := rfl
@[simp] theorem State.setPort_banks (s : State) (p : Nat) (q : Port) : (s.setPort p q).banks = s.banks := rfl
@[simp] theorem State.setPort_bankIdle (s : State) (p : Nat) (q : Port) : (s.setPort p q).bankIdle = s.bankIdle := rfl
@[simp] theorem State.setPort_stacked (s : State) (p : Nat) (q : Port) : (s.setPort p q).stacked = s.stacked := rfl
@[simp] theorem State.setPort_stackedEcc (s : State) (p : Nat) (q : Port) : (s.setPort p q).stackedEcc = s.stackedEcc := rfl
@[simp] theorem State.setPort_tlb (s : State) (p : Nat) (q : Port) : (s.setPort p q).tlb = s.tlb := rfl
@[simp] theorem State.setPort_pageReqs (s : State) (p : Nat) (q : Port) : (s.setPort p q).pageReqs = s.pageReqs := rfl
@[simp] theorem State.setPort_host (s : State) (p : Nat) (q : Port) : (s.setPort p q).host = s.host := rfl
@[simp] theorem State.setPort_hostPages (s : State) (p : Nat) (q : Port) : (s.setPort p q).hostPages = s.hostPages := rfl
@[simp] theorem State.setPort_windows (s : State) (p : Nat) (q : Port) : (s.setPort p q).windows = s.windows := rfl
@[simp] theorem State.setPort_sync (s : State) (p : Nat) (q : Port) : (s.setPort p q).sync = s.sync := rfl
@[simp] theorem State.setPort_expo (s : State) (p : Nat) (q : Port) : (s.setPort p q).expo = s.expo := rfl
@[simp] theorem State.setPort_identities (s : State) (p : Nat) (q : Port) : (s.setPort p q).identities = s.identities := rfl
@[simp] theorem State.setPort_identityBroken (s : State) (p : Nat) (q : Port) : (s.setPort p q).identityBroken = s.identityBroken := rfl
@[simp] theorem State.setPort_speLast (s : State) (p : Nat) (q : Port) : (s.setPort p q).speLast = s.speLast := rfl
@[simp] theorem State.setPort_staging (s : State) (p : Nat) (q : Port) : (s.setPort p q).staging = s.staging := rfl
@[simp] theorem State.setPort_requests (s : State) (p : Nat) (q : Port) : (s.setPort p q).requests = s.requests := rfl
@[simp] theorem State.setPort_nextTxn (s : State) (p : Nat) (q : Port) : (s.setPort p q).nextTxn = s.nextTxn := rfl
@[simp] theorem State.setPort_time (s : State) (p : Nat) (q : Port) : (s.setPort p q).time = s.time := rfl
@[simp] theorem State.setPort_cfg (s : State) (p : Nat) (q : Port) : (s.setPort p q).cfg = s.cfg := rfl
@[simp] theorem State.setPort_pregs (s : State) (p : Nat) (q : Port) : (s.setPort p q).pregs = s.pregs := rfl
@[simp] theorem State.setPort_power (s : State) (p : Nat) (q : Port) : (s.setPort p q).power = s.power := rfl
@[simp] theorem State.setPort_collim (s : State) (p : Nat) (q : Port) : (s.setPort p q).collim = s.collim := rfl
@[simp] theorem State.setPort_uarid (s : State) (p : Nat) (q : Port) : (s.setPort p q).uarid = s.uarid := rfl
@[simp] theorem State.setPort_module (s : State) (p : Nat) (q : Port) : (s.setPort p q).module = s.module := rfl
@[simp] theorem State.setPort_hostRead (s : State) (p : Nat) (q : Port) : (s.setPort p q).hostRead = s.hostRead := rfl
@[simp] theorem State.setPort_out (s : State) (p : Nat) (q : Port) : (s.setPort p q).out = s.out := rfl

@[simp] theorem State.modPort_pending (s : State) (p : Nat) (f : Port → Port) : (s.modPort p f).pending = s.pending := rfl
@[simp] theorem State.modPort_held (s : State) (p : Nat) (f : Port → Port) : (s.modPort p f).held = s.held := rfl
@[simp] theorem State.modPort_ticks (s : State) (p : Nat) (f : Port → Port) : (s.modPort p f).ticks = s.ticks := rfl
@[simp] theorem State.modPort_freeCount (s : State) (p : Nat) (f : Port → Port) : (s.modPort p f).freeCount = s.freeCount := rfl
@[simp] theorem State.modPort_regs (s : State) (p : Nat) (f : Port → Port) : (s.modPort p f).regs = s.regs := rfl
@[simp] theorem State.modPort_latches (s : State) (p : Nat) (f : Port → Port) : (s.modPort p f).latches = s.latches := rfl
@[simp] theorem State.modPort_cores (s : State) (p : Nat) (f : Port → Port) : (s.modPort p f).cores = s.cores := rfl
@[simp] theorem State.modPort_jobs (s : State) (p : Nat) (f : Port → Port) : (s.modPort p f).jobs = s.jobs := rfl
@[simp] theorem State.modPort_lastJob (s : State) (p : Nat) (f : Port → Port) : (s.modPort p f).lastJob = s.lastJob := rfl
@[simp] theorem State.modPort_lastRing (s : State) (p : Nat) (f : Port → Port) : (s.modPort p f).lastRing = s.lastRing := rfl
@[simp] theorem State.modPort_rings (s : State) (p : Nat) (f : Port → Port) : (s.modPort p f).rings = s.rings := rfl
@[simp] theorem State.modPort_eq (s : State) (p : Nat) (f : Port → Port) : (s.modPort p f).eq = s.eq := rfl
@[simp] theorem State.modPort_vectors (s : State) (p : Nat) (f : Port → Port) : (s.modPort p f).vectors = s.vectors := rfl
@[simp] theorem State.modPort_shared (s : State) (p : Nat) (f : Port → Port) : (s.modPort p f).shared = s.shared := rfl
@[simp] theorem State.modPort_sharedEcc (s : State) (p : Nat) (f : Port → Port) : (s.modPort p f).sharedEcc = s.sharedEcc := rfl
@[simp] theorem State.modPort_banks (s : State) (p : Nat) (f : Port → Port) : (s.modPort p f).banks = s.banks := rfl
@[simp] theorem State.modPort_bankIdle (s : State) (p : Nat) (f : Port → Port) : (s.modPort p f).bankIdle = s.bankIdle := rfl
@[simp] theorem State.modPort_stacked (s : State) (p : Nat) (f : Port → Port) : (s.modPort p f).stacked = s.stacked := rfl
@[simp] theorem State.modPort_stackedEcc (s : State) (p : Nat) (f : Port → Port) : (s.modPort p f).stackedEcc = s.stackedEcc := rfl
@[simp] theorem State.modPort_tlb (s : State) (p : Nat) (f : Port → Port) : (s.modPort p f).tlb = s.tlb := rfl
@[simp] theorem State.modPort_pageReqs (s : State) (p : Nat) (f : Port → Port) : (s.modPort p f).pageReqs = s.pageReqs := rfl
@[simp] theorem State.modPort_host (s : State) (p : Nat) (f : Port → Port) : (s.modPort p f).host = s.host := rfl
@[simp] theorem State.modPort_hostPages (s : State) (p : Nat) (f : Port → Port) : (s.modPort p f).hostPages = s.hostPages := rfl
@[simp] theorem State.modPort_windows (s : State) (p : Nat) (f : Port → Port) : (s.modPort p f).windows = s.windows := rfl
@[simp] theorem State.modPort_sync (s : State) (p : Nat) (f : Port → Port) : (s.modPort p f).sync = s.sync := rfl
@[simp] theorem State.modPort_expo (s : State) (p : Nat) (f : Port → Port) : (s.modPort p f).expo = s.expo := rfl
@[simp] theorem State.modPort_identities (s : State) (p : Nat) (f : Port → Port) : (s.modPort p f).identities = s.identities := rfl
@[simp] theorem State.modPort_identityBroken (s : State) (p : Nat) (f : Port → Port) : (s.modPort p f).identityBroken = s.identityBroken := rfl
@[simp] theorem State.modPort_speLast (s : State) (p : Nat) (f : Port → Port) : (s.modPort p f).speLast = s.speLast := rfl
@[simp] theorem State.modPort_staging (s : State) (p : Nat) (f : Port → Port) : (s.modPort p f).staging = s.staging := rfl
@[simp] theorem State.modPort_requests (s : State) (p : Nat) (f : Port → Port) : (s.modPort p f).requests = s.requests := rfl
@[simp] theorem State.modPort_nextTxn (s : State) (p : Nat) (f : Port → Port) : (s.modPort p f).nextTxn = s.nextTxn := rfl
@[simp] theorem State.modPort_time (s : State) (p : Nat) (f : Port → Port) : (s.modPort p f).time = s.time := rfl
@[simp] theorem State.modPort_cfg (s : State) (p : Nat) (f : Port → Port) : (s.modPort p f).cfg = s.cfg := rfl
@[simp] theorem State.modPort_pregs (s : State) (p : Nat) (f : Port → Port) : (s.modPort p f).pregs = s.pregs := rfl
@[simp] theorem State.modPort_power (s : State) (p : Nat) (f : Port → Port) : (s.modPort p f).power = s.power := rfl
@[simp] theorem State.modPort_collim (s : State) (p : Nat) (f : Port → Port) : (s.modPort p f).collim = s.collim := rfl
@[simp] theorem State.modPort_uarid (s : State) (p : Nat) (f : Port → Port) : (s.modPort p f).uarid = s.uarid := rfl
@[simp] theorem State.modPort_module (s : State) (p : Nat) (f : Port → Port) : (s.modPort p f).module = s.module := rfl
@[simp] theorem State.modPort_hostRead (s : State) (p : Nat) (f : Port → Port) : (s.modPort p f).hostRead = s.hostRead := rfl
@[simp] theorem State.modPort_out (s : State) (p : Nat) (f : Port → Port) : (s.modPort p f).out = s.out := rfl

@[simp] theorem State.setVector_pending (s : State) (v : Nat) (x : Vector_) : (s.setVector v x).pending = s.pending := rfl
@[simp] theorem State.setVector_held (s : State) (v : Nat) (x : Vector_) : (s.setVector v x).held = s.held := rfl
@[simp] theorem State.setVector_ticks (s : State) (v : Nat) (x : Vector_) : (s.setVector v x).ticks = s.ticks := rfl
@[simp] theorem State.setVector_freeCount (s : State) (v : Nat) (x : Vector_) : (s.setVector v x).freeCount = s.freeCount := rfl
@[simp] theorem State.setVector_regs (s : State) (v : Nat) (x : Vector_) : (s.setVector v x).regs = s.regs := rfl
@[simp] theorem State.setVector_latches (s : State) (v : Nat) (x : Vector_) : (s.setVector v x).latches = s.latches := rfl
@[simp] theorem State.setVector_cores (s : State) (v : Nat) (x : Vector_) : (s.setVector v x).cores = s.cores := rfl
@[simp] theorem State.setVector_jobs (s : State) (v : Nat) (x : Vector_) : (s.setVector v x).jobs = s.jobs := rfl
@[simp] theorem State.setVector_lastJob (s : State) (v : Nat) (x : Vector_) : (s.setVector v x).lastJob = s.lastJob := rfl
@[simp] theorem State.setVector_lastRing (s : State) (v : Nat) (x : Vector_) : (s.setVector v x).lastRing = s.lastRing := rfl
@[simp] theorem State.setVector_rings (s : State) (v : Nat) (x : Vector_) : (s.setVector v x).rings = s.rings := rfl
@[simp] theorem State.setVector_eq (s : State) (v : Nat) (x : Vector_) : (s.setVector v x).eq = s.eq := rfl
@[simp] theorem State.setVector_shared (s : State) (v : Nat) (x : Vector_) : (s.setVector v x).shared = s.shared := rfl
@[simp] theorem State.setVector_sharedEcc (s : State) (v : Nat) (x : Vector_) : (s.setVector v x).sharedEcc = s.sharedEcc := rfl
@[simp] theorem State.setVector_banks (s : State) (v : Nat) (x : Vector_) : (s.setVector v x).banks = s.banks := rfl
@[simp] theorem State.setVector_bankIdle (s : State) (v : Nat) (x : Vector_) : (s.setVector v x).bankIdle = s.bankIdle := rfl
@[simp] theorem State.setVector_stacked (s : State) (v : Nat) (x : Vector_) : (s.setVector v x).stacked = s.stacked := rfl
@[simp] theorem State.setVector_stackedEcc (s : State) (v : Nat) (x : Vector_) : (s.setVector v x).stackedEcc = s.stackedEcc := rfl
@[simp] theorem State.setVector_tlb (s : State) (v : Nat) (x : Vector_) : (s.setVector v x).tlb = s.tlb := rfl
@[simp] theorem State.setVector_pageReqs (s : State) (v : Nat) (x : Vector_) : (s.setVector v x).pageReqs = s.pageReqs := rfl
@[simp] theorem State.setVector_host (s : State) (v : Nat) (x : Vector_) : (s.setVector v x).host = s.host := rfl
@[simp] theorem State.setVector_hostPages (s : State) (v : Nat) (x : Vector_) : (s.setVector v x).hostPages = s.hostPages := rfl
@[simp] theorem State.setVector_windows (s : State) (v : Nat) (x : Vector_) : (s.setVector v x).windows = s.windows := rfl
@[simp] theorem State.setVector_sync (s : State) (v : Nat) (x : Vector_) : (s.setVector v x).sync = s.sync := rfl
@[simp] theorem State.setVector_expo (s : State) (v : Nat) (x : Vector_) : (s.setVector v x).expo = s.expo := rfl
@[simp] theorem State.setVector_identities (s : State) (v : Nat) (x : Vector_) : (s.setVector v x).identities = s.identities := rfl
@[simp] theorem State.setVector_identityBroken (s : State) (v : Nat) (x : Vector_) : (s.setVector v x).identityBroken = s.identityBroken := rfl
@[simp] theorem State.setVector_speLast (s : State) (v : Nat) (x : Vector_) : (s.setVector v x).speLast = s.speLast := rfl
@[simp] theorem State.setVector_staging (s : State) (v : Nat) (x : Vector_) : (s.setVector v x).staging = s.staging := rfl
@[simp] theorem State.setVector_requests (s : State) (v : Nat) (x : Vector_) : (s.setVector v x).requests = s.requests := rfl
@[simp] theorem State.setVector_nextTxn (s : State) (v : Nat) (x : Vector_) : (s.setVector v x).nextTxn = s.nextTxn := rfl
@[simp] theorem State.setVector_ports (s : State) (v : Nat) (x : Vector_) : (s.setVector v x).ports = s.ports := rfl
@[simp] theorem State.setVector_time (s : State) (v : Nat) (x : Vector_) : (s.setVector v x).time = s.time := rfl
@[simp] theorem State.setVector_cfg (s : State) (v : Nat) (x : Vector_) : (s.setVector v x).cfg = s.cfg := rfl
@[simp] theorem State.setVector_pregs (s : State) (v : Nat) (x : Vector_) : (s.setVector v x).pregs = s.pregs := rfl
@[simp] theorem State.setVector_power (s : State) (v : Nat) (x : Vector_) : (s.setVector v x).power = s.power := rfl
@[simp] theorem State.setVector_collim (s : State) (v : Nat) (x : Vector_) : (s.setVector v x).collim = s.collim := rfl
@[simp] theorem State.setVector_uarid (s : State) (v : Nat) (x : Vector_) : (s.setVector v x).uarid = s.uarid := rfl
@[simp] theorem State.setVector_module (s : State) (v : Nat) (x : Vector_) : (s.setVector v x).module = s.module := rfl
@[simp] theorem State.setVector_hostRead (s : State) (v : Nat) (x : Vector_) : (s.setVector v x).hostRead = s.hostRead := rfl
@[simp] theorem State.setVector_out (s : State) (v : Nat) (x : Vector_) : (s.setVector v x).out = s.out := rfl

@[simp] theorem State.emit_pending (s : State) (o : Out) : (s.emit o).pending = s.pending := rfl
@[simp] theorem State.emit_held (s : State) (o : Out) : (s.emit o).held = s.held := rfl
@[simp] theorem State.emit_ticks (s : State) (o : Out) : (s.emit o).ticks = s.ticks := rfl
@[simp] theorem State.emit_freeCount (s : State) (o : Out) : (s.emit o).freeCount = s.freeCount := rfl
@[simp] theorem State.emit_regs (s : State) (o : Out) : (s.emit o).regs = s.regs := rfl
@[simp] theorem State.emit_latches (s : State) (o : Out) : (s.emit o).latches = s.latches := rfl
@[simp] theorem State.emit_cores (s : State) (o : Out) : (s.emit o).cores = s.cores := rfl
@[simp] theorem State.emit_jobs (s : State) (o : Out) : (s.emit o).jobs = s.jobs := rfl
@[simp] theorem State.emit_lastJob (s : State) (o : Out) : (s.emit o).lastJob = s.lastJob := rfl
@[simp] theorem State.emit_lastRing (s : State) (o : Out) : (s.emit o).lastRing = s.lastRing := rfl
@[simp] theorem State.emit_rings (s : State) (o : Out) : (s.emit o).rings = s.rings := rfl
@[simp] theorem State.emit_eq (s : State) (o : Out) : (s.emit o).eq = s.eq := rfl
@[simp] theorem State.emit_vectors (s : State) (o : Out) : (s.emit o).vectors = s.vectors := rfl
@[simp] theorem State.emit_shared (s : State) (o : Out) : (s.emit o).shared = s.shared := rfl
@[simp] theorem State.emit_sharedEcc (s : State) (o : Out) : (s.emit o).sharedEcc = s.sharedEcc := rfl
@[simp] theorem State.emit_banks (s : State) (o : Out) : (s.emit o).banks = s.banks := rfl
@[simp] theorem State.emit_bankIdle (s : State) (o : Out) : (s.emit o).bankIdle = s.bankIdle := rfl
@[simp] theorem State.emit_stacked (s : State) (o : Out) : (s.emit o).stacked = s.stacked := rfl
@[simp] theorem State.emit_stackedEcc (s : State) (o : Out) : (s.emit o).stackedEcc = s.stackedEcc := rfl
@[simp] theorem State.emit_tlb (s : State) (o : Out) : (s.emit o).tlb = s.tlb := rfl
@[simp] theorem State.emit_pageReqs (s : State) (o : Out) : (s.emit o).pageReqs = s.pageReqs := rfl
@[simp] theorem State.emit_host (s : State) (o : Out) : (s.emit o).host = s.host := rfl
@[simp] theorem State.emit_hostPages (s : State) (o : Out) : (s.emit o).hostPages = s.hostPages := rfl
@[simp] theorem State.emit_windows (s : State) (o : Out) : (s.emit o).windows = s.windows := rfl
@[simp] theorem State.emit_sync (s : State) (o : Out) : (s.emit o).sync = s.sync := rfl
@[simp] theorem State.emit_expo (s : State) (o : Out) : (s.emit o).expo = s.expo := rfl
@[simp] theorem State.emit_identities (s : State) (o : Out) : (s.emit o).identities = s.identities := rfl
@[simp] theorem State.emit_identityBroken (s : State) (o : Out) : (s.emit o).identityBroken = s.identityBroken := rfl
@[simp] theorem State.emit_speLast (s : State) (o : Out) : (s.emit o).speLast = s.speLast := rfl
@[simp] theorem State.emit_staging (s : State) (o : Out) : (s.emit o).staging = s.staging := rfl
@[simp] theorem State.emit_requests (s : State) (o : Out) : (s.emit o).requests = s.requests := rfl
@[simp] theorem State.emit_nextTxn (s : State) (o : Out) : (s.emit o).nextTxn = s.nextTxn := rfl
@[simp] theorem State.emit_ports (s : State) (o : Out) : (s.emit o).ports = s.ports := rfl
@[simp] theorem State.emit_time (s : State) (o : Out) : (s.emit o).time = s.time := rfl
@[simp] theorem State.emit_cfg (s : State) (o : Out) : (s.emit o).cfg = s.cfg := rfl
@[simp] theorem State.emit_pregs (s : State) (o : Out) : (s.emit o).pregs = s.pregs := rfl
@[simp] theorem State.emit_power (s : State) (o : Out) : (s.emit o).power = s.power := rfl
@[simp] theorem State.emit_collim (s : State) (o : Out) : (s.emit o).collim = s.collim := rfl
@[simp] theorem State.emit_uarid (s : State) (o : Out) : (s.emit o).uarid = s.uarid := rfl
@[simp] theorem State.emit_module (s : State) (o : Out) : (s.emit o).module = s.module := rfl
@[simp] theorem State.emit_hostRead (s : State) (o : Out) : (s.emit o).hostRead = s.hostRead := rfl

@[simp] theorem State.putHost_pending (s : State) (a : Nat) (bs : List Byte) : (s.putHost a bs).pending = s.pending := rfl
@[simp] theorem State.putHost_held (s : State) (a : Nat) (bs : List Byte) : (s.putHost a bs).held = s.held := rfl
@[simp] theorem State.putHost_ticks (s : State) (a : Nat) (bs : List Byte) : (s.putHost a bs).ticks = s.ticks := rfl
@[simp] theorem State.putHost_freeCount (s : State) (a : Nat) (bs : List Byte) : (s.putHost a bs).freeCount = s.freeCount := rfl
@[simp] theorem State.putHost_regs (s : State) (a : Nat) (bs : List Byte) : (s.putHost a bs).regs = s.regs := rfl
@[simp] theorem State.putHost_latches (s : State) (a : Nat) (bs : List Byte) : (s.putHost a bs).latches = s.latches := rfl
@[simp] theorem State.putHost_cores (s : State) (a : Nat) (bs : List Byte) : (s.putHost a bs).cores = s.cores := rfl
@[simp] theorem State.putHost_jobs (s : State) (a : Nat) (bs : List Byte) : (s.putHost a bs).jobs = s.jobs := rfl
@[simp] theorem State.putHost_lastJob (s : State) (a : Nat) (bs : List Byte) : (s.putHost a bs).lastJob = s.lastJob := rfl
@[simp] theorem State.putHost_lastRing (s : State) (a : Nat) (bs : List Byte) : (s.putHost a bs).lastRing = s.lastRing := rfl
@[simp] theorem State.putHost_rings (s : State) (a : Nat) (bs : List Byte) : (s.putHost a bs).rings = s.rings := rfl
@[simp] theorem State.putHost_eq (s : State) (a : Nat) (bs : List Byte) : (s.putHost a bs).eq = s.eq := rfl
@[simp] theorem State.putHost_vectors (s : State) (a : Nat) (bs : List Byte) : (s.putHost a bs).vectors = s.vectors := rfl
@[simp] theorem State.putHost_shared (s : State) (a : Nat) (bs : List Byte) : (s.putHost a bs).shared = s.shared := rfl
@[simp] theorem State.putHost_sharedEcc (s : State) (a : Nat) (bs : List Byte) : (s.putHost a bs).sharedEcc = s.sharedEcc := rfl
@[simp] theorem State.putHost_banks (s : State) (a : Nat) (bs : List Byte) : (s.putHost a bs).banks = s.banks := rfl
@[simp] theorem State.putHost_bankIdle (s : State) (a : Nat) (bs : List Byte) : (s.putHost a bs).bankIdle = s.bankIdle := rfl
@[simp] theorem State.putHost_stacked (s : State) (a : Nat) (bs : List Byte) : (s.putHost a bs).stacked = s.stacked := rfl
@[simp] theorem State.putHost_stackedEcc (s : State) (a : Nat) (bs : List Byte) : (s.putHost a bs).stackedEcc = s.stackedEcc := rfl
@[simp] theorem State.putHost_tlb (s : State) (a : Nat) (bs : List Byte) : (s.putHost a bs).tlb = s.tlb := rfl
@[simp] theorem State.putHost_pageReqs (s : State) (a : Nat) (bs : List Byte) : (s.putHost a bs).pageReqs = s.pageReqs := rfl
@[simp] theorem State.putHost_hostPages (s : State) (a : Nat) (bs : List Byte) : (s.putHost a bs).hostPages = s.hostPages := rfl
@[simp] theorem State.putHost_windows (s : State) (a : Nat) (bs : List Byte) : (s.putHost a bs).windows = s.windows := rfl
@[simp] theorem State.putHost_sync (s : State) (a : Nat) (bs : List Byte) : (s.putHost a bs).sync = s.sync := rfl
@[simp] theorem State.putHost_expo (s : State) (a : Nat) (bs : List Byte) : (s.putHost a bs).expo = s.expo := rfl
@[simp] theorem State.putHost_identities (s : State) (a : Nat) (bs : List Byte) : (s.putHost a bs).identities = s.identities := rfl
@[simp] theorem State.putHost_identityBroken (s : State) (a : Nat) (bs : List Byte) : (s.putHost a bs).identityBroken = s.identityBroken := rfl
@[simp] theorem State.putHost_speLast (s : State) (a : Nat) (bs : List Byte) : (s.putHost a bs).speLast = s.speLast := rfl
@[simp] theorem State.putHost_staging (s : State) (a : Nat) (bs : List Byte) : (s.putHost a bs).staging = s.staging := rfl
@[simp] theorem State.putHost_requests (s : State) (a : Nat) (bs : List Byte) : (s.putHost a bs).requests = s.requests := rfl
@[simp] theorem State.putHost_nextTxn (s : State) (a : Nat) (bs : List Byte) : (s.putHost a bs).nextTxn = s.nextTxn := rfl
@[simp] theorem State.putHost_ports (s : State) (a : Nat) (bs : List Byte) : (s.putHost a bs).ports = s.ports := rfl
@[simp] theorem State.putHost_time (s : State) (a : Nat) (bs : List Byte) : (s.putHost a bs).time = s.time := rfl
@[simp] theorem State.putHost_cfg (s : State) (a : Nat) (bs : List Byte) : (s.putHost a bs).cfg = s.cfg := rfl
@[simp] theorem State.putHost_pregs (s : State) (a : Nat) (bs : List Byte) : (s.putHost a bs).pregs = s.pregs := rfl
@[simp] theorem State.putHost_power (s : State) (a : Nat) (bs : List Byte) : (s.putHost a bs).power = s.power := rfl
@[simp] theorem State.putHost_collim (s : State) (a : Nat) (bs : List Byte) : (s.putHost a bs).collim = s.collim := rfl
@[simp] theorem State.putHost_uarid (s : State) (a : Nat) (bs : List Byte) : (s.putHost a bs).uarid = s.uarid := rfl
@[simp] theorem State.putHost_module (s : State) (a : Nat) (bs : List Byte) : (s.putHost a bs).module = s.module := rfl
@[simp] theorem State.putHost_hostRead (s : State) (a : Nat) (bs : List Byte) : (s.putHost a bs).hostRead = s.hostRead := rfl
@[simp] theorem State.putHost_out (s : State) (a : Nat) (bs : List Byte) : (s.putHost a bs).out = s.out := rfl

@[simp] theorem State.putJob_pending (s : State) (j : Job) : (s.putJob j).pending = s.pending := rfl
@[simp] theorem State.putJob_held (s : State) (j : Job) : (s.putJob j).held = s.held := rfl
@[simp] theorem State.putJob_ticks (s : State) (j : Job) : (s.putJob j).ticks = s.ticks := rfl
@[simp] theorem State.putJob_freeCount (s : State) (j : Job) : (s.putJob j).freeCount = s.freeCount := rfl
@[simp] theorem State.putJob_regs (s : State) (j : Job) : (s.putJob j).regs = s.regs := rfl
@[simp] theorem State.putJob_latches (s : State) (j : Job) : (s.putJob j).latches = s.latches := rfl
@[simp] theorem State.putJob_cores (s : State) (j : Job) : (s.putJob j).cores = s.cores := rfl
@[simp] theorem State.putJob_lastJob (s : State) (j : Job) : (s.putJob j).lastJob = s.lastJob := rfl
@[simp] theorem State.putJob_lastRing (s : State) (j : Job) : (s.putJob j).lastRing = s.lastRing := rfl
@[simp] theorem State.putJob_rings (s : State) (j : Job) : (s.putJob j).rings = s.rings := rfl
@[simp] theorem State.putJob_eq (s : State) (j : Job) : (s.putJob j).eq = s.eq := rfl
@[simp] theorem State.putJob_vectors (s : State) (j : Job) : (s.putJob j).vectors = s.vectors := rfl
@[simp] theorem State.putJob_shared (s : State) (j : Job) : (s.putJob j).shared = s.shared := rfl
@[simp] theorem State.putJob_sharedEcc (s : State) (j : Job) : (s.putJob j).sharedEcc = s.sharedEcc := rfl
@[simp] theorem State.putJob_banks (s : State) (j : Job) : (s.putJob j).banks = s.banks := rfl
@[simp] theorem State.putJob_bankIdle (s : State) (j : Job) : (s.putJob j).bankIdle = s.bankIdle := rfl
@[simp] theorem State.putJob_stacked (s : State) (j : Job) : (s.putJob j).stacked = s.stacked := rfl
@[simp] theorem State.putJob_stackedEcc (s : State) (j : Job) : (s.putJob j).stackedEcc = s.stackedEcc := rfl
@[simp] theorem State.putJob_tlb (s : State) (j : Job) : (s.putJob j).tlb = s.tlb := rfl
@[simp] theorem State.putJob_pageReqs (s : State) (j : Job) : (s.putJob j).pageReqs = s.pageReqs := rfl
@[simp] theorem State.putJob_host (s : State) (j : Job) : (s.putJob j).host = s.host := rfl
@[simp] theorem State.putJob_hostPages (s : State) (j : Job) : (s.putJob j).hostPages = s.hostPages := rfl
@[simp] theorem State.putJob_windows (s : State) (j : Job) : (s.putJob j).windows = s.windows := rfl
@[simp] theorem State.putJob_sync (s : State) (j : Job) : (s.putJob j).sync = s.sync := rfl
@[simp] theorem State.putJob_expo (s : State) (j : Job) : (s.putJob j).expo = s.expo := rfl
@[simp] theorem State.putJob_identities (s : State) (j : Job) : (s.putJob j).identities = s.identities := rfl
@[simp] theorem State.putJob_identityBroken (s : State) (j : Job) : (s.putJob j).identityBroken = s.identityBroken := rfl
@[simp] theorem State.putJob_speLast (s : State) (j : Job) : (s.putJob j).speLast = s.speLast := rfl
@[simp] theorem State.putJob_staging (s : State) (j : Job) : (s.putJob j).staging = s.staging := rfl
@[simp] theorem State.putJob_requests (s : State) (j : Job) : (s.putJob j).requests = s.requests := rfl
@[simp] theorem State.putJob_nextTxn (s : State) (j : Job) : (s.putJob j).nextTxn = s.nextTxn := rfl
@[simp] theorem State.putJob_ports (s : State) (j : Job) : (s.putJob j).ports = s.ports := rfl
@[simp] theorem State.putJob_time (s : State) (j : Job) : (s.putJob j).time = s.time := rfl
@[simp] theorem State.putJob_cfg (s : State) (j : Job) : (s.putJob j).cfg = s.cfg := rfl
@[simp] theorem State.putJob_pregs (s : State) (j : Job) : (s.putJob j).pregs = s.pregs := rfl
@[simp] theorem State.putJob_power (s : State) (j : Job) : (s.putJob j).power = s.power := rfl
@[simp] theorem State.putJob_collim (s : State) (j : Job) : (s.putJob j).collim = s.collim := rfl
@[simp] theorem State.putJob_uarid (s : State) (j : Job) : (s.putJob j).uarid = s.uarid := rfl
@[simp] theorem State.putJob_module (s : State) (j : Job) : (s.putJob j).module = s.module := rfl
@[simp] theorem State.putJob_hostRead (s : State) (j : Job) : (s.putJob j).hostRead = s.hostRead := rfl
@[simp] theorem State.putJob_out (s : State) (j : Job) : (s.putJob j).out = s.out := rfl

@[simp] theorem State.modJob_pending (s : State) (n : Nat) (f : Job → Job) : (s.modJob n f).pending = s.pending := rfl
@[simp] theorem State.modJob_held (s : State) (n : Nat) (f : Job → Job) : (s.modJob n f).held = s.held := rfl
@[simp] theorem State.modJob_ticks (s : State) (n : Nat) (f : Job → Job) : (s.modJob n f).ticks = s.ticks := rfl
@[simp] theorem State.modJob_freeCount (s : State) (n : Nat) (f : Job → Job) : (s.modJob n f).freeCount = s.freeCount := rfl
@[simp] theorem State.modJob_regs (s : State) (n : Nat) (f : Job → Job) : (s.modJob n f).regs = s.regs := rfl
@[simp] theorem State.modJob_latches (s : State) (n : Nat) (f : Job → Job) : (s.modJob n f).latches = s.latches := rfl
@[simp] theorem State.modJob_cores (s : State) (n : Nat) (f : Job → Job) : (s.modJob n f).cores = s.cores := rfl
@[simp] theorem State.modJob_lastJob (s : State) (n : Nat) (f : Job → Job) : (s.modJob n f).lastJob = s.lastJob := rfl
@[simp] theorem State.modJob_lastRing (s : State) (n : Nat) (f : Job → Job) : (s.modJob n f).lastRing = s.lastRing := rfl
@[simp] theorem State.modJob_rings (s : State) (n : Nat) (f : Job → Job) : (s.modJob n f).rings = s.rings := rfl
@[simp] theorem State.modJob_eq (s : State) (n : Nat) (f : Job → Job) : (s.modJob n f).eq = s.eq := rfl
@[simp] theorem State.modJob_vectors (s : State) (n : Nat) (f : Job → Job) : (s.modJob n f).vectors = s.vectors := rfl
@[simp] theorem State.modJob_shared (s : State) (n : Nat) (f : Job → Job) : (s.modJob n f).shared = s.shared := rfl
@[simp] theorem State.modJob_sharedEcc (s : State) (n : Nat) (f : Job → Job) : (s.modJob n f).sharedEcc = s.sharedEcc := rfl
@[simp] theorem State.modJob_banks (s : State) (n : Nat) (f : Job → Job) : (s.modJob n f).banks = s.banks := rfl
@[simp] theorem State.modJob_bankIdle (s : State) (n : Nat) (f : Job → Job) : (s.modJob n f).bankIdle = s.bankIdle := rfl
@[simp] theorem State.modJob_stacked (s : State) (n : Nat) (f : Job → Job) : (s.modJob n f).stacked = s.stacked := rfl
@[simp] theorem State.modJob_stackedEcc (s : State) (n : Nat) (f : Job → Job) : (s.modJob n f).stackedEcc = s.stackedEcc := rfl
@[simp] theorem State.modJob_tlb (s : State) (n : Nat) (f : Job → Job) : (s.modJob n f).tlb = s.tlb := rfl
@[simp] theorem State.modJob_pageReqs (s : State) (n : Nat) (f : Job → Job) : (s.modJob n f).pageReqs = s.pageReqs := rfl
@[simp] theorem State.modJob_host (s : State) (n : Nat) (f : Job → Job) : (s.modJob n f).host = s.host := rfl
@[simp] theorem State.modJob_hostPages (s : State) (n : Nat) (f : Job → Job) : (s.modJob n f).hostPages = s.hostPages := rfl
@[simp] theorem State.modJob_windows (s : State) (n : Nat) (f : Job → Job) : (s.modJob n f).windows = s.windows := rfl
@[simp] theorem State.modJob_sync (s : State) (n : Nat) (f : Job → Job) : (s.modJob n f).sync = s.sync := rfl
@[simp] theorem State.modJob_expo (s : State) (n : Nat) (f : Job → Job) : (s.modJob n f).expo = s.expo := rfl
@[simp] theorem State.modJob_identities (s : State) (n : Nat) (f : Job → Job) : (s.modJob n f).identities = s.identities := rfl
@[simp] theorem State.modJob_identityBroken (s : State) (n : Nat) (f : Job → Job) : (s.modJob n f).identityBroken = s.identityBroken := rfl
@[simp] theorem State.modJob_speLast (s : State) (n : Nat) (f : Job → Job) : (s.modJob n f).speLast = s.speLast := rfl
@[simp] theorem State.modJob_staging (s : State) (n : Nat) (f : Job → Job) : (s.modJob n f).staging = s.staging := rfl
@[simp] theorem State.modJob_requests (s : State) (n : Nat) (f : Job → Job) : (s.modJob n f).requests = s.requests := rfl
@[simp] theorem State.modJob_nextTxn (s : State) (n : Nat) (f : Job → Job) : (s.modJob n f).nextTxn = s.nextTxn := rfl
@[simp] theorem State.modJob_ports (s : State) (n : Nat) (f : Job → Job) : (s.modJob n f).ports = s.ports := rfl
@[simp] theorem State.modJob_time (s : State) (n : Nat) (f : Job → Job) : (s.modJob n f).time = s.time := rfl
@[simp] theorem State.modJob_cfg (s : State) (n : Nat) (f : Job → Job) : (s.modJob n f).cfg = s.cfg := rfl
@[simp] theorem State.modJob_pregs (s : State) (n : Nat) (f : Job → Job) : (s.modJob n f).pregs = s.pregs := rfl
@[simp] theorem State.modJob_power (s : State) (n : Nat) (f : Job → Job) : (s.modJob n f).power = s.power := rfl
@[simp] theorem State.modJob_collim (s : State) (n : Nat) (f : Job → Job) : (s.modJob n f).collim = s.collim := rfl
@[simp] theorem State.modJob_uarid (s : State) (n : Nat) (f : Job → Job) : (s.modJob n f).uarid = s.uarid := rfl
@[simp] theorem State.modJob_module (s : State) (n : Nat) (f : Job → Job) : (s.modJob n f).module = s.module := rfl
@[simp] theorem State.modJob_hostRead (s : State) (n : Nat) (f : Job → Job) : (s.modJob n f).hostRead = s.hostRead := rfl
@[simp] theorem State.modJob_out (s : State) (n : Nat) (f : Job → Job) : (s.modJob n f).out = s.out := rfl

@[simp] theorem State.flagJob_pending (s : State) (n : Nat) (f : JobFlags → JobFlags) : (s.flagJob n f).pending = s.pending := rfl
@[simp] theorem State.flagJob_held (s : State) (n : Nat) (f : JobFlags → JobFlags) : (s.flagJob n f).held = s.held := rfl
@[simp] theorem State.flagJob_ticks (s : State) (n : Nat) (f : JobFlags → JobFlags) : (s.flagJob n f).ticks = s.ticks := rfl
@[simp] theorem State.flagJob_freeCount (s : State) (n : Nat) (f : JobFlags → JobFlags) : (s.flagJob n f).freeCount = s.freeCount := rfl
@[simp] theorem State.flagJob_regs (s : State) (n : Nat) (f : JobFlags → JobFlags) : (s.flagJob n f).regs = s.regs := rfl
@[simp] theorem State.flagJob_latches (s : State) (n : Nat) (f : JobFlags → JobFlags) : (s.flagJob n f).latches = s.latches := rfl
@[simp] theorem State.flagJob_cores (s : State) (n : Nat) (f : JobFlags → JobFlags) : (s.flagJob n f).cores = s.cores := rfl
@[simp] theorem State.flagJob_lastJob (s : State) (n : Nat) (f : JobFlags → JobFlags) : (s.flagJob n f).lastJob = s.lastJob := rfl
@[simp] theorem State.flagJob_lastRing (s : State) (n : Nat) (f : JobFlags → JobFlags) : (s.flagJob n f).lastRing = s.lastRing := rfl
@[simp] theorem State.flagJob_rings (s : State) (n : Nat) (f : JobFlags → JobFlags) : (s.flagJob n f).rings = s.rings := rfl
@[simp] theorem State.flagJob_eq (s : State) (n : Nat) (f : JobFlags → JobFlags) : (s.flagJob n f).eq = s.eq := rfl
@[simp] theorem State.flagJob_vectors (s : State) (n : Nat) (f : JobFlags → JobFlags) : (s.flagJob n f).vectors = s.vectors := rfl
@[simp] theorem State.flagJob_shared (s : State) (n : Nat) (f : JobFlags → JobFlags) : (s.flagJob n f).shared = s.shared := rfl
@[simp] theorem State.flagJob_sharedEcc (s : State) (n : Nat) (f : JobFlags → JobFlags) : (s.flagJob n f).sharedEcc = s.sharedEcc := rfl
@[simp] theorem State.flagJob_banks (s : State) (n : Nat) (f : JobFlags → JobFlags) : (s.flagJob n f).banks = s.banks := rfl
@[simp] theorem State.flagJob_bankIdle (s : State) (n : Nat) (f : JobFlags → JobFlags) : (s.flagJob n f).bankIdle = s.bankIdle := rfl
@[simp] theorem State.flagJob_stacked (s : State) (n : Nat) (f : JobFlags → JobFlags) : (s.flagJob n f).stacked = s.stacked := rfl
@[simp] theorem State.flagJob_stackedEcc (s : State) (n : Nat) (f : JobFlags → JobFlags) : (s.flagJob n f).stackedEcc = s.stackedEcc := rfl
@[simp] theorem State.flagJob_tlb (s : State) (n : Nat) (f : JobFlags → JobFlags) : (s.flagJob n f).tlb = s.tlb := rfl
@[simp] theorem State.flagJob_pageReqs (s : State) (n : Nat) (f : JobFlags → JobFlags) : (s.flagJob n f).pageReqs = s.pageReqs := rfl
@[simp] theorem State.flagJob_host (s : State) (n : Nat) (f : JobFlags → JobFlags) : (s.flagJob n f).host = s.host := rfl
@[simp] theorem State.flagJob_hostPages (s : State) (n : Nat) (f : JobFlags → JobFlags) : (s.flagJob n f).hostPages = s.hostPages := rfl
@[simp] theorem State.flagJob_windows (s : State) (n : Nat) (f : JobFlags → JobFlags) : (s.flagJob n f).windows = s.windows := rfl
@[simp] theorem State.flagJob_sync (s : State) (n : Nat) (f : JobFlags → JobFlags) : (s.flagJob n f).sync = s.sync := rfl
@[simp] theorem State.flagJob_expo (s : State) (n : Nat) (f : JobFlags → JobFlags) : (s.flagJob n f).expo = s.expo := rfl
@[simp] theorem State.flagJob_identities (s : State) (n : Nat) (f : JobFlags → JobFlags) : (s.flagJob n f).identities = s.identities := rfl
@[simp] theorem State.flagJob_identityBroken (s : State) (n : Nat) (f : JobFlags → JobFlags) : (s.flagJob n f).identityBroken = s.identityBroken := rfl
@[simp] theorem State.flagJob_speLast (s : State) (n : Nat) (f : JobFlags → JobFlags) : (s.flagJob n f).speLast = s.speLast := rfl
@[simp] theorem State.flagJob_staging (s : State) (n : Nat) (f : JobFlags → JobFlags) : (s.flagJob n f).staging = s.staging := rfl
@[simp] theorem State.flagJob_requests (s : State) (n : Nat) (f : JobFlags → JobFlags) : (s.flagJob n f).requests = s.requests := rfl
@[simp] theorem State.flagJob_nextTxn (s : State) (n : Nat) (f : JobFlags → JobFlags) : (s.flagJob n f).nextTxn = s.nextTxn := rfl
@[simp] theorem State.flagJob_ports (s : State) (n : Nat) (f : JobFlags → JobFlags) : (s.flagJob n f).ports = s.ports := rfl
@[simp] theorem State.flagJob_time (s : State) (n : Nat) (f : JobFlags → JobFlags) : (s.flagJob n f).time = s.time := rfl
@[simp] theorem State.flagJob_cfg (s : State) (n : Nat) (f : JobFlags → JobFlags) : (s.flagJob n f).cfg = s.cfg := rfl
@[simp] theorem State.flagJob_pregs (s : State) (n : Nat) (f : JobFlags → JobFlags) : (s.flagJob n f).pregs = s.pregs := rfl
@[simp] theorem State.flagJob_power (s : State) (n : Nat) (f : JobFlags → JobFlags) : (s.flagJob n f).power = s.power := rfl
@[simp] theorem State.flagJob_collim (s : State) (n : Nat) (f : JobFlags → JobFlags) : (s.flagJob n f).collim = s.collim := rfl
@[simp] theorem State.flagJob_uarid (s : State) (n : Nat) (f : JobFlags → JobFlags) : (s.flagJob n f).uarid = s.uarid := rfl
@[simp] theorem State.flagJob_module (s : State) (n : Nat) (f : JobFlags → JobFlags) : (s.flagJob n f).module = s.module := rfl
@[simp] theorem State.flagJob_hostRead (s : State) (n : Nat) (f : JobFlags → JobFlags) : (s.flagJob n f).hostRead = s.hostRead := rfl
@[simp] theorem State.flagJob_out (s : State) (n : Nat) (f : JobFlags → JobFlags) : (s.flagJob n f).out = s.out := rfl

@[simp] theorem State.hold_pending (s : State) (i : Instr) : (s.hold i).pending = s.pending := rfl
@[simp] theorem State.hold_ticks (s : State) (i : Instr) : (s.hold i).ticks = s.ticks := rfl
@[simp] theorem State.hold_freeCount (s : State) (i : Instr) : (s.hold i).freeCount = s.freeCount := rfl
@[simp] theorem State.hold_regs (s : State) (i : Instr) : (s.hold i).regs = s.regs := rfl
@[simp] theorem State.hold_latches (s : State) (i : Instr) : (s.hold i).latches = s.latches := rfl
@[simp] theorem State.hold_cores (s : State) (i : Instr) : (s.hold i).cores = s.cores := rfl
@[simp] theorem State.hold_jobs (s : State) (i : Instr) : (s.hold i).jobs = s.jobs := rfl
@[simp] theorem State.hold_lastJob (s : State) (i : Instr) : (s.hold i).lastJob = s.lastJob := rfl
@[simp] theorem State.hold_lastRing (s : State) (i : Instr) : (s.hold i).lastRing = s.lastRing := rfl
@[simp] theorem State.hold_rings (s : State) (i : Instr) : (s.hold i).rings = s.rings := rfl
@[simp] theorem State.hold_eq (s : State) (i : Instr) : (s.hold i).eq = s.eq := rfl
@[simp] theorem State.hold_vectors (s : State) (i : Instr) : (s.hold i).vectors = s.vectors := rfl
@[simp] theorem State.hold_shared (s : State) (i : Instr) : (s.hold i).shared = s.shared := rfl
@[simp] theorem State.hold_sharedEcc (s : State) (i : Instr) : (s.hold i).sharedEcc = s.sharedEcc := rfl
@[simp] theorem State.hold_banks (s : State) (i : Instr) : (s.hold i).banks = s.banks := rfl
@[simp] theorem State.hold_bankIdle (s : State) (i : Instr) : (s.hold i).bankIdle = s.bankIdle := rfl
@[simp] theorem State.hold_stacked (s : State) (i : Instr) : (s.hold i).stacked = s.stacked := rfl
@[simp] theorem State.hold_stackedEcc (s : State) (i : Instr) : (s.hold i).stackedEcc = s.stackedEcc := rfl
@[simp] theorem State.hold_tlb (s : State) (i : Instr) : (s.hold i).tlb = s.tlb := rfl
@[simp] theorem State.hold_pageReqs (s : State) (i : Instr) : (s.hold i).pageReqs = s.pageReqs := rfl
@[simp] theorem State.hold_host (s : State) (i : Instr) : (s.hold i).host = s.host := rfl
@[simp] theorem State.hold_hostPages (s : State) (i : Instr) : (s.hold i).hostPages = s.hostPages := rfl
@[simp] theorem State.hold_windows (s : State) (i : Instr) : (s.hold i).windows = s.windows := rfl
@[simp] theorem State.hold_sync (s : State) (i : Instr) : (s.hold i).sync = s.sync := rfl
@[simp] theorem State.hold_expo (s : State) (i : Instr) : (s.hold i).expo = s.expo := rfl
@[simp] theorem State.hold_identities (s : State) (i : Instr) : (s.hold i).identities = s.identities := rfl
@[simp] theorem State.hold_identityBroken (s : State) (i : Instr) : (s.hold i).identityBroken = s.identityBroken := rfl
@[simp] theorem State.hold_speLast (s : State) (i : Instr) : (s.hold i).speLast = s.speLast := rfl
@[simp] theorem State.hold_staging (s : State) (i : Instr) : (s.hold i).staging = s.staging := rfl
@[simp] theorem State.hold_requests (s : State) (i : Instr) : (s.hold i).requests = s.requests := rfl
@[simp] theorem State.hold_nextTxn (s : State) (i : Instr) : (s.hold i).nextTxn = s.nextTxn := rfl
@[simp] theorem State.hold_ports (s : State) (i : Instr) : (s.hold i).ports = s.ports := rfl
@[simp] theorem State.hold_time (s : State) (i : Instr) : (s.hold i).time = s.time := rfl
@[simp] theorem State.hold_cfg (s : State) (i : Instr) : (s.hold i).cfg = s.cfg := rfl
@[simp] theorem State.hold_pregs (s : State) (i : Instr) : (s.hold i).pregs = s.pregs := rfl
@[simp] theorem State.hold_power (s : State) (i : Instr) : (s.hold i).power = s.power := rfl
@[simp] theorem State.hold_collim (s : State) (i : Instr) : (s.hold i).collim = s.collim := rfl
@[simp] theorem State.hold_uarid (s : State) (i : Instr) : (s.hold i).uarid = s.uarid := rfl
@[simp] theorem State.hold_module (s : State) (i : Instr) : (s.hold i).module = s.module := rfl
@[simp] theorem State.hold_hostRead (s : State) (i : Instr) : (s.hold i).hostRead = s.hostRead := rfl
@[simp] theorem State.hold_out (s : State) (i : Instr) : (s.hold i).out = s.out := rfl

@[simp] theorem State.setBank_pending (s : State) (b : Nat) (p : BankPower) : (s.setBank b p).pending = s.pending := rfl
@[simp] theorem State.setBank_held (s : State) (b : Nat) (p : BankPower) : (s.setBank b p).held = s.held := rfl
@[simp] theorem State.setBank_ticks (s : State) (b : Nat) (p : BankPower) : (s.setBank b p).ticks = s.ticks := rfl
@[simp] theorem State.setBank_freeCount (s : State) (b : Nat) (p : BankPower) : (s.setBank b p).freeCount = s.freeCount := rfl
@[simp] theorem State.setBank_regs (s : State) (b : Nat) (p : BankPower) : (s.setBank b p).regs = s.regs := rfl
@[simp] theorem State.setBank_latches (s : State) (b : Nat) (p : BankPower) : (s.setBank b p).latches = s.latches := rfl
@[simp] theorem State.setBank_cores (s : State) (b : Nat) (p : BankPower) : (s.setBank b p).cores = s.cores := rfl
@[simp] theorem State.setBank_jobs (s : State) (b : Nat) (p : BankPower) : (s.setBank b p).jobs = s.jobs := rfl
@[simp] theorem State.setBank_lastJob (s : State) (b : Nat) (p : BankPower) : (s.setBank b p).lastJob = s.lastJob := rfl
@[simp] theorem State.setBank_lastRing (s : State) (b : Nat) (p : BankPower) : (s.setBank b p).lastRing = s.lastRing := rfl
@[simp] theorem State.setBank_rings (s : State) (b : Nat) (p : BankPower) : (s.setBank b p).rings = s.rings := rfl
@[simp] theorem State.setBank_eq (s : State) (b : Nat) (p : BankPower) : (s.setBank b p).eq = s.eq := rfl
@[simp] theorem State.setBank_vectors (s : State) (b : Nat) (p : BankPower) : (s.setBank b p).vectors = s.vectors := rfl
@[simp] theorem State.setBank_shared (s : State) (b : Nat) (p : BankPower) : (s.setBank b p).shared = s.shared := rfl
@[simp] theorem State.setBank_sharedEcc (s : State) (b : Nat) (p : BankPower) : (s.setBank b p).sharedEcc = s.sharedEcc := rfl
@[simp] theorem State.setBank_bankIdle (s : State) (b : Nat) (p : BankPower) : (s.setBank b p).bankIdle = s.bankIdle := rfl
@[simp] theorem State.setBank_stacked (s : State) (b : Nat) (p : BankPower) : (s.setBank b p).stacked = s.stacked := rfl
@[simp] theorem State.setBank_stackedEcc (s : State) (b : Nat) (p : BankPower) : (s.setBank b p).stackedEcc = s.stackedEcc := rfl
@[simp] theorem State.setBank_tlb (s : State) (b : Nat) (p : BankPower) : (s.setBank b p).tlb = s.tlb := rfl
@[simp] theorem State.setBank_pageReqs (s : State) (b : Nat) (p : BankPower) : (s.setBank b p).pageReqs = s.pageReqs := rfl
@[simp] theorem State.setBank_host (s : State) (b : Nat) (p : BankPower) : (s.setBank b p).host = s.host := rfl
@[simp] theorem State.setBank_hostPages (s : State) (b : Nat) (p : BankPower) : (s.setBank b p).hostPages = s.hostPages := rfl
@[simp] theorem State.setBank_windows (s : State) (b : Nat) (p : BankPower) : (s.setBank b p).windows = s.windows := rfl
@[simp] theorem State.setBank_sync (s : State) (b : Nat) (p : BankPower) : (s.setBank b p).sync = s.sync := rfl
@[simp] theorem State.setBank_expo (s : State) (b : Nat) (p : BankPower) : (s.setBank b p).expo = s.expo := rfl
@[simp] theorem State.setBank_identities (s : State) (b : Nat) (p : BankPower) : (s.setBank b p).identities = s.identities := rfl
@[simp] theorem State.setBank_identityBroken (s : State) (b : Nat) (p : BankPower) : (s.setBank b p).identityBroken = s.identityBroken := rfl
@[simp] theorem State.setBank_speLast (s : State) (b : Nat) (p : BankPower) : (s.setBank b p).speLast = s.speLast := rfl
@[simp] theorem State.setBank_staging (s : State) (b : Nat) (p : BankPower) : (s.setBank b p).staging = s.staging := rfl
@[simp] theorem State.setBank_requests (s : State) (b : Nat) (p : BankPower) : (s.setBank b p).requests = s.requests := rfl
@[simp] theorem State.setBank_nextTxn (s : State) (b : Nat) (p : BankPower) : (s.setBank b p).nextTxn = s.nextTxn := rfl
@[simp] theorem State.setBank_ports (s : State) (b : Nat) (p : BankPower) : (s.setBank b p).ports = s.ports := rfl
@[simp] theorem State.setBank_time (s : State) (b : Nat) (p : BankPower) : (s.setBank b p).time = s.time := rfl
@[simp] theorem State.setBank_cfg (s : State) (b : Nat) (p : BankPower) : (s.setBank b p).cfg = s.cfg := rfl
@[simp] theorem State.setBank_pregs (s : State) (b : Nat) (p : BankPower) : (s.setBank b p).pregs = s.pregs := rfl
@[simp] theorem State.setBank_power (s : State) (b : Nat) (p : BankPower) : (s.setBank b p).power = s.power := rfl
@[simp] theorem State.setBank_collim (s : State) (b : Nat) (p : BankPower) : (s.setBank b p).collim = s.collim := rfl
@[simp] theorem State.setBank_uarid (s : State) (b : Nat) (p : BankPower) : (s.setBank b p).uarid = s.uarid := rfl
@[simp] theorem State.setBank_module (s : State) (b : Nat) (p : BankPower) : (s.setBank b p).module = s.module := rfl
@[simp] theorem State.setBank_hostRead (s : State) (b : Nat) (p : BankPower) : (s.setBank b p).hostRead = s.hostRead := rfl
@[simp] theorem State.setBank_out (s : State) (b : Nat) (p : BankPower) : (s.setBank b p).out = s.out := rfl

@[simp] theorem State.touchBank_pending (s : State) (b : Nat) : (s.touchBank b).pending = s.pending := rfl
@[simp] theorem State.touchBank_held (s : State) (b : Nat) : (s.touchBank b).held = s.held := rfl
@[simp] theorem State.touchBank_ticks (s : State) (b : Nat) : (s.touchBank b).ticks = s.ticks := rfl
@[simp] theorem State.touchBank_freeCount (s : State) (b : Nat) : (s.touchBank b).freeCount = s.freeCount := rfl
@[simp] theorem State.touchBank_regs (s : State) (b : Nat) : (s.touchBank b).regs = s.regs := rfl
@[simp] theorem State.touchBank_latches (s : State) (b : Nat) : (s.touchBank b).latches = s.latches := rfl
@[simp] theorem State.touchBank_cores (s : State) (b : Nat) : (s.touchBank b).cores = s.cores := rfl
@[simp] theorem State.touchBank_jobs (s : State) (b : Nat) : (s.touchBank b).jobs = s.jobs := rfl
@[simp] theorem State.touchBank_lastJob (s : State) (b : Nat) : (s.touchBank b).lastJob = s.lastJob := rfl
@[simp] theorem State.touchBank_lastRing (s : State) (b : Nat) : (s.touchBank b).lastRing = s.lastRing := rfl
@[simp] theorem State.touchBank_rings (s : State) (b : Nat) : (s.touchBank b).rings = s.rings := rfl
@[simp] theorem State.touchBank_eq (s : State) (b : Nat) : (s.touchBank b).eq = s.eq := rfl
@[simp] theorem State.touchBank_vectors (s : State) (b : Nat) : (s.touchBank b).vectors = s.vectors := rfl
@[simp] theorem State.touchBank_shared (s : State) (b : Nat) : (s.touchBank b).shared = s.shared := rfl
@[simp] theorem State.touchBank_sharedEcc (s : State) (b : Nat) : (s.touchBank b).sharedEcc = s.sharedEcc := rfl
@[simp] theorem State.touchBank_banks (s : State) (b : Nat) : (s.touchBank b).banks = s.banks := rfl
@[simp] theorem State.touchBank_stacked (s : State) (b : Nat) : (s.touchBank b).stacked = s.stacked := rfl
@[simp] theorem State.touchBank_stackedEcc (s : State) (b : Nat) : (s.touchBank b).stackedEcc = s.stackedEcc := rfl
@[simp] theorem State.touchBank_tlb (s : State) (b : Nat) : (s.touchBank b).tlb = s.tlb := rfl
@[simp] theorem State.touchBank_pageReqs (s : State) (b : Nat) : (s.touchBank b).pageReqs = s.pageReqs := rfl
@[simp] theorem State.touchBank_host (s : State) (b : Nat) : (s.touchBank b).host = s.host := rfl
@[simp] theorem State.touchBank_hostPages (s : State) (b : Nat) : (s.touchBank b).hostPages = s.hostPages := rfl
@[simp] theorem State.touchBank_windows (s : State) (b : Nat) : (s.touchBank b).windows = s.windows := rfl
@[simp] theorem State.touchBank_sync (s : State) (b : Nat) : (s.touchBank b).sync = s.sync := rfl
@[simp] theorem State.touchBank_expo (s : State) (b : Nat) : (s.touchBank b).expo = s.expo := rfl
@[simp] theorem State.touchBank_identities (s : State) (b : Nat) : (s.touchBank b).identities = s.identities := rfl
@[simp] theorem State.touchBank_identityBroken (s : State) (b : Nat) : (s.touchBank b).identityBroken = s.identityBroken := rfl
@[simp] theorem State.touchBank_speLast (s : State) (b : Nat) : (s.touchBank b).speLast = s.speLast := rfl
@[simp] theorem State.touchBank_staging (s : State) (b : Nat) : (s.touchBank b).staging = s.staging := rfl
@[simp] theorem State.touchBank_requests (s : State) (b : Nat) : (s.touchBank b).requests = s.requests := rfl
@[simp] theorem State.touchBank_nextTxn (s : State) (b : Nat) : (s.touchBank b).nextTxn = s.nextTxn := rfl
@[simp] theorem State.touchBank_ports (s : State) (b : Nat) : (s.touchBank b).ports = s.ports := rfl
@[simp] theorem State.touchBank_time (s : State) (b : Nat) : (s.touchBank b).time = s.time := rfl
@[simp] theorem State.touchBank_cfg (s : State) (b : Nat) : (s.touchBank b).cfg = s.cfg := rfl
@[simp] theorem State.touchBank_pregs (s : State) (b : Nat) : (s.touchBank b).pregs = s.pregs := rfl
@[simp] theorem State.touchBank_power (s : State) (b : Nat) : (s.touchBank b).power = s.power := rfl
@[simp] theorem State.touchBank_collim (s : State) (b : Nat) : (s.touchBank b).collim = s.collim := rfl
@[simp] theorem State.touchBank_uarid (s : State) (b : Nat) : (s.touchBank b).uarid = s.uarid := rfl
@[simp] theorem State.touchBank_module (s : State) (b : Nat) : (s.touchBank b).module = s.module := rfl
@[simp] theorem State.touchBank_hostRead (s : State) (b : Nat) : (s.touchBank b).hostRead = s.hostRead := rfl
@[simp] theorem State.touchBank_out (s : State) (b : Nat) : (s.touchBank b).out = s.out := rfl

@[simp] theorem State.setExpoSlot_pending (s : State) (n : Nat) (e : ExpoSlot) : (s.setExpoSlot n e).pending = s.pending := rfl
@[simp] theorem State.setExpoSlot_held (s : State) (n : Nat) (e : ExpoSlot) : (s.setExpoSlot n e).held = s.held := rfl
@[simp] theorem State.setExpoSlot_ticks (s : State) (n : Nat) (e : ExpoSlot) : (s.setExpoSlot n e).ticks = s.ticks := rfl
@[simp] theorem State.setExpoSlot_freeCount (s : State) (n : Nat) (e : ExpoSlot) : (s.setExpoSlot n e).freeCount = s.freeCount := rfl
@[simp] theorem State.setExpoSlot_regs (s : State) (n : Nat) (e : ExpoSlot) : (s.setExpoSlot n e).regs = s.regs := rfl
@[simp] theorem State.setExpoSlot_latches (s : State) (n : Nat) (e : ExpoSlot) : (s.setExpoSlot n e).latches = s.latches := rfl
@[simp] theorem State.setExpoSlot_cores (s : State) (n : Nat) (e : ExpoSlot) : (s.setExpoSlot n e).cores = s.cores := rfl
@[simp] theorem State.setExpoSlot_jobs (s : State) (n : Nat) (e : ExpoSlot) : (s.setExpoSlot n e).jobs = s.jobs := rfl
@[simp] theorem State.setExpoSlot_lastJob (s : State) (n : Nat) (e : ExpoSlot) : (s.setExpoSlot n e).lastJob = s.lastJob := rfl
@[simp] theorem State.setExpoSlot_lastRing (s : State) (n : Nat) (e : ExpoSlot) : (s.setExpoSlot n e).lastRing = s.lastRing := rfl
@[simp] theorem State.setExpoSlot_rings (s : State) (n : Nat) (e : ExpoSlot) : (s.setExpoSlot n e).rings = s.rings := rfl
@[simp] theorem State.setExpoSlot_eq (s : State) (n : Nat) (e : ExpoSlot) : (s.setExpoSlot n e).eq = s.eq := rfl
@[simp] theorem State.setExpoSlot_vectors (s : State) (n : Nat) (e : ExpoSlot) : (s.setExpoSlot n e).vectors = s.vectors := rfl
@[simp] theorem State.setExpoSlot_shared (s : State) (n : Nat) (e : ExpoSlot) : (s.setExpoSlot n e).shared = s.shared := rfl
@[simp] theorem State.setExpoSlot_sharedEcc (s : State) (n : Nat) (e : ExpoSlot) : (s.setExpoSlot n e).sharedEcc = s.sharedEcc := rfl
@[simp] theorem State.setExpoSlot_banks (s : State) (n : Nat) (e : ExpoSlot) : (s.setExpoSlot n e).banks = s.banks := rfl
@[simp] theorem State.setExpoSlot_bankIdle (s : State) (n : Nat) (e : ExpoSlot) : (s.setExpoSlot n e).bankIdle = s.bankIdle := rfl
@[simp] theorem State.setExpoSlot_stacked (s : State) (n : Nat) (e : ExpoSlot) : (s.setExpoSlot n e).stacked = s.stacked := rfl
@[simp] theorem State.setExpoSlot_stackedEcc (s : State) (n : Nat) (e : ExpoSlot) : (s.setExpoSlot n e).stackedEcc = s.stackedEcc := rfl
@[simp] theorem State.setExpoSlot_tlb (s : State) (n : Nat) (e : ExpoSlot) : (s.setExpoSlot n e).tlb = s.tlb := rfl
@[simp] theorem State.setExpoSlot_pageReqs (s : State) (n : Nat) (e : ExpoSlot) : (s.setExpoSlot n e).pageReqs = s.pageReqs := rfl
@[simp] theorem State.setExpoSlot_host (s : State) (n : Nat) (e : ExpoSlot) : (s.setExpoSlot n e).host = s.host := rfl
@[simp] theorem State.setExpoSlot_hostPages (s : State) (n : Nat) (e : ExpoSlot) : (s.setExpoSlot n e).hostPages = s.hostPages := rfl
@[simp] theorem State.setExpoSlot_windows (s : State) (n : Nat) (e : ExpoSlot) : (s.setExpoSlot n e).windows = s.windows := rfl
@[simp] theorem State.setExpoSlot_sync (s : State) (n : Nat) (e : ExpoSlot) : (s.setExpoSlot n e).sync = s.sync := rfl
@[simp] theorem State.setExpoSlot_identities (s : State) (n : Nat) (e : ExpoSlot) : (s.setExpoSlot n e).identities = s.identities := rfl
@[simp] theorem State.setExpoSlot_identityBroken (s : State) (n : Nat) (e : ExpoSlot) : (s.setExpoSlot n e).identityBroken = s.identityBroken := rfl
@[simp] theorem State.setExpoSlot_speLast (s : State) (n : Nat) (e : ExpoSlot) : (s.setExpoSlot n e).speLast = s.speLast := rfl
@[simp] theorem State.setExpoSlot_staging (s : State) (n : Nat) (e : ExpoSlot) : (s.setExpoSlot n e).staging = s.staging := rfl
@[simp] theorem State.setExpoSlot_requests (s : State) (n : Nat) (e : ExpoSlot) : (s.setExpoSlot n e).requests = s.requests := rfl
@[simp] theorem State.setExpoSlot_nextTxn (s : State) (n : Nat) (e : ExpoSlot) : (s.setExpoSlot n e).nextTxn = s.nextTxn := rfl
@[simp] theorem State.setExpoSlot_ports (s : State) (n : Nat) (e : ExpoSlot) : (s.setExpoSlot n e).ports = s.ports := rfl
@[simp] theorem State.setExpoSlot_time (s : State) (n : Nat) (e : ExpoSlot) : (s.setExpoSlot n e).time = s.time := rfl
@[simp] theorem State.setExpoSlot_cfg (s : State) (n : Nat) (e : ExpoSlot) : (s.setExpoSlot n e).cfg = s.cfg := rfl
@[simp] theorem State.setExpoSlot_pregs (s : State) (n : Nat) (e : ExpoSlot) : (s.setExpoSlot n e).pregs = s.pregs := rfl
@[simp] theorem State.setExpoSlot_power (s : State) (n : Nat) (e : ExpoSlot) : (s.setExpoSlot n e).power = s.power := rfl
@[simp] theorem State.setExpoSlot_collim (s : State) (n : Nat) (e : ExpoSlot) : (s.setExpoSlot n e).collim = s.collim := rfl
@[simp] theorem State.setExpoSlot_uarid (s : State) (n : Nat) (e : ExpoSlot) : (s.setExpoSlot n e).uarid = s.uarid := rfl
@[simp] theorem State.setExpoSlot_module (s : State) (n : Nat) (e : ExpoSlot) : (s.setExpoSlot n e).module = s.module := rfl
@[simp] theorem State.setExpoSlot_hostRead (s : State) (n : Nat) (e : ExpoSlot) : (s.setExpoSlot n e).hostRead = s.hostRead := rfl
@[simp] theorem State.setExpoSlot_out (s : State) (n : Nat) (e : ExpoSlot) : (s.setExpoSlot n e).out = s.out := rfl

@[simp] theorem State.dropPages_pending (s : State) (n : Nat) : (s.dropPages n).pending = s.pending := rfl
@[simp] theorem State.dropPages_held (s : State) (n : Nat) : (s.dropPages n).held = s.held := rfl
@[simp] theorem State.dropPages_ticks (s : State) (n : Nat) : (s.dropPages n).ticks = s.ticks := rfl
@[simp] theorem State.dropPages_freeCount (s : State) (n : Nat) : (s.dropPages n).freeCount = s.freeCount := rfl
@[simp] theorem State.dropPages_regs (s : State) (n : Nat) : (s.dropPages n).regs = s.regs := rfl
@[simp] theorem State.dropPages_latches (s : State) (n : Nat) : (s.dropPages n).latches = s.latches := rfl
@[simp] theorem State.dropPages_cores (s : State) (n : Nat) : (s.dropPages n).cores = s.cores := rfl
@[simp] theorem State.dropPages_jobs (s : State) (n : Nat) : (s.dropPages n).jobs = s.jobs := rfl
@[simp] theorem State.dropPages_lastJob (s : State) (n : Nat) : (s.dropPages n).lastJob = s.lastJob := rfl
@[simp] theorem State.dropPages_lastRing (s : State) (n : Nat) : (s.dropPages n).lastRing = s.lastRing := rfl
@[simp] theorem State.dropPages_rings (s : State) (n : Nat) : (s.dropPages n).rings = s.rings := rfl
@[simp] theorem State.dropPages_eq (s : State) (n : Nat) : (s.dropPages n).eq = s.eq := rfl
@[simp] theorem State.dropPages_vectors (s : State) (n : Nat) : (s.dropPages n).vectors = s.vectors := rfl
@[simp] theorem State.dropPages_shared (s : State) (n : Nat) : (s.dropPages n).shared = s.shared := rfl
@[simp] theorem State.dropPages_sharedEcc (s : State) (n : Nat) : (s.dropPages n).sharedEcc = s.sharedEcc := rfl
@[simp] theorem State.dropPages_banks (s : State) (n : Nat) : (s.dropPages n).banks = s.banks := rfl
@[simp] theorem State.dropPages_bankIdle (s : State) (n : Nat) : (s.dropPages n).bankIdle = s.bankIdle := rfl
@[simp] theorem State.dropPages_stacked (s : State) (n : Nat) : (s.dropPages n).stacked = s.stacked := rfl
@[simp] theorem State.dropPages_stackedEcc (s : State) (n : Nat) : (s.dropPages n).stackedEcc = s.stackedEcc := rfl
@[simp] theorem State.dropPages_tlb (s : State) (n : Nat) : (s.dropPages n).tlb = s.tlb := rfl
@[simp] theorem State.dropPages_host (s : State) (n : Nat) : (s.dropPages n).host = s.host := rfl
@[simp] theorem State.dropPages_hostPages (s : State) (n : Nat) : (s.dropPages n).hostPages = s.hostPages := rfl
@[simp] theorem State.dropPages_windows (s : State) (n : Nat) : (s.dropPages n).windows = s.windows := rfl
@[simp] theorem State.dropPages_sync (s : State) (n : Nat) : (s.dropPages n).sync = s.sync := rfl
@[simp] theorem State.dropPages_expo (s : State) (n : Nat) : (s.dropPages n).expo = s.expo := rfl
@[simp] theorem State.dropPages_identities (s : State) (n : Nat) : (s.dropPages n).identities = s.identities := rfl
@[simp] theorem State.dropPages_identityBroken (s : State) (n : Nat) : (s.dropPages n).identityBroken = s.identityBroken := rfl
@[simp] theorem State.dropPages_speLast (s : State) (n : Nat) : (s.dropPages n).speLast = s.speLast := rfl
@[simp] theorem State.dropPages_staging (s : State) (n : Nat) : (s.dropPages n).staging = s.staging := rfl
@[simp] theorem State.dropPages_requests (s : State) (n : Nat) : (s.dropPages n).requests = s.requests := rfl
@[simp] theorem State.dropPages_nextTxn (s : State) (n : Nat) : (s.dropPages n).nextTxn = s.nextTxn := rfl
@[simp] theorem State.dropPages_ports (s : State) (n : Nat) : (s.dropPages n).ports = s.ports := rfl
@[simp] theorem State.dropPages_time (s : State) (n : Nat) : (s.dropPages n).time = s.time := rfl
@[simp] theorem State.dropPages_cfg (s : State) (n : Nat) : (s.dropPages n).cfg = s.cfg := rfl
@[simp] theorem State.dropPages_pregs (s : State) (n : Nat) : (s.dropPages n).pregs = s.pregs := rfl
@[simp] theorem State.dropPages_power (s : State) (n : Nat) : (s.dropPages n).power = s.power := rfl
@[simp] theorem State.dropPages_collim (s : State) (n : Nat) : (s.dropPages n).collim = s.collim := rfl
@[simp] theorem State.dropPages_uarid (s : State) (n : Nat) : (s.dropPages n).uarid = s.uarid := rfl
@[simp] theorem State.dropPages_module (s : State) (n : Nat) : (s.dropPages n).module = s.module := rfl
@[simp] theorem State.dropPages_hostRead (s : State) (n : Nat) : (s.dropPages n).hostRead = s.hostRead := rfl
@[simp] theorem State.dropPages_out (s : State) (n : Nat) : (s.dropPages n).out = s.out := rfl

@[simp] theorem State.closeWindows_pending (s : State) (n : Nat) : (s.closeWindows n).pending = s.pending := rfl
@[simp] theorem State.closeWindows_held (s : State) (n : Nat) : (s.closeWindows n).held = s.held := rfl
@[simp] theorem State.closeWindows_ticks (s : State) (n : Nat) : (s.closeWindows n).ticks = s.ticks := rfl
@[simp] theorem State.closeWindows_freeCount (s : State) (n : Nat) : (s.closeWindows n).freeCount = s.freeCount := rfl
@[simp] theorem State.closeWindows_regs (s : State) (n : Nat) : (s.closeWindows n).regs = s.regs := rfl
@[simp] theorem State.closeWindows_latches (s : State) (n : Nat) : (s.closeWindows n).latches = s.latches := rfl
@[simp] theorem State.closeWindows_cores (s : State) (n : Nat) : (s.closeWindows n).cores = s.cores := rfl
@[simp] theorem State.closeWindows_jobs (s : State) (n : Nat) : (s.closeWindows n).jobs = s.jobs := rfl
@[simp] theorem State.closeWindows_lastJob (s : State) (n : Nat) : (s.closeWindows n).lastJob = s.lastJob := rfl
@[simp] theorem State.closeWindows_lastRing (s : State) (n : Nat) : (s.closeWindows n).lastRing = s.lastRing := rfl
@[simp] theorem State.closeWindows_rings (s : State) (n : Nat) : (s.closeWindows n).rings = s.rings := rfl
@[simp] theorem State.closeWindows_eq (s : State) (n : Nat) : (s.closeWindows n).eq = s.eq := rfl
@[simp] theorem State.closeWindows_vectors (s : State) (n : Nat) : (s.closeWindows n).vectors = s.vectors := rfl
@[simp] theorem State.closeWindows_shared (s : State) (n : Nat) : (s.closeWindows n).shared = s.shared := rfl
@[simp] theorem State.closeWindows_sharedEcc (s : State) (n : Nat) : (s.closeWindows n).sharedEcc = s.sharedEcc := rfl
@[simp] theorem State.closeWindows_banks (s : State) (n : Nat) : (s.closeWindows n).banks = s.banks := rfl
@[simp] theorem State.closeWindows_bankIdle (s : State) (n : Nat) : (s.closeWindows n).bankIdle = s.bankIdle := rfl
@[simp] theorem State.closeWindows_stacked (s : State) (n : Nat) : (s.closeWindows n).stacked = s.stacked := rfl
@[simp] theorem State.closeWindows_stackedEcc (s : State) (n : Nat) : (s.closeWindows n).stackedEcc = s.stackedEcc := rfl
@[simp] theorem State.closeWindows_tlb (s : State) (n : Nat) : (s.closeWindows n).tlb = s.tlb := rfl
@[simp] theorem State.closeWindows_pageReqs (s : State) (n : Nat) : (s.closeWindows n).pageReqs = s.pageReqs := rfl
@[simp] theorem State.closeWindows_host (s : State) (n : Nat) : (s.closeWindows n).host = s.host := rfl
@[simp] theorem State.closeWindows_hostPages (s : State) (n : Nat) : (s.closeWindows n).hostPages = s.hostPages := rfl
@[simp] theorem State.closeWindows_sync (s : State) (n : Nat) : (s.closeWindows n).sync = s.sync := rfl
@[simp] theorem State.closeWindows_expo (s : State) (n : Nat) : (s.closeWindows n).expo = s.expo := rfl
@[simp] theorem State.closeWindows_identities (s : State) (n : Nat) : (s.closeWindows n).identities = s.identities := rfl
@[simp] theorem State.closeWindows_identityBroken (s : State) (n : Nat) : (s.closeWindows n).identityBroken = s.identityBroken := rfl
@[simp] theorem State.closeWindows_speLast (s : State) (n : Nat) : (s.closeWindows n).speLast = s.speLast := rfl
@[simp] theorem State.closeWindows_staging (s : State) (n : Nat) : (s.closeWindows n).staging = s.staging := rfl
@[simp] theorem State.closeWindows_requests (s : State) (n : Nat) : (s.closeWindows n).requests = s.requests := rfl
@[simp] theorem State.closeWindows_nextTxn (s : State) (n : Nat) : (s.closeWindows n).nextTxn = s.nextTxn := rfl
@[simp] theorem State.closeWindows_ports (s : State) (n : Nat) : (s.closeWindows n).ports = s.ports := rfl
@[simp] theorem State.closeWindows_time (s : State) (n : Nat) : (s.closeWindows n).time = s.time := rfl
@[simp] theorem State.closeWindows_cfg (s : State) (n : Nat) : (s.closeWindows n).cfg = s.cfg := rfl
@[simp] theorem State.closeWindows_pregs (s : State) (n : Nat) : (s.closeWindows n).pregs = s.pregs := rfl
@[simp] theorem State.closeWindows_power (s : State) (n : Nat) : (s.closeWindows n).power = s.power := rfl
@[simp] theorem State.closeWindows_collim (s : State) (n : Nat) : (s.closeWindows n).collim = s.collim := rfl
@[simp] theorem State.closeWindows_uarid (s : State) (n : Nat) : (s.closeWindows n).uarid = s.uarid := rfl
@[simp] theorem State.closeWindows_module (s : State) (n : Nat) : (s.closeWindows n).module = s.module := rfl
@[simp] theorem State.closeWindows_hostRead (s : State) (n : Nat) : (s.closeWindows n).hostRead = s.hostRead := rfl
@[simp] theorem State.closeWindows_out (s : State) (n : Nat) : (s.closeWindows n).out = s.out := rfl

@[simp] theorem State.dropReq_pending (s : State) (n : Nat) : (s.dropReq n).pending = s.pending := rfl
@[simp] theorem State.dropReq_held (s : State) (n : Nat) : (s.dropReq n).held = s.held := rfl
@[simp] theorem State.dropReq_ticks (s : State) (n : Nat) : (s.dropReq n).ticks = s.ticks := rfl
@[simp] theorem State.dropReq_freeCount (s : State) (n : Nat) : (s.dropReq n).freeCount = s.freeCount := rfl
@[simp] theorem State.dropReq_regs (s : State) (n : Nat) : (s.dropReq n).regs = s.regs := rfl
@[simp] theorem State.dropReq_latches (s : State) (n : Nat) : (s.dropReq n).latches = s.latches := rfl
@[simp] theorem State.dropReq_cores (s : State) (n : Nat) : (s.dropReq n).cores = s.cores := rfl
@[simp] theorem State.dropReq_jobs (s : State) (n : Nat) : (s.dropReq n).jobs = s.jobs := rfl
@[simp] theorem State.dropReq_lastJob (s : State) (n : Nat) : (s.dropReq n).lastJob = s.lastJob := rfl
@[simp] theorem State.dropReq_lastRing (s : State) (n : Nat) : (s.dropReq n).lastRing = s.lastRing := rfl
@[simp] theorem State.dropReq_rings (s : State) (n : Nat) : (s.dropReq n).rings = s.rings := rfl
@[simp] theorem State.dropReq_eq (s : State) (n : Nat) : (s.dropReq n).eq = s.eq := rfl
@[simp] theorem State.dropReq_vectors (s : State) (n : Nat) : (s.dropReq n).vectors = s.vectors := rfl
@[simp] theorem State.dropReq_shared (s : State) (n : Nat) : (s.dropReq n).shared = s.shared := rfl
@[simp] theorem State.dropReq_sharedEcc (s : State) (n : Nat) : (s.dropReq n).sharedEcc = s.sharedEcc := rfl
@[simp] theorem State.dropReq_banks (s : State) (n : Nat) : (s.dropReq n).banks = s.banks := rfl
@[simp] theorem State.dropReq_bankIdle (s : State) (n : Nat) : (s.dropReq n).bankIdle = s.bankIdle := rfl
@[simp] theorem State.dropReq_stacked (s : State) (n : Nat) : (s.dropReq n).stacked = s.stacked := rfl
@[simp] theorem State.dropReq_stackedEcc (s : State) (n : Nat) : (s.dropReq n).stackedEcc = s.stackedEcc := rfl
@[simp] theorem State.dropReq_tlb (s : State) (n : Nat) : (s.dropReq n).tlb = s.tlb := rfl
@[simp] theorem State.dropReq_pageReqs (s : State) (n : Nat) : (s.dropReq n).pageReqs = s.pageReqs := rfl
@[simp] theorem State.dropReq_host (s : State) (n : Nat) : (s.dropReq n).host = s.host := rfl
@[simp] theorem State.dropReq_hostPages (s : State) (n : Nat) : (s.dropReq n).hostPages = s.hostPages := rfl
@[simp] theorem State.dropReq_windows (s : State) (n : Nat) : (s.dropReq n).windows = s.windows := rfl
@[simp] theorem State.dropReq_sync (s : State) (n : Nat) : (s.dropReq n).sync = s.sync := rfl
@[simp] theorem State.dropReq_expo (s : State) (n : Nat) : (s.dropReq n).expo = s.expo := rfl
@[simp] theorem State.dropReq_identities (s : State) (n : Nat) : (s.dropReq n).identities = s.identities := rfl
@[simp] theorem State.dropReq_identityBroken (s : State) (n : Nat) : (s.dropReq n).identityBroken = s.identityBroken := rfl
@[simp] theorem State.dropReq_speLast (s : State) (n : Nat) : (s.dropReq n).speLast = s.speLast := rfl
@[simp] theorem State.dropReq_staging (s : State) (n : Nat) : (s.dropReq n).staging = s.staging := rfl
@[simp] theorem State.dropReq_nextTxn (s : State) (n : Nat) : (s.dropReq n).nextTxn = s.nextTxn := rfl
@[simp] theorem State.dropReq_ports (s : State) (n : Nat) : (s.dropReq n).ports = s.ports := rfl
@[simp] theorem State.dropReq_time (s : State) (n : Nat) : (s.dropReq n).time = s.time := rfl
@[simp] theorem State.dropReq_cfg (s : State) (n : Nat) : (s.dropReq n).cfg = s.cfg := rfl
@[simp] theorem State.dropReq_pregs (s : State) (n : Nat) : (s.dropReq n).pregs = s.pregs := rfl
@[simp] theorem State.dropReq_power (s : State) (n : Nat) : (s.dropReq n).power = s.power := rfl
@[simp] theorem State.dropReq_collim (s : State) (n : Nat) : (s.dropReq n).collim = s.collim := rfl
@[simp] theorem State.dropReq_uarid (s : State) (n : Nat) : (s.dropReq n).uarid = s.uarid := rfl
@[simp] theorem State.dropReq_module (s : State) (n : Nat) : (s.dropReq n).module = s.module := rfl
@[simp] theorem State.dropReq_hostRead (s : State) (n : Nat) : (s.dropReq n).hostRead = s.hostRead := rfl
@[simp] theorem State.dropReq_out (s : State) (n : Nat) : (s.dropReq n).out = s.out := rfl

@[simp] theorem Cx.mod_pending (x : Cx) (f : Issued → Issued) (s : State) : (x.mod f s).pending = s.pending := rfl
@[simp] theorem Cx.mod_held (x : Cx) (f : Issued → Issued) (s : State) : (x.mod f s).held = s.held := rfl
@[simp] theorem Cx.mod_ticks (x : Cx) (f : Issued → Issued) (s : State) : (x.mod f s).ticks = s.ticks := rfl
@[simp] theorem Cx.mod_freeCount (x : Cx) (f : Issued → Issued) (s : State) : (x.mod f s).freeCount = s.freeCount := rfl
@[simp] theorem Cx.mod_regs (x : Cx) (f : Issued → Issued) (s : State) : (x.mod f s).regs = s.regs := rfl
@[simp] theorem Cx.mod_latches (x : Cx) (f : Issued → Issued) (s : State) : (x.mod f s).latches = s.latches := rfl
@[simp] theorem Cx.mod_jobs (x : Cx) (f : Issued → Issued) (s : State) : (x.mod f s).jobs = s.jobs := rfl
@[simp] theorem Cx.mod_lastJob (x : Cx) (f : Issued → Issued) (s : State) : (x.mod f s).lastJob = s.lastJob := rfl
@[simp] theorem Cx.mod_lastRing (x : Cx) (f : Issued → Issued) (s : State) : (x.mod f s).lastRing = s.lastRing := rfl
@[simp] theorem Cx.mod_rings (x : Cx) (f : Issued → Issued) (s : State) : (x.mod f s).rings = s.rings := rfl
@[simp] theorem Cx.mod_eq (x : Cx) (f : Issued → Issued) (s : State) : (x.mod f s).eq = s.eq := rfl
@[simp] theorem Cx.mod_vectors (x : Cx) (f : Issued → Issued) (s : State) : (x.mod f s).vectors = s.vectors := rfl
@[simp] theorem Cx.mod_shared (x : Cx) (f : Issued → Issued) (s : State) : (x.mod f s).shared = s.shared := rfl
@[simp] theorem Cx.mod_sharedEcc (x : Cx) (f : Issued → Issued) (s : State) : (x.mod f s).sharedEcc = s.sharedEcc := rfl
@[simp] theorem Cx.mod_banks (x : Cx) (f : Issued → Issued) (s : State) : (x.mod f s).banks = s.banks := rfl
@[simp] theorem Cx.mod_bankIdle (x : Cx) (f : Issued → Issued) (s : State) : (x.mod f s).bankIdle = s.bankIdle := rfl
@[simp] theorem Cx.mod_stacked (x : Cx) (f : Issued → Issued) (s : State) : (x.mod f s).stacked = s.stacked := rfl
@[simp] theorem Cx.mod_stackedEcc (x : Cx) (f : Issued → Issued) (s : State) : (x.mod f s).stackedEcc = s.stackedEcc := rfl
@[simp] theorem Cx.mod_tlb (x : Cx) (f : Issued → Issued) (s : State) : (x.mod f s).tlb = s.tlb := rfl
@[simp] theorem Cx.mod_pageReqs (x : Cx) (f : Issued → Issued) (s : State) : (x.mod f s).pageReqs = s.pageReqs := rfl
@[simp] theorem Cx.mod_host (x : Cx) (f : Issued → Issued) (s : State) : (x.mod f s).host = s.host := rfl
@[simp] theorem Cx.mod_hostPages (x : Cx) (f : Issued → Issued) (s : State) : (x.mod f s).hostPages = s.hostPages := rfl
@[simp] theorem Cx.mod_windows (x : Cx) (f : Issued → Issued) (s : State) : (x.mod f s).windows = s.windows := rfl
@[simp] theorem Cx.mod_sync (x : Cx) (f : Issued → Issued) (s : State) : (x.mod f s).sync = s.sync := rfl
@[simp] theorem Cx.mod_expo (x : Cx) (f : Issued → Issued) (s : State) : (x.mod f s).expo = s.expo := rfl
@[simp] theorem Cx.mod_identities (x : Cx) (f : Issued → Issued) (s : State) : (x.mod f s).identities = s.identities := rfl
@[simp] theorem Cx.mod_identityBroken (x : Cx) (f : Issued → Issued) (s : State) : (x.mod f s).identityBroken = s.identityBroken := rfl
@[simp] theorem Cx.mod_speLast (x : Cx) (f : Issued → Issued) (s : State) : (x.mod f s).speLast = s.speLast := rfl
@[simp] theorem Cx.mod_staging (x : Cx) (f : Issued → Issued) (s : State) : (x.mod f s).staging = s.staging := rfl
@[simp] theorem Cx.mod_requests (x : Cx) (f : Issued → Issued) (s : State) : (x.mod f s).requests = s.requests := rfl
@[simp] theorem Cx.mod_nextTxn (x : Cx) (f : Issued → Issued) (s : State) : (x.mod f s).nextTxn = s.nextTxn := rfl
@[simp] theorem Cx.mod_ports (x : Cx) (f : Issued → Issued) (s : State) : (x.mod f s).ports = s.ports := rfl
@[simp] theorem Cx.mod_time (x : Cx) (f : Issued → Issued) (s : State) : (x.mod f s).time = s.time := rfl
@[simp] theorem Cx.mod_cfg (x : Cx) (f : Issued → Issued) (s : State) : (x.mod f s).cfg = s.cfg := rfl
@[simp] theorem Cx.mod_pregs (x : Cx) (f : Issued → Issued) (s : State) : (x.mod f s).pregs = s.pregs := rfl
@[simp] theorem Cx.mod_power (x : Cx) (f : Issued → Issued) (s : State) : (x.mod f s).power = s.power := rfl
@[simp] theorem Cx.mod_collim (x : Cx) (f : Issued → Issued) (s : State) : (x.mod f s).collim = s.collim := rfl
@[simp] theorem Cx.mod_uarid (x : Cx) (f : Issued → Issued) (s : State) : (x.mod f s).uarid = s.uarid := rfl
@[simp] theorem Cx.mod_module (x : Cx) (f : Issued → Issued) (s : State) : (x.mod f s).module = s.module := rfl
@[simp] theorem Cx.mod_hostRead (x : Cx) (f : Issued → Issued) (s : State) : (x.mod f s).hostRead = s.hostRead := rfl
@[simp] theorem Cx.mod_out (x : Cx) (f : Issued → Issued) (s : State) : (x.mod f s).out = s.out := rfl

@[simp] theorem State.active_pending (s : State) (c kind n : Nat) : (s.active c kind n).pending = s.pending := rfl
@[simp] theorem State.active_held (s : State) (c kind n : Nat) : (s.active c kind n).held = s.held := rfl
@[simp] theorem State.active_ticks (s : State) (c kind n : Nat) : (s.active c kind n).ticks = s.ticks := rfl
@[simp] theorem State.active_freeCount (s : State) (c kind n : Nat) : (s.active c kind n).freeCount = s.freeCount := rfl
@[simp] theorem State.active_regs (s : State) (c kind n : Nat) : (s.active c kind n).regs = s.regs := rfl
@[simp] theorem State.active_latches (s : State) (c kind n : Nat) : (s.active c kind n).latches = s.latches := rfl
@[simp] theorem State.active_jobs (s : State) (c kind n : Nat) : (s.active c kind n).jobs = s.jobs := rfl
@[simp] theorem State.active_lastJob (s : State) (c kind n : Nat) : (s.active c kind n).lastJob = s.lastJob := rfl
@[simp] theorem State.active_lastRing (s : State) (c kind n : Nat) : (s.active c kind n).lastRing = s.lastRing := rfl
@[simp] theorem State.active_rings (s : State) (c kind n : Nat) : (s.active c kind n).rings = s.rings := rfl
@[simp] theorem State.active_eq (s : State) (c kind n : Nat) : (s.active c kind n).eq = s.eq := rfl
@[simp] theorem State.active_vectors (s : State) (c kind n : Nat) : (s.active c kind n).vectors = s.vectors := rfl
@[simp] theorem State.active_shared (s : State) (c kind n : Nat) : (s.active c kind n).shared = s.shared := rfl
@[simp] theorem State.active_sharedEcc (s : State) (c kind n : Nat) : (s.active c kind n).sharedEcc = s.sharedEcc := rfl
@[simp] theorem State.active_banks (s : State) (c kind n : Nat) : (s.active c kind n).banks = s.banks := rfl
@[simp] theorem State.active_bankIdle (s : State) (c kind n : Nat) : (s.active c kind n).bankIdle = s.bankIdle := rfl
@[simp] theorem State.active_stacked (s : State) (c kind n : Nat) : (s.active c kind n).stacked = s.stacked := rfl
@[simp] theorem State.active_stackedEcc (s : State) (c kind n : Nat) : (s.active c kind n).stackedEcc = s.stackedEcc := rfl
@[simp] theorem State.active_tlb (s : State) (c kind n : Nat) : (s.active c kind n).tlb = s.tlb := rfl
@[simp] theorem State.active_pageReqs (s : State) (c kind n : Nat) : (s.active c kind n).pageReqs = s.pageReqs := rfl
@[simp] theorem State.active_host (s : State) (c kind n : Nat) : (s.active c kind n).host = s.host := rfl
@[simp] theorem State.active_hostPages (s : State) (c kind n : Nat) : (s.active c kind n).hostPages = s.hostPages := rfl
@[simp] theorem State.active_windows (s : State) (c kind n : Nat) : (s.active c kind n).windows = s.windows := rfl
@[simp] theorem State.active_sync (s : State) (c kind n : Nat) : (s.active c kind n).sync = s.sync := rfl
@[simp] theorem State.active_expo (s : State) (c kind n : Nat) : (s.active c kind n).expo = s.expo := rfl
@[simp] theorem State.active_identities (s : State) (c kind n : Nat) : (s.active c kind n).identities = s.identities := rfl
@[simp] theorem State.active_identityBroken (s : State) (c kind n : Nat) : (s.active c kind n).identityBroken = s.identityBroken := rfl
@[simp] theorem State.active_speLast (s : State) (c kind n : Nat) : (s.active c kind n).speLast = s.speLast := rfl
@[simp] theorem State.active_staging (s : State) (c kind n : Nat) : (s.active c kind n).staging = s.staging := rfl
@[simp] theorem State.active_requests (s : State) (c kind n : Nat) : (s.active c kind n).requests = s.requests := rfl
@[simp] theorem State.active_nextTxn (s : State) (c kind n : Nat) : (s.active c kind n).nextTxn = s.nextTxn := rfl
@[simp] theorem State.active_ports (s : State) (c kind n : Nat) : (s.active c kind n).ports = s.ports := rfl
@[simp] theorem State.active_time (s : State) (c kind n : Nat) : (s.active c kind n).time = s.time := rfl
@[simp] theorem State.active_cfg (s : State) (c kind n : Nat) : (s.active c kind n).cfg = s.cfg := rfl
@[simp] theorem State.active_pregs (s : State) (c kind n : Nat) : (s.active c kind n).pregs = s.pregs := rfl
@[simp] theorem State.active_collim (s : State) (c kind n : Nat) : (s.active c kind n).collim = s.collim := rfl
@[simp] theorem State.active_uarid (s : State) (c kind n : Nat) : (s.active c kind n).uarid = s.uarid := rfl
@[simp] theorem State.active_module (s : State) (c kind n : Nat) : (s.active c kind n).module = s.module := rfl
@[simp] theorem State.active_hostRead (s : State) (c kind n : Nat) : (s.active c kind n).hostRead = s.hostRead := rfl
@[simp] theorem State.active_out (s : State) (c kind n : Nat) : (s.active c kind n).out = s.out := rfl
@[simp] theorem State.active_cores (s : State) (c kind n : Nat) : (s.active c kind n).cores = s.cores := rfl

/-- Counted activity is no part of what a Heliostat's state is otherwise. -/
@[simp] theorem State.active_still (s : State) (c kind n : Nat) : (s.active c kind n).power.still = s.power.still := by
  simp only [State.active, Power.still, Power.mk.injEq, true_and, and_true]
  apply List.ext_getElem (by simp)
  intro k h1 h2
  simp only [List.getElem_map, List.getElem_modify]
  split <;> rfl

/-! ### What is read after a set -/

theorem State.reg_setReg {s : State} (h : Sparse.rising s.regs = true) (off : Nat) (v : Word64) (i : Nat) :
    (s.setReg off v).reg i = if i = off then v else s.reg i := by
  by_cases hi : i = off
  · subst hi; simp [State.reg, State.setReg, Sparse.get_set _ _ _ h]
  · simp only [State.reg, State.setReg, if_neg hi]
    exact Sparse.get_set_other (regReset off) (regReset i) off v h i hi

theorem State.reg_count {s : State} (h : Sparse.rising s.regs = true) (off k i : Nat) :
    (s.count off k).reg i = if i = off then s.reg off + BitVec.ofNat 64 k else s.reg i :=
  State.reg_setReg h off _ i

theorem State.core_setCore {s : State} (h : Sparse.rising s.cores = true) (c : Nat) (k : Core) (d : Nat) :
    (s.setCore c k).core d = if d = c then k else s.core d := Sparse.get_set _ _ _ h d

theorem State.core_modCore {s : State} (h : Sparse.rising s.cores = true) (c : Nat) (f : Core → Core) (d : Nat) :
    (s.modCore c f).core d = if d = c then f (s.core c) else s.core d := Sparse.get_set _ _ _ h d

theorem State.ring_setRing {s : State} (h : Sparse.rising s.rings = true) (n : Nat) (r : Ring) (i : Nat) :
    (s.setRing n r).ring i = if i = n then r else s.ring i := Sparse.get_set _ _ _ h i

theorem State.port_setPort {s : State} (h : Sparse.rising s.ports = true) (p : Nat) (q : Port) (i : Nat) :
    (s.setPort p q).port i = if i = p then q else s.port i := Sparse.get_set _ _ _ h i

theorem State.port_modPort {s : State} (h : Sparse.rising s.ports = true) (p : Nat) (f : Port → Port) (i : Nat) :
    (s.modPort p f).port i = if i = p then f (s.port p) else s.port i := Sparse.get_set _ _ _ h i

theorem State.vector_setVector {s : State} (h : Sparse.rising s.vectors = true) (v : Nat) (x : Vector_) (i : Nat) :
    (s.setVector v x).vector i = if i = v then x else s.vector i := Sparse.get_set _ _ _ h i

theorem State.expoSlot_setExpoSlot {s : State} (h : Sparse.rising s.expo = true) (n : Nat) (e : ExpoSlot) (i : Nat) :
    (s.setExpoSlot n e).expoSlot i = if i = n then e else s.expoSlot i := Sparse.get_set _ _ _ h i

theorem State.ctr_set {s : State} (h : Sparse.rising s.sync = true) (n : Nat) (v : Word64) (i : Nat) :
    (s.setCtr n v).ctr i = if i = n then v else s.ctr i := Sparse.get_set _ _ _ h i

/-! ### The maps stay rising -/

theorem State.rising_setReg {s : State} (h : Sparse.rising s.regs = true) (off : Nat) (v : Word64) :
    Sparse.rising (s.setReg off v).regs = true := Sparse.rising_set _ _ _ h

theorem State.rising_count {s : State} (h : Sparse.rising s.regs = true) (off k : Nat) :
    Sparse.rising (s.count off k).regs = true := Sparse.rising_set _ _ _ h

theorem State.rising_setCore {s : State} (h : Sparse.rising s.cores = true) (c : Nat) (k : Core) :
    Sparse.rising (s.setCore c k).cores = true := Sparse.rising_set _ _ _ h

theorem State.rising_modCore {s : State} (h : Sparse.rising s.cores = true) (c : Nat) (f : Core → Core) :
    Sparse.rising (s.modCore c f).cores = true := Sparse.rising_set _ _ _ h

end Sys2Proof.Machine
end

