-- ==== Sys2Proof/Laws/Tile.lean ====
section
/-!
SUPPORT. The path of a tile command that stands at the head of its buffer and may start: what its answer is, given what its
own work does. Statements about single tile commands go through tile_starts.
-/

namespace Sys2Proof.Machine

/-! ### What leaves the cores alone -/

/-- An event record leaves alone what neither the host's memory, the event ring, a notice nor a counter is part of. -/
theorem State.postEvent_keeps {α : Type} (f : State → α) (s : State) (e : Event) (h1 : ∀ s a bs, f (State.putHost s a bs) = f s)
    (h2 : ∀ (s : State) q, f { s with eq := q } = f s) (h3 : ∀ s v x, f (State.setVector s v x) = f s)
    (h4 : ∀ s o, f (State.emit s o) = f s) (h5 : ∀ s o k, f (State.count s o k) = f s) : f (s.postEvent e) = f s := by
  have h6 : ∀ s v, f (State.sendMsix s v) = f s := by
    intro s v; unfold State.sendMsix; split
    · exact h3 _ _ _
    · exact h4 _ _
  by_cases hr : s.eqEnabled = true ∧ s.eq.used < s.eqSize
  · rw [State.postEvent, if_pos hr, State.writeEvent]
    extract_lets
    rw [apply_ite f, h6, ite_self, h2, h1]
  · rw [State.postEvent, if_neg hr]
    extract_lets s1
    rw [h2, h5]

@[simp] theorem State.postEvent_cores (s : State) (e : Event) : (s.postEvent e).cores = s.cores :=
  s.postEvent_keeps State.cores e (fun _ _ _ => rfl) (fun _ _ => rfl) (fun _ _ _ => rfl) (fun _ _ => rfl) fun _ _ _ => rfl

@[simp] theorem State.postEvent_banks (s : State) (e : Event) : (s.postEvent e).banks = s.banks :=
  s.postEvent_keeps State.banks e (fun _ _ _ => rfl) (fun _ _ => rfl) (fun _ _ _ => rfl) (fun _ _ => rfl) fun _ _ _ => rfl

@[simp] theorem State.stopJournal_cores (s : State) (j : Job) : (s.stopJournal j).cores = s.cores := by
  simp [State.stopJournal]

@[simp] theorem State.journal_cores (s : State) (n : Nat) (r : JRec) : (s.journal n r).cores = s.cores := by
  unfold State.journal
  repeat (first | rfl | split | exact State.stopJournal_cores _ _)

@[simp] theorem State.noteCold_cores (s : State) (x : Cx) (n : Nat) : (s.noteCold x n).cores = s.cores := by
  unfold State.noteCold; dsimp only; split <;> simp

@[simp] theorem State.coldExp_cores (s : State) (e : ExpoSlot) (p : Int) (a : Option Int) :
    (s.coldExp e p a).2.cores = s.cores := by
  unfold State.coldExp; split <;> rfl

@[simp] theorem State.freezeNew_cores (s : State) (x : Cx) (j : Job) (z : Freeze) :
    (s.freezeNew x j z).2.2.cores = s.cores := by
  unfold State.freezeNew
  split
  · rfl
  · dsimp only
    split
    · simp
    · rfl

@[simp] theorem State.freeze_cores (s : State) (x : Cx) (z : Freeze) : (s.freeze x z).2.cores = s.cores := by
  unfold State.freeze
  split
  · rfl
  · split
    · dsimp only; split <;> rfl
    · dsimp only; split <;> simp

/-! ### A command at the head issues -/

/-- What a command knows of itself as it starts: its record with footprint and exponent. -/
def startCx (s : State) (j : Job) (c : Nat) (h : Hdr) (i : Instr) : Cx := (headCx s j c h i).fresh (s.issued j c h i)

/-- The state in which the work of a tile command begins. -/
def State.begun (s : State) (j : Job) (c : Nat) (h : Hdr) (i : Instr) : State :=
  (s.issued j c h i).startRun (startCx s j c h i) i

/-- The end of a tile command's work. -/
def State.ends (x : Cx) (i : Instr) : EStateM.Result Stop State Unit → State
  | .ok _ t => t.endRun x i
  | .error .hold t => t.pauseRun x i
  | .error .waits t => if t.jobStopped x.site.job then t.retire x else t.pauseRun x i
  | .error .ended t => t.retire x

theorem bookBanks_ready (x : Cx) (s : State) (l : List Nat) (h : ∀ b ∈ l, s.bankReady b = true) :
    (bookBanks x l).run s = .ok () s := by
  induction l with
  | nil => rfl
  | cons b l ih =>
    have h1 : (tryCatch (book x b) fun e => if e = .ended then throw e else pure () : Act Unit) s = .ok () s := by
      have : (book x b) s = .ok () s := by
        simp only [book, get, getThe, MonadStateOf.get, bind, EStateM.bind, EStateM.get, h b (by simp), if_true]; rfl
      simp only [tryCatch, tryCatchThe, MonadExceptOf.tryCatch, EStateM.tryCatch, this]
    simp only [bookBanks, bind, EStateM.run, EStateM.bind, h1]
    exact ih fun b' hb => h b' (List.mem_cons_of_mem _ hb)

/-- What issue does to a core beside its record leaves the commands that it has issued. -/
@[simp] theorem Core.onGroup_issued (k : Core) (i : Instr) (h : Hdr) (rows : List Nat) : (k.onGroup i h rows).issued = k.issued := by
  unfold Core.onGroup
  dsimp only
  repeat (first | rfl | split)

@[simp] theorem Core.onIssue_issued (k : Core) (i : Instr) (h : Hdr) (rows : List Nat) : (k.onIssue i h rows).issued = k.issued := by
  unfold Core.onIssue
  dsimp only
  split <;> simp

theorem Core.dropped_of_group {k : Core} (h : k.group.elim false (·.overflow) = false) (n : Nat) : k.dropped n = false := by
  unfold Core.dropped
  cases hg : k.group with
  | none => rfl
  | some g => simp only [hg, Option.elim_some] at h; simp [h]

/-- No issue makes a rescale group overflow. -/
theorem Core.onGroup_overflow {k : Core} (hk : k.group.elim false (·.overflow) = false) (i : Instr) (h : Hdr) (rows : List Nat) :
    (k.onGroup i h rows).group.elim false (·.overflow) = false := by
  unfold Core.onGroup
  set k1 : Core := if commits h i then _ else k with hk1
  have h1 : k1.group.elim false (·.overflow) = false := by
    rw [hk1]; split
    · cases hg : k.group with
      | none => rfl
      | some g => rw [hg] at hk; simp only [Option.map_some, Option.elim_some]; split <;> exact hk
    · exact hk
  split <;> dsimp only
  · split <;> exact h1
  · split <;> exact h1
  · split <;> exact h1
  · split
    · split
      · rename_i g _ hg; rw [hg] at h1; exact h1
      · rfl
      · exact h1
    · exact h1
  · exact h1

theorem Core.onIssue_overflow {k : Core} (hk : k.group.elim false (·.overflow) = false) (i : Instr) (h : Hdr) (rows : List Nat) :
    (k.onIssue i h rows).group.elim false (·.overflow) = false := by
  unfold Core.onIssue
  dsimp only
  split <;> exact Core.onGroup_overflow hk _ h rows

theorem blocked_group {s : State} {c : Nat} (h : blocked s c = false) :
    (s.core c).group.elim false (·.overflow) = false := by
  simp only [blocked, Bool.or_eq_false_iff] at h
  cases hg : (s.core c).group with
  | none => rfl
  | some g => have := h.2; rw [hg] at this; simpa using (Bool.or_eq_false_iff.mp this).1

theorem State.core_issue {s : State} (ho : Sparse.rising s.cores = true) (c : Nat) (i : Instr) (h : Hdr) (r : Issued)
    (rows : List Nat) (d : Nat) : (s.issue c i h r rows).core d = if d = c then
      (({ s.core c with issued := (s.core c).issued ++ [r], seqState := .running } : Core).onIssue i h rows).next
      else s.core d := by
  have := State.core_modCore ho c (fun k =>
    (({ k with issued := k.issued ++ [r], seqState := .running } : Core).onIssue i h rows).next) d
  exact this

/-- A record that a command at the head takes as it issues, before it starts. -/
structure Fresh (r : Issued) (i : Instr) (h : Hdr) : Prop where
  cmd : r.cmd = i
  seq : r.seq = h.seq.toNat
  done : r.done = false
  started : r.started = false
  log : r.log = []

/-- A core on which just one command has issued, with nothing of its own done. -/
def Alone (s : State) (c : Nat) (i : Instr) (h : Hdr) : Prop :=
  ∃ r, (s.core c).issued = [r] ∧ Fresh r i h

theorem Alone.mod {s : State} {c : Nat} {i : Instr} {h : Hdr} (ha : Alone s c i h) (ho : Sparse.rising s.cores = true)
    (n : Nat) (f : Issued → Issued) (hf : ∀ r, Fresh r i h → Fresh (f r) i h) : Alone (s.modIssued c n f) c i h := by
  obtain ⟨r, h1, h2⟩ := ha
  refine ⟨if r.seq = n then f r else r, ?_, ?_⟩
  · simp only [State.modIssued, State.core_modCore ho, if_true, h1, List.map_cons, List.map_nil]
  · split
    · exact hf r h2
    · exact h2

theorem Issued.covers_fresh {i : Instr} {h : Hdr} {r : Issued} (hr : Fresh r i h) (s : State) (x : Cx) (p : Oper) :
    Fresh (r.covers s x p) i h := ⟨hr.cmd, hr.seq, hr.done, hr.started, hr.log⟩

theorem footprint_fresh {i : Instr} {h : Hdr} (s : State) (x : Cx) (ops : List Oper) {r : Issued} (hr : Fresh r i h) :
    Fresh (ops.foldl (fun r p => r.covers s x p) r) i h := by
  induction ops generalizing r with
  | nil => exact hr
  | cons p l ih => exact ih (Issued.covers_fresh hr s x p)

theorem Alone.cores {s t : State} {c : Nat} {i : Instr} {h : Hdr} (hc : t.cores = s.cores) (ha : Alone s c i h) : Alone t c i h := by
  obtain ⟨r, h1, h2⟩ := ha
  exact ⟨r, by rw [← h1]; simp only [State.core, hc], h2⟩

theorem State.rising_issue {s : State} (ho : Sparse.rising s.cores = true) (c : Nat) (i : Instr) (h : Hdr) (r : Issued)
    (rows : List Nat) : Sparse.rising (s.issue c i h r rows).cores = true := by
  rw [State.issue, State.count_cores]; exact State.rising_modCore ho _ _

theorem State.rising_modIssued {s : State} (ho : Sparse.rising s.cores = true) (c n : Nat) (f : Issued → Issued) :
    Sparse.rising (s.modIssued c n f).cores = true := State.rising_modCore ho _ _

/-- A command at the head has issued alone, its record fresh. -/
theorem issued_alone {s : State} {j : Job} {c : Nat} {h : Hdr} {i : Instr} (ho : Sparse.rising s.cores = true)
    (hi : (s.core c).issued = []) : Alone (s.issued j c h i) c i h ∧ Sparse.rising (s.issued j c h i).cores = true := by
  set x := headCx s j c h i with hx
  have hxc : x.c = c := rfl
  have a0 : Alone (s.issue c i h x.iss (rowsOf s x i)) c i h := by
    refine ⟨x.iss, ?_, ?_⟩
    · rw [State.core_issue ho, if_pos rfl]; simp [Core.next, hi]
    · exact ⟨rfl, rfl, rfl, rfl, rfl⟩
  have o0 : Sparse.rising (s.issue c i h x.iss (rowsOf s x i)).cores = true := State.rising_issue ho _ _ _ _ _
  set s0 := s.issue c i h x.iss (rowsOf s x i) with hs0
  have a1 : Alone (s0.footprint x (opersOf s0 x i)) c i h :=
    a0.mod o0 _ _ fun r hr => footprint_fresh _ _ _ hr
  have o1 : Sparse.rising (s0.footprint x (opersOf s0 x i)).cores = true := State.rising_modIssued o0 _ _ _
  set s1 := s0.footprint x (opersOf s0 x i) with hs1
  set s2 := x.mod (fun r => { r with rows := rowsOf s0 x i, remote := isRemote s0 x i }) s1 with hs2
  have a2 : Alone s2 c i h := a1.mod o1 _ _ fun r hr => ⟨hr.cmd, hr.seq, hr.done, hr.started, hr.log⟩
  have o2 : Sparse.rising s2.cores = true := State.rising_modIssued o1 _ _ _
  have hr : s.issued j c h i = (latchOf s2 x i).elim s2 (s2.latchExp x) := rfl
  rw [hr]
  cases latchOf s2 x i with
  | none => exact ⟨a2, o2⟩
  | some z =>
    simp only [Option.elim_some, State.latchExp]
    have a3 : Alone (s2.freeze x z).2 c i h := a2.cores (State.freeze_cores s2 x z)
    have o3 : Sparse.rising (s2.freeze x z).2.cores = true := by rw [State.freeze_cores]; exact o2
    exact ⟨a3.mod o3 _ _ fun r hr => ⟨hr.cmd, hr.seq, hr.done, hr.started, hr.log⟩, State.rising_modIssued o3 _ _ _⟩

/-- No earlier command of the core is in progress when a command at the head starts. -/
theorem Alone.earlier {s : State} {c : Nat} {i : Instr} {h : Hdr} (ha : Alone s c i h) : (s.core c).earlier h.seq.toNat = [] := by
  obtain ⟨r, h1, h2⟩ := ha
  simp [Core.earlier, h1, h2.seq]

/-- The record of a command that has issued alone. -/
theorem Alone.record {s : State} {c : Nat} {i : Instr} {h : Hdr} (ha : Alone s c i h) :
    ∃ r, s.issuedOf c h.seq.toNat = some r ∧ Fresh r i h := by
  obtain ⟨r, h1, h2⟩ := ha
  exact ⟨r, by simp [State.issuedOf, h1, h2.seq], h2⟩

/-- A rescale group of core c has not overflowed after the issue of a command at the head. -/
theorem issued_dropped {s : State} {j : Job} {c : Nat} {h : Hdr} {i : Instr} (ho : Sparse.rising s.cores = true)
    (hb : blocked s c = false) (n : Nat) : ((s.issued j c h i).core c).dropped n = false := by
  apply Core.dropped_of_group
  set x := headCx s j c h i with hx
  have key : ∀ (t : State) (m : Nat) (f : Issued → Issued), Sparse.rising t.cores = true →
      (t.core c).group.elim false (·.overflow) = false → ((t.modIssued c m f).core c).group.elim false (·.overflow) = false := by
    intro t m f ht hg
    simp only [State.modIssued, State.core_modCore ht, if_true]; exact hg
  set s0 := s.issue c i h x.iss (rowsOf s x i) with hs0
  have o0 : Sparse.rising s0.cores = true := State.rising_issue ho _ _ _ _ _
  have g0 : (s0.core c).group.elim false (·.overflow) = false := by
    rw [hs0, State.core_issue ho, if_pos rfl]
    exact Core.onIssue_overflow (k := { s.core c with issued := (s.core c).issued ++ [x.iss], seqState := .running })
      (blocked_group hb) i h _
  set s1 := s0.footprint x (opersOf s0 x i) with hs1
  have o1 : Sparse.rising s1.cores = true := State.rising_modIssued o0 _ _ _
  set s2 := x.mod (fun r => { r with rows := rowsOf s0 x i, remote := isRemote s0 x i }) s1 with hs2
  have o2 : Sparse.rising s2.cores = true := State.rising_modIssued o1 _ _ _
  have g2 : (s2.core c).group.elim false (·.overflow) = false := key _ _ _ o1 (key _ _ _ o0 g0)
  have hr : s.issued j c h i = (latchOf s2 x i).elim s2 (s2.latchExp x) := rfl
  rw [hr]
  cases latchOf s2 x i with
  | none => exact g2
  | some z =>
    simp only [Option.elim_some, State.latchExp]
    have o3 : Sparse.rising (s2.freeze x z).2.cores = true := by rw [State.freeze_cores]; exact o2
    apply key _ _ _ o3
    simpa only [State.core, State.freeze_cores] using g2

theorem State.freeze_banks (s : State) (x : Cx) (z : Freeze) : (s.freeze x z).2.banks = s.banks := by
  have jour : ∀ (s : State) (n : Nat) (r : JRec), (s.journal n r).banks = s.banks := by
    intro s n r
    unfold State.journal
    repeat (first | rfl | split | simp [State.stopJournal])
  have cold : ∀ (s : State) (x : Cx) (n : Nat), (s.noteCold x n).banks = s.banks := by
    intro s x n; unfold State.noteCold; dsimp only; split <;> simp
  have new : ∀ j, (s.freezeNew x j z).2.2.banks = s.banks := by
    intro j
    unfold State.freezeNew
    split
    · rfl
    · dsimp only
      split
      · rw [cold]; simp only [State.modJob_banks, State.coldExp]; split <;> rfl
      · rfl
  unfold State.freeze
  split
  · rfl
  · split
    · dsimp only; split <;> rfl
    · dsimp only; split
      · rw [jour, new]
      · rw [new]

theorem issued_banks (s : State) (j : Job) (c : Nat) (h : Hdr) (i : Instr) : (s.issued j c h i).banks = s.banks := by
  have key : ∀ (o : Option Freeze) (x : Cx) (t : State), (o.elim t (t.latchExp x)).banks = t.banks := by
    intro o x t
    cases o with
    | none => rfl
    | some z => simp only [Option.elim_some, State.latchExp, Cx.mod_banks, State.freeze_banks]
  simp only [State.issued, State.record, key]; rfl

/-- The record of a command at the head that names no operand and no slot, as it issues. -/
theorem issued_plain {s : State} {j : Job} {c : Nat} {h : Hdr} {i : Instr} (hp : ∀ s x, opersOf s x i = [])
    (hl : ∀ s x, latchOf s x i = none) (ho : Sparse.rising s.cores = true) (hi : (s.core c).issued = []) :
    (s.issued j c h i).issuedOf c h.seq.toNat = some { (headCx s j c h i).iss with
      rows := rowsOf (s.issue c i h (headCx s j c h i).iss (rowsOf s (headCx s j c h i) i)) (headCx s j c h i) i
      remote := isRemote (s.issue c i h (headCx s j c h i).iss (rowsOf s (headCx s j c h i) i)) (headCx s j c h i) i } := by
  set x := headCx s j c h i with hx
  have hxs : x.site.seq = h.seq.toNat := rfl
  have hxc : x.c = c := rfl
  have hq : x.iss.seq = h.seq.toNat := rfl
  have o0 : Sparse.rising (s.issue c i h x.iss (rowsOf s x i)).cores = true := State.rising_issue ho _ _ _ _ _
  have i0 : ((s.issue c i h x.iss (rowsOf s x i)).core c).issued = [x.iss] := by
    rw [State.core_issue ho, if_pos rfl]; simp [Core.next, hi]
  set s0 := s.issue c i h x.iss (rowsOf s x i) with hs0
  have hr : s.issued j c h i = x.mod (fun r => { r with rows := rowsOf s0 x i, remote := isRemote s0 x i })
      (x.mod (fun r => r) s0) := by
    simp only [State.issued, State.record, hl, Option.elim_none, State.footprint, hp, List.foldl_nil]; rfl
  rw [hr]
  simp only [Cx.mod, hxc, State.modIssued, State.issuedOf, State.core_modCore (State.rising_modCore o0 _ _),
    State.core_modCore o0, if_true, i0, List.map_cons, List.map_nil, hxs, hq]
  simp

/-- A tile command that stands at the head of its buffer and may start answers what its work and its completion make of
the state in which it begins. -/
theorem tile_starts {s : State} {j : Job} {c : Nat} {h : Hdr} {i : Instr} (ho : Sparse.rising s.cores = true)
    (ha : Starts s j c h i) (body : Cx → Act Unit) :
    s.tile c h i body = State.ends (startCx s j c h i) i ((body (startCx s j c h i)).run (s.begun j c h i)) := by
  obtain ⟨⟨⟨h1, h2, h3, h4, h5⟩, h6, h7⟩, h8, h9⟩ := ha
  have hjob : s.holder c = some j ∧ j.phase.executes = true := by
    have := h1
    simp only [State.jobOn, Option.filter_eq_some_iff] at this
    exact this
  have hw : (s.core c).issueWaits h i = false := by
    simp only [Core.issueWaits, h3]; cases slotOf i <;> simp
  have hst : s.tile c h i body = (s.issue c i h (headCx s j c h i).iss (rowsOf s (headCx s j c h i) i)).start i body
      (headCx s j c h i) := by
    simp only [State.tile, hjob.1, hjob.2, h2, h3, h4, List.find?_nil, Bool.false_eq_true, if_false, Nat.not_le.mpr h5,
      State.atHead, Bool.not_true]
    rw [show cxOf j c h i (s.issueRecord j c i h) = headCx s j c h i from rfl,
      show causes s (rowsOf s (headCx s j c h i)) j c h i ++ freezeCauses s j i ++ tableCauses s (headCx s j c h i) i =
        headCauses s j c h i from rfl, h7]
    simp only [h6, Nat.lt_irrefl, if_false, hw, Bool.false_eq_true]
  obtain ⟨r, hr, hf⟩ := (issued_alone (j := j) (h := h) (i := i) ho h3).1.record
  have hx : (headCx s j c h i).fresh (s.issued j c h i) = { headCx s j c h i with iss := r } := by
    simp only [Cx.fresh, show (headCx s j c h i).c = c from rfl, show (headCx s j c h i).site.seq = h.seq.toNat from rfl, hr,
      Option.elim_some]
  rw [hst, State.start]
  simp only [show (s.issue c i h (headCx s j c h i).iss (rowsOf s (headCx s j c h i) i)).record (headCx s j c h i) i =
    s.issued j c h i from rfl]
  rw [bookBanks_ready]
  · simp only [State.runIssued]
    rw [show (headCx s j c h i).fresh (s.issued j c h i) = startCx s j c h i from rfl] at h9 ⊢
    have hd : ((s.issued j c h i).core (startCx s j c h i).c).dropped (startCx s j c h i).site.seq = false := by
      rw [show startCx s j c h i = { headCx s j c h i with iss := r } from hx]
      exact issued_dropped ho h4 _
    have hn : (startCx s j c h i).iss.done = false := by
      rw [show startCx s j c h i = { headCx s j c h i with iss := r } from hx]; exact hf.done
    simp only [hd, hn, h9, Bool.false_eq_true, if_false, Bool.not_true]
    rw [show (s.issued j c h i).startRun (startCx s j c h i) i = s.begun j c h i from rfl]
    cases (body (startCx s j c h i)).run (s.begun j c h i) with
    | ok a t => rfl
    | error e t => cases e <;> rfl
  · intro b hb
    rw [hx] at hb
    obtain ⟨e, he, rfl⟩ := List.mem_map.mp hb
    have hbk : (s.issued j c h i).banks = s.banks := issued_banks ..
    have hk : (s.issued j c h i).bank e.1 = s.bank e.1 := by unfold State.bank; rw [hbk]
    unfold State.bankReady; rw [hk]; exact h8 r hr e he

/-- A command at the head that runs in the sequencer and names no memory operand starts at once. -/
theorem starts_of_head {s : State} {j : Job} {c : Nat} {h : Hdr} {i : Instr} (ho : Sparse.rising s.cores = true)
    (ha : AtHead s j c h i) (he : enginesOf i = [.seq]) (hp : ∀ s x, opersOf s x i = []) (hq : opcodeOf i ≠ 1)
    (hl : ∀ s x, latchOf s x i = none) : Starts s j c h i := by
  have h1 := (issued_alone (j := j) (h := h) (i := i) ho ha.idle).1
  refine ⟨ha, ?_, ?_⟩
  · intro r hr b hb
    have : (s.issued j c h i).issuedOf c h.seq.toNat = some r := hr
    rw [issued_plain hp hl ho ha.idle] at this
    obtain rfl := Option.some.inj this
    simp [headCx, cxOf, State.issueRecord] at hb
  · have hc : ((headCx s j c h i).fresh (s.issued j c h i)).c = c := by
      unfold Cx.fresh; cases (s.issued j c h i).issuedOf (headCx s j c h i).c (headCx s j c h i).site.seq <;> rfl
    have hs : ((headCx s j c h i).fresh (s.issued j c h i)).site.seq = h.seq.toNat := by
      unfold Cx.fresh; cases (s.issued j c h i).issuedOf (headCx s j c h i).c (headCx s j c h i).site.seq <;> rfl
    simp only [ready, hc, hs, h1.earlier, List.any_nil, Bool.not_false, Bool.true_and, State.sparseBusy, checkHolds, he,
      State.bubbles]
    cases ((s.issued j c h i).core c).check with
    | none => simp
    | some p => simp [hq]

end Sys2Proof.Machine
end

