-- ==== Sys2Proof/Tests/Slice0.lean ====
section
/-!
SUPPORT. Tests. Ill-formed commands and their reasons; words of tile commands written out from the maps of R302; small runs of
one command each with results from the spec's text; and for the hypotheses of the statements concrete states that meet them.
-/

namespace Sys2Proof.Tests

set_option Elab.async false

open Sys2Proof Sys2Proof.Machine Sys2Proof.Certificates.Slice0

/-! ### Checks that the kernel evaluates -/

/-- The maps of a facet in order, as a Bool. -/
def facetOk (f : Facet) : Bool :=
  Sparse.rising f.rows && Sparse.rising f.rowParity && Sparse.rising f.colExp && Sparse.rising f.offsets
    && Sparse.rising f.expParity && Sparse.rising f.lastClean

/-- The maps of an issued command in order, as a Bool. -/
def issuedOk (r : Issued) : Bool :=
  Sparse.rising r.reads && Sparse.rising r.writes && Sparse.rising r.banks && Sparse.rising r.bytes

/-- The maps of a core in order, as a Bool. -/
def coreOk (k : Core) : Bool :=
  Memory.wf k.mem && Sparse.rising k.full && Sparse.rising k.ecc && Sparse.rising k.acm && Sparse.rising k.acmWord
    && Sparse.rising k.acmParity && Sparse.rising k.dirty && Sparse.rising k.facets && (k.facets.all fun f => facetOk f.2)
    && k.issued.all issuedOk

/-- The form of a port, as a Bool. -/
def portOk (q : Port) : Bool :=
  decide (q.symRuns.length = 4) && decide (q.credits.length = 4) && decide (q.returns.length = 4) && decide (q.lastIn.length = 4)
    && decide (q.rxExpected < 1024)

/-- The form of a state, as a Bool. -/
def formOk (s : State) : Bool :=
  (Memory.wf s.shared && Memory.wf s.stacked && Memory.wf s.host)
    && (Sparse.rising s.sharedEcc && Sparse.rising s.stackedEcc && Sparse.rising s.banks && Sparse.rising s.bankIdle
      && Sparse.rising s.tlb && Sparse.rising s.hostPages && Sparse.rising s.latches && Sparse.rising s.speLast)
    && (Sparse.rising s.uarid.slotA && Sparse.rising s.uarid.slotB && Sparse.rising s.uarid.mbox && Sparse.rising s.uarid.secure)
    && (decide (s.power.clusters.length = 32) && (s.power.clusters.all fun q => decide (q.activity.length = 9))
      && decide (s.power.dies.length = 4) && decide (s.power.stackRate.length = 6) && s.ports.all fun q => portOk q.2)
    && (Sparse.rising s.regs && Sparse.rising s.cores && Sparse.rising s.rings && Sparse.rising s.ports && Sparse.rising s.sync
      && Sparse.rising s.expo && Sparse.rising s.pregs && Sparse.rising s.vectors)
    && (s.cores.all fun k => coreOk k.2) && s.jobs.all fun j => j.saved.all fun k => coreOk k.2

theorem facet_ordered_of {f : Facet} (h : facetOk f = true) : f.ordered := by
  simpa only [facetOk, Facet.ordered, Bool.and_eq_true, and_assoc] using h

theorem issued_ordered_of {r : Issued} (h : issuedOk r = true) : r.ordered := by
  simpa only [issuedOk, Issued.ordered, Bool.and_eq_true, and_assoc] using h

theorem core_ordered_of {k : Core} (h : coreOk k = true) : k.ordered := by
  simp only [coreOk, Bool.and_eq_true, List.all_eq_true, and_assoc] at h
  simp only [Core.ordered]
  have f := fun e he => facet_ordered_of (h.2.2.2.2.2.2.2.2.1 e he)
  have r := fun e he => issued_ordered_of (h.2.2.2.2.2.2.2.2.2 e he)
  tauto

theorem port_shaped_of {q : Port} (h : portOk q = true) : q.shaped := by
  simpa only [portOk, Port.shaped, Bool.and_eq_true, decide_eq_true_eq, and_assoc] using h

theorem ordered_of {s : State} (h : formOk s = true) : s.ordered := by
  simp only [formOk, Bool.and_eq_true, List.all_eq_true, decide_eq_true_eq] at h
  obtain ⟨⟨h, cores⟩, saved⟩ := h
  have c := fun k hk => core_ordered_of (cores k hk)
  have d := fun j hj k hk => core_ordered_of (saved j hj k hk)
  have p := fun q hq => port_shaped_of (h.1.2.2 q hq)
  simp only [State.ordered, State.memOk, State.sideOk, Uarid.ordered, State.shaped]
  obtain ⟨⟨⟨⟨mem, side⟩, secure⟩, shape⟩, maps⟩ := h
  refine ⟨by tauto, by tauto, by tauto, ⟨shape.1.1.1.1, shape.1.1.1.2, shape.1.1.2, shape.1.2, p⟩, ?_⟩
  simp only [maps, true_and]
  exact ⟨c, d⟩

theorem get_cases {α : Type} (d : α) (m : Sparse α) (k : Nat) :
    Sparse.get d m k = d ∨ ∃ e ∈ m, e.2 = Sparse.get d m k := by
  induction m with
  | nil => exact .inl rfl
  | cons e m ih =>
    obtain ⟨a, v⟩ := e
    simp only [Sparse.get]
    split
    · exact .inr ⟨_, List.mem_cons_self .., rfl⟩
    · split
      · exact .inl rfl
      · rcases ih with h | ⟨e, he, h⟩
        · exact .inl h
        · exact .inr ⟨e, List.mem_cons_of_mem _ he, h⟩

/-- Whether no memory of a state holds an error. -/
def soundOk (s : State) : Bool :=
  decide (s.sharedEcc = []) && decide (s.stackedEcc = []) && decide (s.banks = []) && decide (s.hostPages = [])
    && s.cores.all fun k => decide (k.2.ecc = []) && decide (k.2.acmParity = [])

theorem faultless_of {s : State} (h : soundOk s = true) : s.faultless := by
  simp only [soundOk, Bool.and_eq_true, List.all_eq_true, decide_eq_true_eq] at h
  obtain ⟨⟨⟨⟨h1, h2⟩, h3⟩, h4⟩, h5⟩ := h
  refine ⟨h1, h2, h3, h4, fun c => ?_⟩
  rcases get_cases Core.reset s.cores c with h | ⟨e, he, h⟩
  · exact ⟨congrArg Core.ecc h, congrArg Core.acmParity h⟩
  · exact ⟨(congrArg Core.ecc h).symm.trans (h5 e he).1, (congrArg Core.acmParity h).symm.trans (h5 e he).2⟩

/-- Whether core c of job j stands at its next command. -/
def inTurn (s : State) (j : Job) (c : Nat) : Bool :=
  decide (s.jobOn c = some j) && decide (s.clockStopped c = false) && decide ((s.core c).issued = [])
    && decide (blocked s c = false) && decide ((s.core c).nextSeq < j.desc.cmdCount)

/-- Whether a tile command stands at the head with no cause for refusal. -/
def atHead (s : State) (j : Job) (c : Nat) (h : Hdr) (i : Instr) : Bool :=
  inTurn s j c && decide ((s.core c).skip = 0) && decide (leastCause (headCauses s j c h i) = none)

/-- Whether a tile command may start at once. -/
def starts (s : State) (j : Job) (c : Nat) (h : Hdr) (i : Instr) : Bool :=
  atHead s j c h i && ((s.issued j c h i).issuedOf c h.seq.toNat).all (fun r => r.banks.all fun b => s.bankReady b.1)
    && ready (s.issued j c h i) ((headCx s j c h i).fresh (s.issued j c h i)) i

/-- Whether the memory operands of a tile command at the head are reached at once, as a Bool. -/
def opersNow (s : State) (j : Job) (c : Nat) (h : Hdr) (i : Instr) : Bool :=
  opersOk s (s.issued j c h i) (headCx s j c h i) i

/-- Whether a tile command may start with its memory operands reached at once. -/
def dataReady (s : State) (j : Job) (c : Nat) (h : Hdr) (i : Instr) : Bool :=
  starts s j c h i && formOk s && soundOk s && opersNow s j c h i && decide ((s.core c).check = none)

/-- Whether a command of the tile rows may start. -/
def rowsReady (s : State) (j : Job) (c : Nat) (h : Hdr) (i : Instr) (rows : List Nat) : Bool :=
  dataReady s j c h i && (rows.all fun t => decide (t ≤ if j.desc.replay then 255 else 511)) && !j.replayable

theorem inTurn_of {s : State} {j : Job} {c : Nat} (h : inTurn s j c = true) : InTurn s j c := by
  simp only [inTurn, Bool.and_eq_true, decide_eq_true_eq] at h
  exact ⟨h.1.1.1.1, h.1.1.1.2, h.1.1.2, h.1.2, h.2⟩

theorem atHead_of {s : State} {j : Job} {c : Nat} {hd : Hdr} {i : Instr} (h : atHead s j c hd i = true) :
    AtHead s j c hd i := by
  simp only [atHead, Bool.and_eq_true, decide_eq_true_eq] at h
  exact ⟨inTurn_of h.1.1, h.1.2, h.2⟩

theorem starts_of {s : State} {j : Job} {c : Nat} {hd : Hdr} {i : Instr} (h : starts s j c hd i = true) :
    Starts s j c hd i := by
  simp only [starts, Bool.and_eq_true, Option.all_eq_true, List.all_eq_true] at h
  exact ⟨atHead_of h.1.1, h.1.2, h.2⟩

theorem dataReady_of {s : State} {j : Job} {c : Nat} {hd : Hdr} {i : Instr} (h : dataReady s j c hd i = true) :
    DataReady s j c hd i := by
  simp only [dataReady, Bool.and_eq_true, decide_eq_true_eq] at h
  exact ⟨starts_of h.1.1.1.1, ordered_of h.1.1.1.2, faultless_of h.1.1.2, h.1.2, h.2⟩

theorem rowsReady_of {s : State} {j : Job} {c : Nat} {hd : Hdr} {i : Instr} {rows : List Nat}
    (h : rowsReady s j c hd i rows = true) : RowsReady s j c hd i rows := by
  simp only [rowsReady, Bool.and_eq_true, List.all_eq_true, decide_eq_true_eq, Bool.not_eq_true'] at h
  exact ⟨dataReady_of h.1.1, h.1.2, fun r => by rw [h.2] at r; exact absurd r (by decide)⟩

/-- The cells that an operand covers. -/
def cellsOf (s : State) (x : Cx) (p : Oper) : List MemCell :=
  (x.opnd p.write p.addr).elim [] fun o => p.runs.flatMap fun r =>
    (List.range r.2).filterMap fun k => operCell s x p.write o (r.1 + k)

/-- Whether the written operands of a command lie apart, from themselves and from its other operands. -/
def apartOk (s : State) (x : Cx) (i : Instr) : Bool :=
  (opersOf s x i).all fun p => !p.write ||
    (((x.opnd true p.addr).elim true fun o => decide (∀ r ∈ p.runs, ∀ r' ∈ p.runs, ∀ k < r.2, ∀ k' < r'.2,
      operCell s x true o (r.1 + k) = operCell s x true o (r'.1 + k') → r.1 + k = r'.1 + k')) &&
    (opersOf s x i).all fun q => decide (q = p) || (cellsOf s x p).all fun m => !q.covers s x m)

theorem mem_cellsOf {s : State} {x : Cx} {p : Oper} {m : MemCell} (h : p.covers s x m = true) : m ∈ cellsOf s x p := by
  unfold Oper.covers at h
  unfold cellsOf
  cases ho : x.opnd p.write p.addr with
  | none => simp [ho] at h
  | some o =>
    simp only [ho, Option.elim_some, List.any_eq_true, List.mem_range, decide_eq_true_eq] at h
    obtain ⟨r, hr, k, hk, e⟩ := h
    simp only [Option.elim_some, List.mem_flatMap, List.mem_filterMap, List.mem_range]
    exact ⟨r, hr, k, hk, e⟩

theorem apart_of {s : State} {x : Cx} {i : Instr} {b : Bool} (h : apartOk s x i = true) : Apart s x i b := by
  intro p hp hw
  have h1 := List.all_eq_true.mp h p hp
  simp only [hw, Bool.not_true, Bool.false_or, Bool.and_eq_true, List.all_eq_true, Bool.or_eq_true, decide_eq_true_eq,
    Bool.not_eq_true'] at h1
  refine ⟨fun o ho => ?_, fun q hq hn => .inr fun m hm => ?_⟩
  · have := h1.1
    simp only [ho, Option.elim_some, decide_eq_true_eq] at this
    exact this
  · rcases h1.2 q hq with h2 | h2
    · exact absurd h2 hn
    · exact h2 m (mem_cellsOf hm)

/-! ### Small states -/

/-- A code with values at structure bits. -/
def code (l : List (Nat × Nat)) : Code := BitVec.ofNat 256 (l.map fun p => p.2 * 2 ^ p.1).sum

/-- The header of a command at position n, with so many parameter records from prm 16 on. -/
def hdr (n prmN : Nat) : Hdr :=
  { hdrOf 0 with seq := BitVec.ofNat 16 n, prmN := BitVec.ofNat 2 prmN, prm := if prmN = 0 then 0 else 16 }

/-- A job of one core, with 8 commands and room for records behind them. -/
def job1 : Job :=
  { num := 1, ring := 0, idx := 0
    desc := { desc2 2 with coreCount := 1, cmdCount := 8, listStride := 16, epoch := 0xFFFFFFFF }
    phase := .running, status := none, flags := .none, faultCore := 0, faultSeq := 0, epoch := 0, frozen := []
    replays := 0, journalOk := true, journal := [], contained := none, tagWait := none, forceCheck := [], syncDevs := [], observed := []
    saved := [], savedCmds := [] }

/-- That job under replay. -/
def job1r : Job := { job1 with desc := { job1.desc with replay := true } }

/-- A core that runs job 1, with some bytes of its memory set and four slots FULL. -/
def core1 : Core :=
  { Core.reset with job := 1, seqState := .running, task := TaskRec.initial, mem := [(0, 3), (64, 5), (65, 1)]
                    full := [(0, true), (1, true), (2, true), (3, true)] }

/-- The power of a device whose cluster 0 runs. -/
def power1 : Power :=
  { Power.reset with clusters := { ClusterClk.reset with stopped := false } :: List.replicate 31 ClusterClk.reset }

/-- A device that runs job j on core 0, which stands as given; ring 0 may use every facet and its task spaces whole. -/
def devJ (j : Job) (k : Core) : State :=
  ((((({ State.reset with jobs := [j], cores := [(0, k)], power := power1 } : State).setReg (Reg.HQ_SQ_FACETS 0) 0xFFFFFFFF).setReg
    (Reg.HQ_LIM_END 0 0) 524288).setReg (Reg.HQ_LIM_END 0 1) 0x0F000000).setReg (Reg.HQ_LIM_END 0 2) 0x100000000).setReg
    (Reg.HQ_LIM_END 0 3) 0x100000000

/-- A device that runs job 1 on a core. -/
def dev (k : Core) : State := devJ job1 k

/-- The device at its first command. -/
def dev1 : State := dev core1

/-- What tests look at: the next state of a command. -/
def next (i : Instr) (s : State) : State :=
  match exec i s with
  | .next t => t
  | _ => State.reset

/-! ### Hypotheses that concrete states meet: tile commands of the sequencer -/

/-- SequencerOnlyCommands: NOP; PHASE of OP7; BALLAST FIXED of one cycle; TASK of a space with bound 0. -/
theorem wit_SequencerOnlyCommands : dev1.ordered ∧ AtHead dev1 job1 0 (hdr 0 0) (.nop 0 (hdr 0 0)) ∧
    AtHead dev1 job1 0 (hdr 0 0) (.phase 0 (hdr 0 0) 7) ∧
    AtHead dev1 job1 0 (hdr 0 0) (.ballastFixed 0 (hdr 0 0) ⟨15, true, true⟩ 1) ∧
    AtHead dev1 job1 0 (hdr 0 0) (.task 0 (hdr 0 0) ⟨3, 64, 0⟩) :=
  ⟨ordered_of (by decide +kernel), atHead_of (by decide +kernel), atHead_of (by decide +kernel), atHead_of (by decide +kernel),
    atHead_of (by decide +kernel)⟩

/-- WaitsOnCounter: both commands, with a condition that holds of counter 8,191 (at its bound 0) and one that does not. -/
theorem wit_WaitsOnCounter : dev1.ordered ∧ (dev1.core 0).waitOn = none ∧
    AtHead dev1 job1 0 (hdr 0 0) (.wait 0 (hdr 0 0) ⟨8191, 0, 0⟩) ∧ waitHolds ⟨8191, 0, 0⟩ (dev1.ctr 8191) = true ∧
    AtHead dev1 job1 0 (hdr 0 0) (.ballastUntil 0 (hdr 0 0) ⟨1, true, false⟩ ⟨8191, 0, 1⟩) ∧
    waitHolds ⟨8191, 0, 1⟩ (dev1.ctr 8191) = false :=
  ⟨ordered_of (by decide +kernel), by decide +kernel, atHead_of (by decide +kernel), by decide +kernel,
    atHead_of (by decide +kernel), by decide +kernel⟩

/-- Requests of core 0, command 0, of job 1 that no device has answered: a write and a SYNC. -/
def asked (p : Payload) : Request :=
  { txn := 0, dst := 1, job := 1, core := 0, seq := 0, offset := 0, sent := 0, payload := p, op := 0, busy := false, answer := none }

/-- FenceWaitsForAcknowledges: a FENCE that nothing holds, and one that a write through a window holds. -/
theorem wit_FenceWaitsForAcknowledges :
    let i := Instr.fence 0 (hdr 0 0) ⟨31, true, true⟩
    let s : State := { dev1 with requests := [asked (.wr false 0 [0])] }
    AtHead dev1 job1 0 (hdr 0 0) i ∧ dev1.unacked (headCx dev1 job1 0 (hdr 0 0) i) (fun _ => true) = false ∧
    s.ordered ∧ AtHead s job1 0 (hdr 0 0) i ∧ s.unacked (headCx s job1 0 (hdr 0 0) i) Request.isWrite = true :=
  ⟨atHead_of (by decide +kernel), by decide +kernel, ordered_of (by decide +kernel), atHead_of (by decide +kernel),
    by decide +kernel⟩

/-- The device with window 63 open for job 1, onto one word of device 1. -/
def devWin : State := { dev1 with windows := [(63, ⟨1, 1, false, 0, 64, true, true⟩)] }

/-- WindowsOpenAndClose: a free window opened; an open one of the job closed, and one that is not open. -/
theorem wit_WindowsOpenAndClose : devWin.ordered ∧
    AtHead devWin job1 0 (hdr 0 0) (.windowOpen 0 (hdr 0 0) ⟨0, true, true, true, 1, 0, 64⟩) ∧
    AtHead devWin job1 0 (hdr 0 0) (.windowClose 0 (hdr 0 0) 63) ∧ AtHead devWin job1 0 (hdr 0 0) (.windowClose 0 (hdr 0 0) 0) ∧
    devWin.requests = [] :=
  ⟨ordered_of (by decide +kernel), atHead_of (by decide +kernel), atHead_of (by decide +kernel), atHead_of (by decide +kernel),
    by decide +kernel⟩

/-- A local SYNC on counter 8,191 that stores the old value to the 8 bytes of its last word. -/
def sync0 : SyncArgs := { syncOf 0 with counter := 8191, fetch := true, res := 524280, operand := 1 }

/-- LocalSyncApplies and PostReachesMailbox: every operation, with fetch. -/
theorem wit_LocalSyncApplies : dev1.ordered ∧ dev1.faultless ∧ (∀ p ∈ syncRows 0 (hdr 0 0) sync0,
    Starts dev1 job1 0 (hdr 0 0) p.2 ∧ dev1.unacked (headCx dev1 job1 0 (hdr 0 0) p.2) Request.isWrite = false ∧
    opersReady dev1 job1 0 (hdr 0 0) p.2) ∧
    (∀ old, JRec.sync 0 0 old ∉ job1.journal) ∧ job1.replayable = false := by
  refine ⟨ordered_of (by decide +kernel), faultless_of (by decide +kernel), ?_, by simp [job1], by decide +kernel⟩
  have h : ((syncRows 0 (hdr 0 0) sync0).all fun p => starts dev1 job1 0 (hdr 0 0) p.2
    && !dev1.unacked (headCx dev1 job1 0 (hdr 0 0) p.2) Request.isWrite
    && opersNow dev1 job1 0 (hdr 0 0) p.2) = true := by decide +kernel
  intro p hp
  have := List.all_eq_true.mp h p hp
  simp only [Bool.and_eq_true, Bool.not_eq_true'] at this
  exact ⟨starts_of this.1.1, this.1.2, this.2⟩

/-- JournalledSyncIsNotRepeated: a replayed job whose log holds the identity. -/
theorem wit_JournalledSyncIsNotRepeated :
    let j : Job := { job1r with journal := [.open_, .sync 0 0 7] }
    let s := devJ j core1
    let i := Instr.syncCas 0 (hdr 0 0) sync0
    s.ordered ∧ s.faultless ∧ Starts s j 0 (hdr 0 0) i ∧ s.unacked (headCx s j 0 (hdr 0 0) i) Request.isWrite = false ∧
      j.journal.findSome? (oldOf 0 0) = some [7] ∧ opersNow s j 0 (hdr 0 0) i = true :=
  ⟨ordered_of (by decide +kernel), faultless_of (by decide +kernel), starts_of (by decide +kernel), by decide +kernel⟩

/-- JournalledPostIsNotRepeated: a replayed job whose log holds the POST. -/
theorem wit_JournalledPostIsNotRepeated :
    let j : Job := { job1r with journal := [.open_, .post 0 0 7] }
    let s := devJ j core1
    let i := Instr.syncPost 0 (hdr 0 0) sync0
    s.ordered ∧ s.faultless ∧ Starts s j 0 (hdr 0 0) i ∧ s.unacked (headCx s j 0 (hdr 0 0) i) Request.isWrite = false ∧
      j.journal.findSome? (postedBy 0 0) = some [7] ∧ opersNow s j 0 (hdr 0 0) i = true :=
  ⟨ordered_of (by decide +kernel), faultless_of (by decide +kernel), starts_of (by decide +kernel), by decide +kernel⟩

/-- PostReachesMailbox: with the operand and with the 8 bytes at res; a mailbox of 8 entries overflows. -/
theorem wit_PostReachesMailbox :
    let f : SyncArgs := { sync0 with postMem := true }
    let s : State := { dev1 with rings := [(0, { Ring.reset with mbox := List.replicate 8 0 })] }
    s.ordered ∧ s.faultless ∧ Starts s job1 0 (hdr 0 0) (.syncPost 0 (hdr 0 0) f) ∧
      Starts s job1 0 (hdr 0 0) (.syncPost 0 (hdr 0 0) sync0) ∧
      s.unacked (headCx s job1 0 (hdr 0 0) (.syncPost 0 (hdr 0 0) f)) Request.isWrite = false ∧
      (∀ o, JRec.post 0 0 o ∉ job1.journal) ∧ job1.replayable = false ∧
      opersNow s job1 0 (hdr 0 0) (.syncPost 0 (hdr 0 0) f) = true :=
  ⟨ordered_of (by decide +kernel), faultless_of (by decide +kernel), starts_of (by decide +kernel), starts_of (by decide +kernel),
    by decide +kernel, by simp [job1], by decide +kernel⟩

/-- A CLAIM on counter 8,190 with one bitmap counter, of the 64 indices that it has. -/
def claim0 : ClaimArgs := { claimFields 0 with counter := 8190, bm := 1, resEn := true, skip := 1, limit := 64, index := 63 }

/-- ClaimNextTakesTheLeastFreeIndex: the last free index of a bitmap; none free; no bitmap; a limit beyond the bitmap. -/
theorem wit_ClaimNextTakesTheLeastFreeIndex :
    let s : State := { State.reset with sync := [(8190, 5), (8191, 0x7FFFFFFFFFFFFFFF)] }
    let t : State := { s with sync := [(8190, 5), (8191, 0xFFFFFFFFFFFFFFFF)] }
    s.ordered ∧ claim0.counter.toNat + claim0.bm.toNat ≤ 8191 ∧ 64 * claim0.bm.toNat < 2 ^ 32 ∧
      (5 ≤ 63 ∧ 63 < claim0.limit.toNat ∧ s.claimBit 8190 63 = false ∧ ∀ k, 5 ≤ k → k < 63 → s.claimBit 8190 k = true) ∧
      (∀ k < 64, t.claimBit 8190 k = true) ∧ ((s.ctr 8189).toNat < claim0.limit.toNat) ∧
      64 * claim0.bm.toNat < ({ claim0 with limit := 65 } : ClaimArgs).limit.toNat := by
  refine ⟨ordered_of (by decide +kernel), by decide, by decide, ⟨by decide, by decide, by decide +kernel, ?_⟩, by decide +kernel⟩
  have : ∀ k < 63, ({ State.reset with sync := [(8190, 5), (8191, 0x7FFFFFFFFFFFFFFF)] } : State).claimBit 8190 k = true := by
    decide +kernel
  exact fun k _ hk => this k hk

/-- ClaimExplicitSetsItsBit: the last index with its bit clear and set, and an index at the limit. -/
theorem wit_ClaimExplicitSetsItsBit :
    let s : State := State.reset
    let t : State := { s with sync := [(8191, 0x8000000000000000)] }
    s.ordered ∧ t.ordered ∧ claim0.bm ≠ 0 ∧ claim0.limit.toNat ≤ 64 * claim0.bm.toNat ∧
      claim0.counter.toNat + claim0.bm.toNat ≤ 8191 ∧ claim0.index.toNat < claim0.limit.toNat ∧ s.claimBit 8190 63 = false ∧
      t.claimBit 8190 63 = true ∧ claim0.limit.toNat ≤ ({ claim0 with index := 64 } : ClaimArgs).index.toNat :=
  ⟨ordered_of (by decide +kernel), ordered_of (by decide +kernel), by decide +kernel⟩

/-- ClaimCompletes: both modes. -/
theorem wit_ClaimCompletes : dev1.ordered ∧ dev1.faultless ∧ (∀ i, i = Instr.claimNext 0 (hdr 0 0) claim0 ∨
      i = .claimExplicit 0 (hdr 0 0) claim0 → Starts dev1 job1 0 (hdr 0 0) i ∧
      dev1.unacked (headCx dev1 job1 0 (hdr 0 0) i) Request.isWrite = false ∧ opersNow dev1 job1 0 (hdr 0 0) i = true) ∧
    (∀ a e y, JRec.claim 0 0 a e y ∉ job1.journal) ∧ job1.replayable = false := by
  refine ⟨ordered_of (by decide +kernel), faultless_of (by decide +kernel), ?_, by simp [job1], by decide +kernel⟩
  rintro i (rfl | rfl)
  · exact ⟨starts_of (by decide +kernel), by decide +kernel⟩
  · exact ⟨starts_of (by decide +kernel), by decide +kernel⟩

/-! ### Hypotheses that concrete states meet: tile rows, facets, refractor -/

/-- AcminitSetsItsRows: all 512 rows; and the last of 256 pairs of a job under replay. -/
theorem wit_AcminitSetsItsRows :
    let f : AcminitArgs := ⟨0, 512, 1, 2, 0x3F800000⟩
    RowsReady dev1 job1 0 (hdr 0 0) (.acminit 0 (hdr 0 0) f) (acminitRows f) :=
  rowsReady_of (by decide +kernel)

/-- A core whose facet 31 (INT4) has the weights 1 and 2 in row 0, and a float tile row 511. -/
def coreF : Core :=
  { core1 with facets := [(31, { Facet.reset with state := .loaded, rows := [(0, 0x21)] })], acmWord := [(511, 0x01)] }

/-- A FIRE of facet 31 with one INT8 activation from slot 0, into row 511. -/
def fire0 : FireArgs :=
  { fireOf 0 with facet := 31, afmt := 4, kRows := 1, m := 1, mValid := 1, vpitch := 1, acmRow := 511, exp := 127 }

/-- FireContributesItsRuns: FIRE and FIRET into a float row, the exponent at its upper bound. -/
theorem wit_FireContributesItsRuns :
    let s := dev coreF
    wordMode ((s.core 0).rowAt false 511).word = 1 ∧ wordPolicy ((s.core 0).rowAt false 511).word ≠ 1 ∧
      ((s.core 0).facet 31).state = .loaded ∧ exponentIs s job1 0 fire0.expSel fire0.exp 127 ∧
      (∀ i, i = Instr.fire 0 (hdr 0 0) fire0 ∨ i = .firet 0 (hdr 0 0) fire0 →
        RowsReady s job1 0 (hdr 0 0) i [511] ∧ (headCx s job1 0 (hdr 0 0) i).sampled 1 = none) := by
  refine ⟨by decide +kernel, by decide +kernel, by decide +kernel, .inl (by decide), ?_⟩
  rintro i (rfl | rfl)
  · exact ⟨rowsReady_of (by decide +kernel), by decide +kernel⟩
  · exact ⟨rowsReady_of (by decide +kernel), by decide +kernel⟩

/-- RunsAreExactSums: all 1,024 rows of a facet whose last row is loaded. -/
theorem wit_RunsAreExactSums :
    let fc : Facet := { Facet.reset with rows := [(0, 0x21), (1023, 0xF)] }
    Sparse.wf 0 fc.rows = true ∧ (∀ r ∈ fc.rows, r.1 < 1024) ∧ 1024 ≤ 1024 := by
  refine (by decide +kernel)

/-- SampledVectorIsCaptured: parallax on with the least s, and a seed that samples. -/
theorem wit_SampledVectorIsCaptured :
    let s := ((dev coreF).setReg Reg.PLX_CTRL 1).setReg Reg.PLX_SEED 1
    let i := Instr.fire 0 (hdr 0 0) fire0
    RowsReady s job1 0 (hdr 0 0) i [511] ∧ ((s.core 0).facet 31).state = .loaded ∧
      wordMode ((s.core 0).rowAt false 511).word = 1 ∧ wordPolicy ((s.core 0).rowAt false 511).word ≠ 1 ∧
      (headCx s job1 0 (hdr 0 0) i).sampled 1 = some 0 ∧ fire0.refFmt = 0 ∧ exponentIs s job1 0 fire0.expSel fire0.exp 127 :=
  ⟨rowsReady_of (by decide +kernel), by decide +kernel, by decide +kernel, by decide +kernel, by decide +kernel, by decide,
    .inl (by decide)⟩

/-- SampledVectorIsCaptured, forced: the vector that a replay must check, which no draw samples. -/
theorem wit_SampledVectorIsCaptured_forced :
    let j : Job := { job1 with forceCheck := [(0, 0, 0)] }
    let s := devJ j coreF
    let i := Instr.fire 0 (hdr 0 0) fire0
    let x := headCx s j 0 (hdr 0 0) i
    RowsReady s j 0 (hdr 0 0) i [511] ∧ s.mustCheck x = some 0 ∧ x.sampled 1 = none :=
  ⟨rowsReady_of (by decide +kernel), by decide +kernel⟩

/-- A job that has frozen slot 1,023. -/
def jobZ : Job := { job1 with frozen := [⟨1023, -3, false, false, 0⟩] }

/-- An ACMOUT of one output of row 511, in FP32. -/
def acmout0 : AcmoutArgs :=
  { acmoutOf 0 0 with acmRow := 511, m := 1, mValid := 1, ofmt := 0xF, dst := 512, opitch := 4 }

/-- AcmoutWritesItsLines: without an anchor, and with one (to INT8) under a frozen slot, whose input slot is frozen too. -/
theorem wit_AcmoutWritesItsLines :
    let s := devJ jobZ coreF
    let a : AcmoutArgs := { acmout0 with ofmt := 4, slot := 1023, slotEn := true, inSlot := 1023, inSlotEn := true }
    (∀ f, f = acmout0 ∨ f = a → RowsReady s jobZ 0 (hdr 0 0) (.acmout 0 (hdr 0 0) f) (acmoutRows f) ∧ f.bs = 0 ∧
      acmoutN f ≤ (rowValues f.var 0 ((s.core 0).physRow ((s.core 0).readRowNo 1 false 511))).length ∧
      (headCx s jobZ 0 (hdr 0 0) (.acmout 0 (hdr 0 0) f)).opnd true f.dst = some ⟨0, 0, 512⟩) ∧
    anchorIs s jobZ 0 1023 (-3) := by
  refine ⟨?_, ⟨_, rfl, by decide +kernel⟩⟩
  rintro f (rfl | rfl)
  · exact ⟨rowsReady_of (by decide +kernel), by decide +kernel⟩
  · exact ⟨rowsReady_of (by decide +kernel), by decide +kernel⟩

/-- A REFMM of 1 × 1 × 2 INT8 elements into row 511. -/
def refmm0 : RefmmArgs := { refmmOf 0 0 with afmt := 4, bfmt := 4, apitch := 2, kM1 := 1, acmRow := 511, b := 64, bpitch := 1 }

/-- RefmmAddsTreeByTree: into an integer row, and into a float row. -/
theorem wit_RefmmAddsTreeByTree : ∀ k, k = core1 ∨ k = coreF →
    let s := dev k
    let i := Instr.refmm 0 (hdr 0 1) refmm0
    RowsReady s job1 0 (hdr 0 1) i [511] ∧ (headCx s job1 0 (hdr 0 1) i).opnd false refmm0.a = some ⟨0, 0, 0⟩ ∧
      (headCx s job1 0 (hdr 0 1) i).opnd false refmm0.b = some ⟨0, 0, 64⟩ ∧ fmtWidth 4 * RefmmK refmm0 ≤ 65536 ∧
      fmtWidth 4 * RefmmK refmm0 * RefmmN refmm0 ≤ 131072 ∧ wordMode (k.rowAt false 511).word =
        (if refmmInteger refmm0 (wordMode (k.rowAt false 511).word) then 0 else 1) ∧ wordPolicy (k.rowAt false 511).word ≠ 1 := by
  rintro k (rfl | rfl)
  · exact ⟨rowsReady_of (by decide +kernel), by decide +kernel⟩
  · exact ⟨rowsReady_of (by decide +kernel), by decide +kernel⟩

/-- A REFEW of two FP32 elements. -/
def refew0 (op : Nat) : RefewArgs :=
  { refewOf 0 0 with op := BitVec.ofNat 5 op, nM1 := 1, fmtA := 15, fmtB := 15, fmtC := 15, fmtO := if op = 11 then 4 else 15
                     slot := 1023, a := 0, b := 64, c := 128, out := 192 }

/-- RefewComputesElementwise: FMA with three sources; QUANT under a frozen slot; GELU_S, the last operation. -/
theorem wit_RefewComputesElementwise : ∀ op ∈ [3, 11, 21],
    let s := devJ jobZ core1
    let n := if op = 3 then 1 else 0
    let i := Instr.refew 0 (hdr 0 n) (refew0 op)
    DataReady s jobZ 0 (hdr 0 n) i ∧ anchorIs s jobZ 0 1023 (-3) ∧
      ((headCx s jobZ 0 (hdr 0 n) i).opnd true (refew0 op).out).isSome = true := by
  intro op h
  simp only [List.mem_cons, List.not_mem_nil, or_false] at h
  rcases h with rfl | rfl | rfl
  · exact ⟨dataReady_of (by decide +kernel), ⟨_, rfl, by decide +kernel⟩, by decide +kernel⟩
  · exact ⟨dataReady_of (by decide +kernel), ⟨_, rfl, by decide +kernel⟩, by decide +kernel⟩
  · exact ⟨dataReady_of (by decide +kernel), ⟨_, rfl, by decide +kernel⟩, by decide +kernel⟩

/-- A REDUCE of one line of two FP32 elements, into row 511 or, from mode 3 on, to byte 64. -/
def reduce0 (mode : Nat) : ReduceArgs :=
  { reduceOf 0 with mode := BitVec.ofNat 3 mode, sfmt := 15, nM1 := 1, acmRow := 511, lpitch := 8, out := 64
                    ofmt := if 3 ≤ mode ∧ mode ≤ 5 then 15 else 0 }

/-- ReduceFoldsItsLines: SUMSQ into a float row, MEANVAR into a row of statistics, MAX and ARGMAX to memory. -/
theorem wit_ReduceFoldsItsLines : ∀ mode ∈ [1, 2, 3, 6],
    let k : Core := { core1 with acmWord := [(511, if mode = 2 then 2 else 1)] }
    let i := Instr.reduce 0 (hdr 0 0) (reduce0 mode)
    RowsReady (dev k) job1 0 (hdr 0 0) i (reduceRows (reduce0 mode)) ∧
      (headCx (dev k) job1 0 (hdr 0 0) i).opnd false (reduce0 mode).src = some ⟨0, 0, 0⟩ ∧
      (headCx (dev k) job1 0 (hdr 0 0) i).opnd true (reduce0 mode).out = some ⟨0, 0, 64⟩ ∧
      (∀ t ∈ reduceRows (reduce0 mode), wordMode (k.rowAt false t).word = (if mode = 2 then 2 else 1) ∧
        wordPolicy (k.rowAt false t).word ≠ 1) := by
  intro mode h
  simp only [List.mem_cons, List.not_mem_nil, or_false] at h
  rcases h with rfl | rfl | rfl | rfl
  · exact ⟨rowsReady_of (by decide +kernel), by decide +kernel⟩
  · exact ⟨rowsReady_of (by decide +kernel), by decide +kernel⟩
  · exact ⟨rowsReady_of (by decide +kernel), by decide +kernel⟩
  · exact ⟨rowsReady_of (by decide +kernel), by decide +kernel⟩

/-! ### Hypotheses that concrete states meet: loads, exposures, transits, moves, sparse work -/

/-- A FLOAD of one row image from slot 0 into facet 31: of INT4, and of FP4 with its scales in slot 1. -/
def fload0 (fp4 : Bool) : FloadArgs :=
  { floadOf 0 with facet := 31, fmt := if fp4 then 8 else 2, rowFirst := if fp4 then 0 else 1023, rowCount := 1
                   pitch := 16, scale := if fp4 then 2048 else 0, src := 0 }

/-- FloadFillsItsFacet: the last row of an INT4 facet, and an FP4 facet whose 25 scale lines are FULL. -/
theorem wit_FloadFillsItsFacet : ∀ b : Bool,
    let s := dev { core1 with full := (List.range 64).map fun n => (n, true) }
    let i := Instr.fload 0 (hdr 0 0) (fload0 b)
    DataReady s job1 0 (hdr 0 0) i ∧ ((s.core 0).facet 31).state ≠ .faulty ∧
      (headCx s job1 0 (hdr 0 0) i).opnd false (fload0 b).src = some ⟨0, 0, 0⟩ ∧
      (headCx s job1 0 (hdr 0 0) i).opnd false 2048 = some ⟨0, 0, 2048⟩ := by
  intro b
  cases b
  · exact ⟨dataReady_of (by decide +kernel), by decide +kernel⟩
  · exact ⟨dataReady_of (by decide +kernel), by decide +kernel⟩

/-- A core whose first 64 bytes are the record of an exposure slot. -/
def coreE : Core := { core1 with mem := Sparse.setList 0 [] 0 { ExpoSlot.reset with valid := 1, hist := (-3) :: List.replicate 15 0 }.record }

/-- ExpoSavesRestoresClears: slot 1,023 cleared, saved to slot 3 of core memory, and restored from a good record. -/
theorem wit_ExpoSavesRestoresClears :
    let s := dev coreE
    let f : ExpoArgs := ⟨1023, 1, 0, 0⟩
    let g : ExpoArgs := ⟨1023, 1, 0, 192⟩
    (∀ q, JRec.expo 0 q ∉ job1.journal) ∧ job1.replayable = false ∧
      DataReady s job1 0 (hdr 0 0) (.expoClear 0 (hdr 0 0) f) ∧ DataReady s job1 0 (hdr 0 0) (.expoSave 0 (hdr 0 0) g) ∧
      Apart s (headCx s job1 0 (hdr 0 0) (.expoSave 0 (hdr 0 0) g)) (.expoSave 0 (hdr 0 0) g) false ∧
      DataReady s job1 0 (hdr 0 0) (.expoRestore 0 (hdr 0 0) f) ∧
      (readExpo (bytesIn s s (headCx s job1 0 (hdr 0 0) (.expoRestore 0 (hdr 0 0) f)) false ⟨0, 0, 0⟩ 0 64)).toOption.isSome = true :=
  ⟨by simp [job1], by decide +kernel, dataReady_of (by decide +kernel), dataReady_of (by decide +kernel),
    apart_of (by decide +kernel), dataReady_of (by decide +kernel), by decide +kernel⟩

/-- A TRANSIT of row 511 on chain 7, to core 1. -/
def transit0 (role : Nat) : TransitArgs :=
  { transitOf 0 with chain := 7, role := BitVec.ofNat 2 role, succCore := 1, acmRow := 511, tseq := 1 }

/-- A message for core 0 with one integer row. -/
def staged0 : StagedTransit := ⟨0, 7, 1, [⟨0, List.replicate 64 1⟩]⟩

/-- TransitSendsAndMerges: SEND to a core that accepts, and to one that has merged that tile; MERGE and MERGE_SEND with a message
in the receive buffer. -/
theorem wit_TransitSendsAndMerges :
    let s := dev { core1 with rxBuf := [staged0] }
    let u := s.modCore 1 fun k => { k with chains := [(7, 1)] }
    (∀ role ∈ [0, 1, 2], RowsReady s job1 0 (hdr 0 0) (.transit 0 (hdr 0 0) (transit0 role)) (transitRows (transit0 role))) ∧
      RowsReady u job1 0 (hdr 0 0) (.transit 0 (hdr 0 0) (transit0 0)) (transitRows (transit0 0)) ∧
      (s.core 1).accepts 7 1 = true ∧ (s.core 1).rxRows + 1 ≤ 16 ∧ (u.core 1).accepts 7 1 = false ∧
      s.nextTransit 0 7 = some staged0 ∧ staged0 ∈ (s.core 0).rxBuf ∧ (s.core 0).accepts 7 1 = true ∧
      job1.mergedRows 0 7 1 = none ∧ job1.replayable = false ∧ wordMode ((s.core 0).rowAt false 511).word = 0 := by
  refine ⟨?_, rowsReady_of (by decide +kernel), by decide +kernel⟩
  intro role h
  simp only [List.mem_cons, List.not_mem_nil, or_false] at h
  rcases h with rfl | rfl | rfl
  · exact rowsReady_of (by decide +kernel)
  · exact rowsReady_of (by decide +kernel)
  · exact rowsReady_of (by decide +kernel)

/-- A MOVE of two bytes from slot 0 to slot 2. -/
def move0 : MoveArgs :=
  { moveOf 0 0 0 with esize := 2, fmt := 4, src := 0, dst := 128, n0 := 2, n1 := 1, n2 := 1, vL := 1, vE := 1 }

/-- Whether the lines of a MOVE lie apart. -/
def linesOk (m : MoveMode) (f : MoveArgs) : Bool :=
  let l := (List.range (moveN2 f)).flatMap fun i2 => (List.range (dstShape m f).1).map fun i1 => (i2, i1)
  l.all fun p => l.all fun q => decide (p = q ∨ dstLine f p.1 p.2 + moveLineBytes m f ≤ dstLine f q.1 q.2 ∨
    dstLine f q.1 q.2 + moveLineBytes m f ≤ dstLine f p.1 p.2)

theorem linesApart_of {m : MoveMode} {f : MoveArgs} (h : linesOk m f = true) : linesApart m f := by
  intro i2 h2 i1 h1 k2 g2 k1 g1
  have hp : (i2, i1) ∈ (List.range (moveN2 f)).flatMap fun i2 => (List.range (dstShape m f).1).map fun i1 => (i2, i1) := by
    simp [h2, h1]
  have hq : (k2, k1) ∈ (List.range (moveN2 f)).flatMap fun i2 => (List.range (dstShape m f).1).map fun i1 => (i2, i1) := by
    simp [g2, g1]
  have := of_decide_eq_true (List.all_eq_true.mp (List.all_eq_true.mp h _ hp) _ hq)
  simpa using this

/-- MoveCopiesItsElements: PLAIN; TILE with one byte of padding; TRANSPOSE into two lines. -/
theorem wit_MoveCopiesItsElements :
    let f : MoveArgs := { move0 with dstS1 := 1 }
    (∀ i, i = Instr.movePlain 0 (hdr 0 0) move0 ∨ i = .moveTile 0 (hdr 0 1) f ∨ i = .moveTranspose 0 (hdr 0 1) f →
      ∃ h, tileOf i = some (0, h) ∧ DataReady dev1 job1 0 h i ∧ Apart dev1 (headCx dev1 job1 0 h i) i false) ∧
    linesApart .plain move0 ∧ linesApart .tile f ∧ linesApart .transpose f ∧ f.vE.toNat ≤ 1 ∧ f.bs = 0 := by
  refine ⟨?_, linesApart_of (by decide +kernel), linesApart_of (by decide +kernel), linesApart_of (by decide +kernel), by decide⟩
  rintro i (rfl | rfl | rfl)
  · exact ⟨_, rfl, dataReady_of (by decide +kernel), apart_of (by decide +kernel)⟩
  · exact ⟨_, rfl, dataReady_of (by decide +kernel), apart_of (by decide +kernel)⟩
  · exact ⟨_, rfl, dataReady_of (by decide +kernel), apart_of (by decide +kernel)⟩

/-- The tile of one row of two INT4 weights, 1 and -1. -/
def tile0 : List Byte := compressTile 2 1 2 [0xF1]

/-- MoveCompressesAndExpands: one row image compressed into slot 2, and a tile in slot 0 expanded into slot 2. -/
theorem wit_MoveCompressesAndExpands :
    let s := dev { core1 with mem := Sparse.setList 0 [] 0 tile0 }
    let f : MoveArgs := { move0 with fmt := 2 }
    let i := Instr.moveCompress 0 (hdr 0 0) f
    let k := Instr.moveExpand 0 (hdr 0 0) f
    let x := headCx s job1 0 (hdr 0 0) k
    DataReady dev1 job1 0 (hdr 0 0) i ∧ Apart dev1 (headCx dev1 job1 0 (hdr 0 0) i) i false ∧
      DataReady s job1 0 (hdr 0 0) k ∧ Apart s x k false ∧ x.opnd false f.src = some ⟨0, 0, 0⟩ ∧
      x.opnd true f.dst = some ⟨0, 0, 128⟩ ∧ ∃ hd, readHeader (bytesIn s s x false ⟨0, 0, 0⟩ 0 16) = some hd ∧
        reaches s x false ⟨0, 0, 0⟩ 0 hd.length = true := by
  refine ⟨dataReady_of (by decide +kernel), apart_of (by decide +kernel), dataReady_of (by decide +kernel),
    apart_of (by decide +kernel), by decide +kernel, by decide +kernel, ⟨2, false, 1, 2, 2, 27⟩, by decide +kernel⟩

/-- ExpandUndoesCompress: one row of 32 INT4 weights. -/
theorem wit_ExpandUndoesCompress : 2 ∈ [0, 1, 2, 4] ∧ 0 < ([0xF1] : List RowImage).length ∧
    ([0xF1] : List RowImage).length ≤ 1024 ∧ 0 < 32 ∧ 32 ≤ facetL 2 := by decide

/-- A core that may use 4,096 bytes of shared memory, with a table descriptor in slot 0 (two FP32 rows of one element, both in
their hot copy at shared-memory byte 0), the indices 1 and 5 in slot 1, and 1.0 in slot 2. -/
def coreT : Core :=
  let table : Code := code [(48, 15), (64, 2), (128, 4), (160, 2)]
  { core1 with task := { TaskRec.initial with shBound := 4096 }
               mem := Sparse.setList 0 (Sparse.setList 0 (Sparse.setList 0 [] 0 (toBytes 32 table.toNat)) 64 [1, 0, 0, 0, 5])
                 128 [0, 0, 0x80, 0x3F] }

/-- That table. -/
def table0 : Table := { base := 0, fmt := 15, rows := 2, width := 1, pitch := 4, hotRows := 2, hotBase := 0 }

/-- A GATHER EMB of one bag of two positions, the second out of range, into slot 3. -/
def emb0 : GatherEmbArgs :=
  { embOf 0 0 with ofmt := 15, nIdxM1 := 1, lbM1 := 1, opitch := 4, tdesc := 0, idx := 64, out := 192 }

/-- GatherEmbPoolsBags: a bag with one position in range; its row and the operands lie apart. -/
theorem wit_GatherEmbPoolsBags :
    let s := dev coreT
    let i := Instr.gatherEmb 0 (hdr 0 1) emb0
    let x := headCx s job1 0 (hdr 0 1) i
    DataReady s job1 0 (hdr 0 1) i ∧ x.opnd false emb0.tdesc = some ⟨0, 0, 0⟩ ∧
      readTable (bytesIn s s x false ⟨0, 0, 0⟩ 0 32) = .ok table0 ∧ x.opnd false emb0.idx = some ⟨0, 0, 64⟩ ∧
      x.opnd true emb0.out = some ⟨0, 0, 192⟩ ∧ indexIn s x ⟨0, 0, 64⟩ false 0 = 1 ∧ indexIn s x ⟨0, 0, 64⟩ false 1 = 5 ∧
      reaches s x false (table0.row 1) 0 table0.rowBytes = true ∧ Apart s x i false ∧
      (∀ k < table0.rowBytes, ∀ q ∈ opersOf s x i, q.write = true →
        (operCell s x false (table0.row 1) k).elim true (fun m => !q.covers s x m) = true) ∧ s.fld Reg.GLB_SPE_CTRL 0 1 = 0 :=
  ⟨dataReady_of (by decide +kernel), by decide +kernel, by decide +kernel, by decide +kernel, by decide +kernel, by decide +kernel,
    by decide +kernel, by decide +kernel, apart_of (by decide +kernel), by decide +kernel⟩

/-- GatherSptContributesItsRuns: one vector of one tile, into a float row. -/
theorem wit_GatherSptContributesItsRuns :
    let s := dev { coreF with mem := Sparse.setList 0 [] 0 tile0 }
    let f : GatherSptArgs := { sptOf 0 with afmt := 4, acmRow := 511, vpitch := 1, vec := 64 }
    let i := Instr.gatherSpt 0 (hdr 0 0) f
    let x := headCx s job1 0 (hdr 0 0) i
    RowsReady s job1 0 (hdr 0 0) i [511] ∧ x.opnd false f.tile = some ⟨0, 0, 0⟩ ∧ x.opnd false f.vec = some ⟨0, 0, 64⟩ ∧
      readHeader (bytesIn s s x false ⟨0, 0, 0⟩ 0 16) = some ⟨2, false, 1, 2, 2, 27⟩ ∧
      wordMode ((s.core 0).rowAt false 511).word = 1 ∧ wordPolicy ((s.core 0).rowAt false 511).word ≠ 1 ∧
      exponentIs s job1 0 f.expSel f.exp 0 :=
  ⟨rowsReady_of (by decide +kernel), by decide +kernel, by decide +kernel, by decide +kernel, by decide +kernel,
    by decide +kernel, .inl (by decide)⟩

/-- An UPDATE of row 1 by α = 1 times the delta in slot 2. -/
def update0 (range : Bool) : UpdateArgs :=
  { updateOf 0 0 with formRange := range, alpha := 0x3F800000, dpitch := 4, tdesc := 0, delta := 128
                      idx := if range then 1 else 64 }

/-- UpdateReplacesItsRows: by an index array, and by a range. -/
theorem wit_UpdateReplacesItsRows : ∀ b : Bool,
    let s := dev coreT
    let i := Instr.update 0 (hdr 0 1) (update0 b)
    let x := headCx s job1 0 (hdr 0 1) i
    DataReady s job1 0 (hdr 0 1) i ∧ x.opnd false (update0 b).tdesc = some ⟨0, 0, 0⟩ ∧
      readTable (bytesIn s s x false ⟨0, 0, 0⟩ 0 32) = .ok table0 ∧ table0.rows * table0.width < 2 ^ 40 ∧
      x.opnd false (update0 b).delta = some ⟨0, 0, 128⟩ ∧ indexIn s x ⟨0, 0, 64⟩ false 0 = 1 ∧
      reaches s x true (table0.row 1) 0 table0.rowBytes = true ∧ job1.batches 0 0 = [] ∧
      (∀ k < table0.rowBytes, ∀ q ∈ opersOf s x i,
        (operCell s x true (table0.row 1) k).elim true (fun m => !q.covers s x m) = true) := by
  intro b
  cases b
  · exact ⟨dataReady_of (by decide +kernel), by decide +kernel⟩
  · exact ⟨dataReady_of (by decide +kernel), by decide +kernel⟩

/-- RefusedCommandEndsItsJob: a command whose sequence number is not its position (cause 3), in a core that skips or does not. -/
theorem wit_RefusedCommandEndsItsJob : tileOf (.nop 0 (hdr 1 0)) = some (0, hdr 1 0) ∧ dev1.ordered ∧ InTurn dev1 job1 0 ∧
    job1.status = none ∧
    leastCause (causes dev1 (rowsOf dev1 (headCx dev1 job1 0 (hdr 1 0) (.nop 0 (hdr 1 0)))) job1 0 (hdr 1 0) (.nop 0 (hdr 1 0)))
      = some 3 :=
  ⟨rfl, ordered_of (by decide +kernel), inTurn_of (by decide +kernel), by decide +kernel⟩

/-- SkippedCommandHasNoEffect: the last command that a CLAIM has the core skip. -/
theorem wit_SkippedCommandHasNoEffect :
    let s := dev { core1 with skip := 1 }
    tileOf (.nop 0 (hdr 0 0)) = some (0, hdr 0 0) ∧ s.ordered ∧ InTurn s job1 0 ∧ 0 < (s.core 0).skip ∧
    leastCause (causes s (rowsOf s (headCx s job1 0 (hdr 0 0) (.nop 0 (hdr 0 0)))) job1 0 (hdr 0 0) (.nop 0 (hdr 0 0))) = none :=
  ⟨rfl, ordered_of (by decide +kernel), inTurn_of (by decide +kernel), by decide +kernel⟩

/-! ### Hypotheses that concrete states meet: rings, jobs and notices -/

/-- A device that has booted, whose rings 0 (priority 1) and 1 (priority 0) are in use with 16 entries each. -/
def ready0 (jobs : List Job) (cores : Sparse Core) : State :=
  ((({ State.reset with jobs := jobs, cores := cores, power := power1
                        uarid := { Uarid.reset with booted := true, ready := true, lifecycle := 1 } } : State).setReg
    (Reg.HQ_SQ_CTRL 0) 0x45).setReg (Reg.HQ_SQ_CTRL 1) 0x41).setReg (Reg.HQ_LIM_END 0 1) 0x0F000000

/-- A job of ring 1 that waits for core 0. -/
def jobW : Job := { job1 with num := 0, ring := 1, phase := .waiting, desc := { job1.desc with coreStride := 1, version := 2 } }

/-- DoorbellsMoveTheirIndices: tails and heads that a ring of 16 entries takes, and the first ones that it does not. -/
theorem wit_DoorbellsMoveTheirIndices :
    let s := ready0 [] []
    let u : State := { s with power := { s.power with state := .doze } }
    let r := s.ring 0
    s.ordered ∧ s.power.state = .run ∧ s.ringEn 0 = true ∧ s.ringSize 0 = 16 ∧
      s.unfetched 0 + (15 + 16 - r.sqTail % 16) % 16 < 16 ∧ 16 ≤ (16 : BitVec 16).toNat ∧
      (0 + 16 - r.cqHead % 16) % 16 ≤ r.cqUsed ∧ r.cqUsed < (1 + 16 - r.cqHead % 16) % 16 ∧
      u.ordered ∧ u.power.state ≠ .run :=
  ⟨ordered_of (by decide +kernel), by decide +kernel, by decide +kernel, by decide +kernel, by decide +kernel, by decide,
    by decide +kernel, by decide +kernel, ordered_of (by decide +kernel), by decide +kernel⟩

/-- DescriptorFetchAddsAJob: a descriptor that passes its checks (of one core and 8 commands in shared memory, any epoch), one of
epoch 1, current, staged or neither, and one of all zeros. -/
theorem wit_DescriptorFetchAddsAJob :
    let v := fun (epoch : Nat) => 2 + 2 * 2 ^ 124 + 2 ^ 140 + 2 ^ 152 + 16 * 2 ^ 176 + 8 * 2 ^ 192 + epoch * 2 ^ 224
    let s := fun (v : Nat) => ({ ready0 [] [] with
      host := Sparse.setList 0 [] 0 (toBytes 64 v), rings := [(0, { Ring.reset with sqTail := 1 })] } : State)
    let staged : State := { s (v 1) with cfg := { (s 0).cfg with staged := some ⟨1, [], 0, 0, none⟩ } }
    (s (v 0xFFFFFFFF)).ordered ∧ (s 0).ordered ∧ staged.ordered ∧ (s 0).mayFetch 0 = true ∧
      (s (v 0xFFFFFFFF)).mayFetch 0 = true ∧ staged.mayFetch 0 = true ∧
      (s 0).descOk 0 (desc2 0) = false ∧ (s 0).descOk 0 (desc2 (v 0xFFFFFFFF)) = true ∧ (desc2 (v 1)).epoch = 1 ∧
      (s 0).descOk 0 (desc2 (v 1)) = true ∧ (s 0).cfg.cur ≠ 1 ∧ (s 0).cfg.staged = none :=
  ⟨ordered_of (by decide +kernel), ordered_of (by decide +kernel), ordered_of (by decide +kernel), by decide +kernel⟩

/-- AdmissionTakesTheBestRank and AdmittedJobStarts: a waiting job of each of two rings, for different cores. -/
theorem wit_AdmittedJobStarts :
    let k : Job := { jobW with ring := 0, desc := { jobW.desc with coreFirst := 1 } }
    let s := ready0 [k, jobW] []
    s.ordered ∧ s.toAdmit = some jobW ∧ jobW.replayable = false ∧ (∀ q ∈ s.jobs, q.ring = 1 → q.idx = 0 → q = jobW) ∧
      s.findJob 1 = none :=
  ⟨ordered_of (by decide +kernel), by decide +kernel⟩

/-- EndedJobIsReported: a job that has ended with BAD_CMD on its core; its ring's tail stands at the last entry. -/
theorem wit_EndedJobIsReported :
    let j : Job := { job1 with status := some .badCmd, phase := .stopped }
    let s : State := { ready0 [j] [(0, core1)] with rings := [(0, { Ring.reset with cqTail := 15 })] }
    s.ordered ∧ (1 : Word32) ≠ 0 ∧ s.findJob 1 = some j ∧ s.settled j = true ∧ (s.ring 0).aborting = false ∧ j.syncDevs = [] ∧
      ∀ c ∈ s.coresOf j, (s.core c).check = none :=
  ⟨ordered_of (by decide +kernel), by decide +kernel⟩

/-- FinishedJobIsReportedOk: a job whose core stands behind its last command, with a frozen slot that an anchor named, a dirty
pair, and a done counter. -/
theorem wit_FinishedJobIsReportedOk :
    let j : Job := { job1 with frozen := [⟨1023, 0, true, true, 1⟩], observed := [⟨0, 7, 1023, 3⟩]
                               desc := { jobW.desc with doneEn := true, doneCtr := 8191, cmdCount := 8 } }
    let s := ready0 [j] [(0, { core1 with nextSeq := 8, dirty := [(255, [1])] })]
    s.ordered ∧ s.findJob 1 = some j ∧ j.replayable = false ∧ (j.frozen.map (·.slot)).Nodup ∧ s.settled j = true ∧
      s.finished j = true ∧ (s.ring 0).aborting = false ∧ j.syncDevs = [] ∧ j.cores.Nodup ∧
      ∀ c ∈ j.cores, (s.core c).group = none ∧ (s.core c).waitOn = none :=
  ⟨ordered_of (by decide +kernel), by decide +kernel⟩

/-- A device on which job 1 of ring 0, of priority 1, holds core 0, whose save area lies in one page that is held. -/
def devP (phase : JobPhase) (saved : List (Nat × Core)) (k : Core) (waiting : List Job) : State :=
  ({ ready0 ({ job1 with phase := phase, saved := saved } :: waiting) [(0, k)] with
    lastJob := 1, tlb := [(0, some (5, true))] } : State).setReg (Reg.HQ_SAVE_BASE 0) 64

/-- PreemptSuspendsAndStarts: a waiting job of ring 1, of priority 0, that needs core 0. -/
theorem wit_PreemptSuspendsAndStarts :
    let s := devP .running [] core1 [jobW]
    s.ordered ∧ s.faultless ∧ s.preemptor 1 = some jobW ∧ jobW.replayable = false ∧ s.victims jobW = [job1] ∧
      s.jobAtBoundary job1 = true ∧ (job1.ring ≠ jobW.ring) ∧
      (∀ a ∈ saveAddrs (s.saveArea 0 0), a < 2 ^ 48 ∧ placeOpen s true (.stacked a) = true) ∧
      ((s.victims jobW).map (·.num)).Nodup ∧ (∀ k ∈ s.jobs, k.ring = 1 → k.idx = 0 → k = jobW) ∧ s.findJob 2 = none :=
  ⟨ordered_of (by decide +kernel), faultless_of (by decide +kernel), by decide +kernel⟩

/-- ResumeRestoresContexts: that job pre-empted, with its core free. -/
theorem wit_ResumeRestoresContexts :
    let p : Job := { job1 with phase := .preempted, saved := [(0, core1)] }
    let s := devP .preempted [(0, core1)] { Core.reset with seqState := .preempted } []
    s.ordered ∧ s.faultless ∧ s.findJob 1 = some p ∧ s.resumable p = true ∧ (p.saved.map (·.1)).Nodup ∧
      ∀ c ∈ p.cores, ∀ a ∈ saveAddrs (s.saveArea p.ring c), a < 2 ^ 48 ∧ placeOpen s false (.stacked a) = true :=
  ⟨ordered_of (by decide +kernel), faultless_of (by decide +kernel), by decide +kernel⟩

/-- RingsStartAndStop: ring 31 not in use; rings in use without a job, and with one that has not started. -/
theorem wit_RingsStartAndStop :
    let s := ready0 [jobW] []
    s.ordered ∧ s.ringEn 31 = false ∧ s.ringEn 0 = true ∧ s.jobsOf 0 = [] ∧ s.jobsOf 1 = [jobW] ∧ jobW.unstarted = true ∧
      jobW.status = none :=
  ⟨ordered_of (by decide +kernel), by decide +kernel⟩

/-- A device whose event ring has 16 entries, so many of them used. -/
def devQ (used dropped : Nat) : State := { State.reset.setReg Reg.HQ_EQ_CTRL 9 with eq := ⟨0, used % 16, used, true, dropped⟩ }

/-- EventsReachTheRingOrAreCounted: a ring with one free entry, a full one, and one not in use. -/
theorem wit_EventsReachTheRingOrAreCounted : (devQ 15 0).ordered ∧ (devQ 16 1).ordered ∧ (devQ 15 0).eqEnabled = true ∧
    (devQ 15 0).eqSize = 16 ∧ (devQ 15 0).eq.used < 16 ∧ 16 ≤ (devQ 16 1).eq.used ∧ State.reset.eqEnabled = false :=
  ⟨ordered_of (by decide +kernel), ordered_of (by decide +kernel), by decide +kernel⟩

/-- EventRingMailboxAndVectors: a ring not in use; a head that releases all entries of a full ring after losses, and one entry
without; a mailbox with an entry and an empty one; an idle notice due; a masked vector. -/
theorem wit_EventRingMailboxAndVectors :
    let s : State := { (ready0 [] []).setReg (Reg.HQ_SQ_CTRL 0) 0xA41 with
      ticks := 1000000000, rings := [(0, { Ring.reset with noticed := false, cqUsed := 1, mbox := [7] })]
      vectors := [(0, ⟨false, true⟩)] }
    State.reset.ordered ∧ State.reset.eqEnabled = false ∧ State.reset.uarid.fallback = false ∧
      (15 + 16 - (devQ 16 1).eq.head % 16) % 16 ≤ (devQ 16 1).eq.used ∧ (devQ 16 1).eq.dropped ≠ 0 ∧
      (1 + 16 - (devQ 1 0).eq.head % 16) % 16 ≤ (devQ 1 0).eq.used ∧ (devQ 1 0).eq.dropped = 0 ∧
      s.ordered ∧ (s.ring 0).mbox = [7] ∧ (s.ring 1).mbox = [] ∧ s.idleDue 0 = true ∧ (s.vector 0).masked = false :=
  ⟨ordered_of (by decide +kernel), by decide +kernel, by decide +kernel, by decide +kernel, by decide, by decide +kernel, by decide,
    ordered_of (by decide +kernel), by decide +kernel⟩

/-! ### Hypotheses that concrete states meet: facet care, parallax, containment -/

/-- A device whose core 0 scrubs, with one LOADED facet 31 as given, next to be visited at row r. -/
def devS (g : Facet) (ctrl r : Nat) : State :=
  (dev { core1 with facets := [(31, g)], scrubFacet := 31, scrubRow := r, scrubDue := true }).setReg (Reg.FCT_CTRL 0) (BitVec.ofNat 64 ctrl)

/-- A LOADED facet of zeros; and one whose row 1,023 fails its parity in segment 7, covered by a load record of zeros in shared
memory. -/
def clean0 : Facet := { Facet.reset with state := .loaded }
def dirty0 : Facet :=
  { clean0 with rowParity := [(1023, 0x80)], record := some ⟨0x2000000000000000, 16, 2, 1023, 1, 0, 0, 1024, false, false⟩ }

/-- ScrubReadVisitsTheNextRow: no read due, and with the clock stopped; row 1,023 clean; a first failure there with and without refills;
a second failure; row 0 of a clean FP4 facet. -/
theorem wit_ScrubReadVisitsTheNextRow :
    let bad2 : Facet := { dirty0 with marks := [1023] }
    let fp4 : Facet := { clean0 with fmt := 8 }
    (State.reset.core 0).scrubDue = false ∧ State.reset.clockStopped 0 = true ∧
      (∀ g ∈ [clean0, dirty0, bad2], (devS g 0x82 1023).ordered ∧ (devS g 0x82 1023).fld (Reg.FCT_CTRL 0) 1 1 = 1 ∧
        ((devS g 0x82 1023).core 0).scrubDue = true ∧ (devS g 0x82 1023).clockStopped 0 = false ∧ (devS g 0x82 1023).module.fatal = false ∧
        ((devS g 0x82 1023).core 0).scrubNext = some (31, 1023) ∧ (devS g 0x82 1023).fld (Reg.FCT_CTRL 0) 7 1 = 1) ∧
      (devS dirty0 2 1023).fld (Reg.FCT_CTRL 0) 7 1 = 0 ∧ clean0.badSegment 1023 = none ∧ dirty0.badSegment 1023 = some 7 ∧
      1023 ∉ dirty0.marks ∧ 1023 ∈ bad2.marks ∧ dirty0.refillable 1023 = true ∧
      ((devS fp4 2 0).core 0).scrubNext = some (31, 0) ∧ fp4.badSegment 0 = none ∧
      ∀ j < 25, fp4.expParityOf j = Sparse.get false fp4.expParity j := by
  refine ⟨by decide +kernel, by decide +kernel, ?_, by decide +kernel⟩
  intro g h
  simp only [List.mem_cons, List.not_mem_nil, or_false] at h
  rcases h with rfl | rfl | rfl
  · exact ⟨ordered_of (by decide +kernel), by decide +kernel⟩
  · exact ⟨ordered_of (by decide +kernel), by decide +kernel⟩
  · exact ⟨ordered_of (by decide +kernel), by decide +kernel⟩

/-- Facets that wait for a refill: of row 1,023, and of the last entry of an FP4 exponent store. -/
def refill0 (exps : Bool) : Facet :=
  { clean0 with
    refills := [⟨if exps then 1048 else 1023, 0, 0⟩], fmt := if exps then 8 else 2
    record := some ⟨0x2000000000000000, 16, if exps then 8 else 2, if exps then 0 else 1023, 1, 0x2000000000001000, 16, 1024, true, false⟩ }

/-- RefillWritesTheRecordedRow: either refill, from shared memory; and one that a pending check of the facet holds. -/
theorem wit_RefillWritesTheRecordedRow (b : Bool) :
    let s := devS (refill0 b) 2 0
    let l := (refill0 b).record.getD ⟨0, 0, 0, 0, 0, 0, 0, 0, false, false⟩
    s.ordered ∧ s.faultless ∧ (refill0 b).refills = [⟨if b then 1048 else 1023, 0, 0⟩] ∧ (refill0 b).record = some l ∧
      s.refillWaits 0 31 = false ∧ (refill0 b).refillable (if b then 1048 else 1023) = true ∧
      (b = false → recordOpen s 0 l.src (l.pitch * (1023 - l.rowFirst)) 16) ∧
      (b = true → l.fmt = 8 ∧ ∀ j < 25, recordOpen s 0 l.scale (64 * j) (ceilDiv l.rowCount l.blk)) := by
  cases b
  · exact ⟨ordered_of (by decide +kernel), faultless_of (by decide +kernel), rfl, rfl, by decide +kernel, by decide +kernel,
      fun _ k _ => rfl, fun h => absurd h (by decide)⟩
  · exact ⟨ordered_of (by decide +kernel), faultless_of (by decide +kernel), rfl, rfl, by decide +kernel, by decide +kernel,
      fun h => absurd h (by decide), fun _ => ⟨rfl, fun j _ k _ => rfl⟩⟩

/-- A captured vector of one INT8 activation 3 on facet 31 of coreF, with a reference or none, under PLX_CTRL as given. -/
def check0 (ref : Option Nat) (plx : Word64) (off : Int) : Check :=
  { job := 1, seq := 0, firet := false, facet := 31, vector := 0, valid := ref.isSome, kRows := 1, nOut := 32, afmt := 4
    elems := [3], runs := ((coreF.facet 31).runs [3] 1).map (· + off), exp := 0, zpRef := 0, refFmt := 15
    refs := [ref.getD 0], rows := [511], plx := plx, forced := false, urgent := false }

/-- A device on which that check of core 0 is pending. -/
def devC (p : Check) (strikes : BitVec 32) : State := dev { coreF with check := some p, strikes := strikes }

/-- ParallaxChecksDecide: no reference; a reference equal to the activation, one too far by the soft threshold only, one too far by
both; a false run of a facet without and with a strike; a check made urgent, or not, holds a refill of its facet. -/
theorem wit_ParallaxChecksDecide :
    let g := coreF.facet 31
    let rho := fun (p : Check) (lim : Int) => ((p.wide g).map fun w => Val.lt (.of ⟨1, lim⟩) w.1)
    let pass := check0 (some 0x40400000) 0 0
    let soft := check0 (some 0x42C80000) (15 * 2 ^ 9) 0
    let alarm := check0 (some 0x42C80000) 0 0
    let hard := check0 none 0 1
    (∀ p ∈ [check0 none 0 0, pass, soft, alarm, hard], (devC p 0).ordered ∧ ((devC p 0).core 0).check = some p) ∧
      (check0 none 0 0).exact g = (check0 none 0 0).runs ∧ (check0 none 0 0).wide g = none ∧ rho pass 0 = some false ∧
      rho soft 0 = some true ∧ rho soft 15 = some false ∧ rho alarm 0 = some true ∧ hard.exact g ≠ hard.runs ∧
      (devC hard 0xFFFFFFFF).ordered ∧ (devC hard 0).findJob 1 = some job1 ∧ job1.status = none ∧ job1.contained = none ∧
      g.state ≠ .faulty ∧ (devC pass 0).refillWaits 0 31 = true := by
  refine ⟨?_, by decide +kernel, by decide +kernel, by decide +kernel, by decide +kernel, by decide +kernel, by decide +kernel,
    by decide +kernel, ordered_of (by decide +kernel), by decide +kernel⟩
  intro p h
  simp only [List.mem_cons, List.not_mem_nil, or_false] at h
  rcases h with rfl | rfl | rfl | rfl | rfl
  · exact ⟨ordered_of (by decide +kernel), by decide +kernel⟩
  · exact ⟨ordered_of (by decide +kernel), by decide +kernel⟩
  · exact ⟨ordered_of (by decide +kernel), by decide +kernel⟩
  · exact ⟨ordered_of (by decide +kernel), by decide +kernel⟩
  · exact ⟨ordered_of (by decide +kernel), by decide +kernel⟩

/-- RescaleRetryGoesBackToTheAnchor: a group at its third re-run that has overflowed, with a dirty pair of its job and a command
before the anchor still under way. -/
theorem wit_RescaleRetryGoesBackToTheAnchor :
    let g : RescaleGroup := ⟨⟨2, some 1023, TaskRec.initial, 0, false, false, 0, 0, [255]⟩, [255], 3, true, none⟩
    let s := devJ job1r { core1 with
      group := some g, nextSeq := 5, dirty := [(255, [1])], issued := [dev1.issueRecord job1 0 (.nop 0 (hdr 0 0)) (hdr 0 0)] }
    s.ordered ∧ (s.core 0).group = some g ∧ s.jobOn 0 = some job1r ∧ g.overflow = true ∧
      ∀ e ∈ (s.core 0).issued, g.anchor.seq ≤ e.seq → e.done = true :=
  ⟨ordered_of (by decide +kernel), by decide +kernel⟩

/-- ContainedJobReplaysOrEnds: a replayable job after two replays and after three, and one that is not replayable. -/
theorem wit_ContainedJobReplaysOrEnds :
    let j := fun (replay : Bool) (n : Nat) =>
      ({ (if replay then job1r else job1) with phase := .stopped, contained := some ⟨1, 0, 0, 0⟩, replays := n } : Job)
    (∀ p ∈ [(true, 2), (true, 3), (false, 0)], let q := j p.1 p.2
      let s := devJ q core1
      s.ordered ∧ s.findJob 1 = some q ∧ q.contained = some ⟨1, 0, 0, 0⟩ ∧ q.status = none ∧ s.drained q = true ∧ s.settled q = true ∧
      s.module.fatal = false ∧ s.coresOwn q = true ∧ s.power.state = .run) ∧
      (j true 2).replayable = true ∧ (j false 0).replayable = false := by
  refine ⟨?_, by decide⟩
  intro p h
  simp only [List.mem_cons, List.not_mem_nil, or_false] at h
  rcases h with rfl | rfl | rfl
  · exact ⟨ordered_of (by decide +kernel), by decide +kernel⟩
  · exact ⟨ordered_of (by decide +kernel), by decide +kernel⟩
  · exact ⟨ordered_of (by decide +kernel), by decide +kernel⟩

/-- The record of a NOP that has started at tick 0. -/
def issued0 : Issued := { (dev1.issueRecord job1 0 (.nop 0 (hdr 0 0)) (hdr 0 0)) with started := true }

/-- WatchdogAndFatalFaultStop: a command without progress since tick 0, long after. -/
theorem wit_WatchdogAndFatalFaultStop :
    let s : State := { dev { core1 with issued := [issued0], nextSeq := 1 } with ticks := 1000000000 }
    s.ordered ∧ s.jobOn 0 = some job1 ∧ s.stuck job1 0 = some issued0 ∧ job1.status = none ∧ job1.contained = none ∧
      s.module.fatal = false :=
  ⟨ordered_of (by decide +kernel), by decide +kernel⟩

/-! ### Hypotheses that concrete states meet: translation, memory and registers from the host -/

/-- A page request of command 0 of job 1, of the last group of its kind. -/
def pageReq0 (host : Bool) : PageReq := ⟨63, host, 0x200000, true, 1, 0, 0, 0, 0, 0, false⟩

/-- PageAnswersSettleRequests: a request of each kind, of a job that executes; a group with no request; just before and at the
timeout of 1 ms that the least setting gives. -/
theorem wit_PageAnswersSettleRequests (host : Bool) :
    let s := fun (n : Nat) => ({ dev1.setReg Reg.GLB_FLT_CTRL 0 with pageReqs := [pageReq0 host], ticks := n } : State)
    (s 0).ordered ∧ (s 0).pageReq 63 host = some (pageReq0 host) ∧ (s 0).pageReq 62 host = none ∧ (s 0).findJob 1 = some job1 ∧
      job1.status = none ∧ ((s 0).pageReqs.find? fun q => decide (q.group = 63) && !q.answered) = some (pageReq0 host) ∧
      1000000 * max 1 ((s 0).fld Reg.GLB_FLT_CTRL 16 16) ≤ (s 1000000).ticks - (pageReq0 host).raised ∧
      (s 999999).ticks - (pageReq0 host).raised < 1000000 * max 1 ((s 0).fld Reg.GLB_FLT_CTRL 16 16) := by
  cases host
  · exact ⟨ordered_of (by decide +kernel), by decide +kernel⟩
  · exact ⟨ordered_of (by decide +kernel), by decide +kernel⟩

/-- TranslationsAndStackedMemoryFromTheHost: a good slot and a poisoned one; a latched high half. -/
theorem wit_TranslationsAndStackedMemoryFromTheHost :
    let s : State := { State.reset with stackedEcc := [(0, .poisoned)], latches := [(Reg.SMC_PHYS_DATA, some 7)] }
    s.ordered ∧ Sparse.get Ecc.good s.stackedEcc ((s.reg Reg.SMC_PHYS_ADDR).toNat / 64) = .poisoned ∧
      State.reset.ordered ∧ Sparse.get Ecc.good State.reset.stackedEcc ((State.reset.reg Reg.SMC_PHYS_ADDR).toNat / 64) = .good ∧
      s.latch Reg.SMC_PHYS_DATA = some 7 :=
  ⟨ordered_of (by decide +kernel), by decide +kernel, ordered_of (by decide +kernel), by decide +kernel⟩

/-- The device after reset with bank 59 in a mode. -/
def devB (mode : Nat) : State := State.reset.setFld (Reg.SHM_PWR_MODE 3) 22 2 mode

/-- SharedMemoryAndItsBanks: the last byte below 0x0F00_0000 and the first above; bank 59 in each mode and state, just before and
at the times that its rules set. -/
theorem wit_SharedMemoryAndItsBanks :
    let due := fun (s : State) => s.bank 59 = .on ∧ s.booked 59 = false ∧ (s.bankMode 59 = 2 ∨
        (s.bankMode 59 = 1 ∧ 10 * s.fld Reg.SHM_IDLE 0 16 ≤ 14 * (s.ticks - Sparse.get 0 s.bankIdle 59)))
    let off := next (.bankOffDecision 59) (devB 2)
    let waking := fun (n : Nat) => ({ State.reset with banks := [(59, .waking 0)], ticks := n } : State)
    State.reset.ordered ∧ State.reset.faultless ∧ 0 < (1 : BitVec 13).toNat ∧
      (0x0EFFFFFF : BitVec 28).toNat + (1 : BitVec 13).toNat ≤ 0x0F000000 ∧
      0x0F000000 < (0x0F000000 : BitVec 28).toNat + (1 : BitVec 13).toNat ∧
      due (devB 2) ∧ ¬ due (devB 0) ∧
      due ({ devB 1 with ticks := 10000000 } : State) ∧ off.bank 59 = .off ∧
      (waking 0).ordered ∧ (waking 0).bank 59 = .waking 0 ∧ 14 * 2925 < 40960 ∧ 40960 ≤ 14 * 2926 :=
  ⟨ordered_of (by decide +kernel), faultless_of (by decide +kernel), by decide, by decide, by decide, by decide +kernel,
    by decide +kernel, by decide +kernel, by decide +kernel, ordered_of (by decide +kernel), by decide +kernel⟩

/-- RegistersFromTheHost: a counter of core 0's block read by its halves and cleared, a 32-bit register written, an access of the
wrong size; core 0 awake with its clock running, with its clock stopped, and asleep. -/
theorem wit_RegistersFromTheHost :
    let ctr := Reg.FCT_VECTORS 0
    let doze : State := { State.reset with power := { Power.reset with state := .doze } }
    let row := (regRow ctr).getD ⟨0, 0, 0, false, 0, 0, 0, true⟩
    dev1.ordered ∧ reachedNow dev1 ctr ∧ regRow ctr = some row ∧ row.wide = true ∧ row.derived = false ∧ ctr % 4 = 0 ∧
      ctr ≠ Reg.HQ_EQ_LOST ∧ regRow (ctr + 4) = none ∧ (ctr + 4) % 8 = 4 ∧ reachedNow dev1 (ctr + 4) ∧
      (clearSpan (coreReg 0 0x428)).isSome = true ∧
      storing (Reg.FCT_CTRL 0) ∧ Reg.FCT_CTRL 0 % 4 = 0 ∧ reachedNow dev1 (Reg.FCT_CTRL 0) ∧ accessOk ctr 2 = false ∧
      (coreOffset ctr).isSome = true ∧ State.reset.power.state = .run ∧ State.reset.clockStopped 0 = true ∧
      doze.ordered ∧ doze.power.state ≠ .run := by
  have reach : ∀ off, coreOffset off = none ∨ (coreOffset off).map (·.1) = some 0 → reachedNow dev1 off := by
    intro off h c o e
    rw [e] at h
    obtain rfl : c = 0 := by simpa using h
    exact (by decide +kernel)
  exact ⟨ordered_of (by decide +kernel), reach _ (by decide +kernel), by decide +kernel, by decide +kernel, by decide +kernel,
    by decide +kernel, by decide +kernel, by decide +kernel, by decide +kernel, reach _ (by decide +kernel), by decide +kernel,
    ⟨(regRow (Reg.FCT_CTRL 0)).getD ⟨0, 0, 0, false, 0, 0, 0, true⟩, by decide +kernel⟩,
    by decide +kernel, reach _ (by decide +kernel), by decide +kernel, by decide +kernel, by decide +kernel, by decide +kernel,
    ordered_of (by decide +kernel), by decide +kernel⟩

/-! ### Hypotheses that concrete states meet: the fabric -/

/-- A port that is UP on four lanes. -/
def port0 : Port := { Port.reset with state := .up, active := 15, healthy := 15 }

/-- Device 1 of three on the x axis, with both ports of that axis UP, its counters 8,190 and 8,191 open to others, and its shared
memory exported up to 0x1000. -/
def devF (q : Port) : State :=
  ((({ dev1 with ports := [(0, q), (1, q)] } : State).setReg Reg.NRN_TOPO (2 + 2 ^ 12)).setReg Reg.SYN_REMOTE_FIRST 8190).setReg
    Reg.SYN_REMOTE_COUNT 2 |>.setReg Reg.SHM_EXPORT_LIMIT 0x1000

/-- A header from device 2, by port 0, for this device, with the tag 0 that is current at reset, or another. -/
def from2 (tag : Nat) : MsgHdr := ⟨some 0, false, 1, 2, 5, BitVec.ofNat 32 tag⟩

/-- A remote SYNC ADD of a replayable job on counter n. -/
def sync2 (n : Nat) (op : Nat) : SyncMsg := ⟨BitVec.ofNat 4 op, BitVec.ofNat 13 n, true, true, 0, 1, 0, 9, 3, 4⟩

/-- A transit of one row for core c. -/
def transit2 (c : Nat) : TransitMsg := ⟨7, BitVec.ofNat 12 c, 1, [⟨0, List.replicate 64 1⟩]⟩

/-- RequestsAreServedAtTheirTarget: arrival with a good and a wrong tag; counters in and outside the open range; a known identity; the
last core and the first that is none, a full staging store and a tile merged before; the last exported byte and one beyond; asleep. -/
theorem wit_RequestsAreServedAtTheirTarget :
    let s := devF port0
    let known : State := { s with identities := [⟨2, 9, 3, 4, 7⟩] }
    let full : State := { s with staging := List.replicate 64 staged0 }
    let broken : State := { s with identityBroken := [2 * 2 ^ 24 + 9] }
    let again : SyncMsg := { sync2 8191 0 with replays := 1 }
    let dup := s.modCore 2047 fun k => { k with chains := [(7, 1)] }
    let doze : State := { s with power := { s.power with state := .doze } }
    s.ordered ∧ known.ordered ∧ full.ordered ∧ dup.ordered ∧ doze.ordered ∧ Arrived s (from2 0) ∧ Arrived s (from2 1) ∧
      tagGood s (from2 0) ∧ ¬ tagGood s (from2 1) ∧ needsRun (.transit (transit2 0)) = true ∧ doze.power.state ≠ .run ∧
      s.openCtr 0 8191 = true ∧ s.openCtr 0 8189 = false ∧ ctrOpOf (sync2 8191 6).op.toNat = some .cas ∧ 7 ≤ (sync2 8191 7).op.toNat ∧ broken.identityBroken ≠ [] ∧ again.replays ≠ 0 ∧
      s.identityBroken = [] ∧ s.identities = [] ∧ (known.identities.find? fun i =>
        decide (i.dev = 2 ∧ i.job = 9 ∧ i.core = 3 ∧ i.seq = 4)).isSome = true ∧
      2047 < (transit2 2048).core.toNat ∧ (transit2 2047).core.toNat ≤ 2047 ∧ 64 ≤ full.staging.length ∧ s.staging.length < 64 ∧
      (dup.core 2047).accepts 7 1 = false ∧ (s.core 2047).accepts 7 1 = true ∧
      s.exported 0 false 0xFFF 1 = true ∧ s.exported 0 false 0x1000 1 = false ∧ s.faultless ∧
      placeOpen s true (remotePlace false 0xFFF 0) = true := by
  have good : ∀ n, Arrived (devF port0) (from2 n) := fun n =>
    ⟨⟨0, rfl, by decide +kernel⟩, show (1 : Nat) = (devF port0).selfDev by decide +kernel,
      show (2 : Nat) ≠ (devF port0).selfDev by decide +kernel⟩
  refine ⟨ordered_of (by decide +kernel), ordered_of (by decide +kernel), ordered_of (by decide +kernel), ordered_of (by decide +kernel),
    ordered_of (by decide +kernel), good 0, good 1, .inl (by decide +kernel), ?_, by decide, by decide +kernel, by decide +kernel,
    by decide +kernel, by decide +kernel, by decide, by decide +kernel, by decide +kernel, by decide +kernel, by decide +kernel,
    by decide +kernel, by decide, by decide,
    by decide +kernel, by decide +kernel, by decide +kernel, by decide +kernel, by decide +kernel, by decide +kernel,
    faultless_of (by decide +kernel), by decide +kernel⟩
  rintro (h | ⟨e, h, _⟩)
  · exact absurd h (by decide +kernel)
  · have : (devF port0).cfg.retiring = none := by decide +kernel
    rw [this] at h; exact absurd h (by simp)

/-- Whether a request of job 1 waits for its response, as a Bool. -/
def waitingOk (s : State) (r : Request) : Bool :=
  decide (s.findReq r.txn = some r) && decide (s.findJob r.job = some job1) && !r.isJobend

theorem waiting_of {s : State} {r : Request} (h : waitingOk s r = true) : Waiting s r job1 := by
  simp only [waitingOk, Bool.and_eq_true, decide_eq_true_eq, Bool.not_eq_true'] at h
  exact ⟨h.1.1, h.1.2, rfl, rfl, rfl, h.2⟩

/-- ResponsesReachTheirRequests: a write, a SYNC, one with a replay count, and a JOBEND that wait; a busy TRANSIT just before and at its 1 µs; a message for
device 0 that goes on by port 1. -/
theorem wit_ResponsesReachTheirRequests :
    let s := fun (p : Payload) (busy : Bool) (n : Nat) =>
      ({ devF port0 with requests := [{ asked p with txn := 5, dst := 2, busy := busy }], ticks := n } : State)
    let wr : Payload := .wr false 0 [1]
    let sy : Payload := .sync (sync2 0 0)
    let again : Payload := .sync { sync2 0 0 with replays := 1 }
    let tr : Payload := .transit (transit2 0)
    let q := fun (p : Payload) (b : Bool) => ({ asked p with txn := 5, dst := 2, busy := b } : Request)
    (∀ p ∈ [wr, sy, tr, .jobend 1], (s p false 0).ordered ∧ (s p false 0).arrives (from2 0) = true ∧
      (from2 0).dst.toNat = (s p false 0).selfDev ∧ (s p false 0).findReq 5 = some (q p false) ∧ (s p false 0).findReq 4 = none) ∧
      Waiting (s wr false 0) (q wr false) job1 ∧ Waiting (s sy false 0) (q sy false) job1 ∧
      Waiting (s again false 0) (q again false) job1 ∧ (sync2 0 0).replays = 0 ∧ (q (.jobend 1) false).isJobend = true ∧
      job1.replayable = false ∧ (s tr true 999).ordered ∧ (s tr true 999).findReq 5 = some (q tr true) ∧
      (s tr true 999).ticks - 0 < 1000 ∧ 1000 ≤ (s tr true 1000).ticks - 0 ∧
      (s wr false 10000000000).overdue (q wr false) = true ∧ (s wr false 0).overdue (q wr false) = false ∧
      (s tr true 0).inTorus 2 = true ∧ (s tr true 0).route none false 2 = some (0, false) ∧ (s tr true 0).downLong 0 = false ∧
      (devF port0).route (some 0) false 0 = some (1, false) ∧ (devF port0).downLong 1 = false := by
  refine ⟨?_, waiting_of (by decide +kernel), waiting_of (by decide +kernel), waiting_of (by decide +kernel), by decide,
    by decide, by decide, ordered_of (by decide +kernel), by decide +kernel⟩
  intro p h
  simp only [List.mem_cons, List.not_mem_nil, or_false] at h
  rcases h with rfl | rfl | rfl | rfl
  · exact ⟨ordered_of (by decide +kernel), by decide +kernel⟩
  · exact ⟨ordered_of (by decide +kernel), by decide +kernel⟩
  · exact ⟨ordered_of (by decide +kernel), by decide +kernel⟩
  · exact ⟨ordered_of (by decide +kernel), by decide +kernel⟩

/-- A device whose port 0 stands as given, enabled or not. -/
def devO (q : Port) (en : Nat) : State := (devF q).setFld (Reg.NRN_PORT_CTRL 0) 0 1 en

/-- PortsTrainAndRetrain: a port not enabled, one that is DOWN when its retry time has come, one UP; a HELLO of the right neighbour and
of another in training, with common lanes and none; retrains after two fruitless ones with something unacknowledged; SLOW and FAST. -/
theorem wit_PortsTrainAndRetrain :
    let down := devO { Port.reset with retryAt := 0 } 1
    let tr := devO { port0 with state := .training } 1
    let re := devO { port0 with state := .retrain, noProgress := 2, txNext := 1 } 1
    let re0 := devO { port0 with state := .retrain } 1
    let low := devO { port0 with state := .low, active := 1, priorActive := 15 } 1
    (∀ s ∈ [devO port0 0, devO port0 1, down, tr, re, re0, low], formOk s = true) ∧ (devO port0 0).portEn 0 = false ∧
      (devO port0 1).portEn 0 = true ∧ ((devO port0 1).port 0).open_ = true ∧ (down.port 0).state = .down ∧ down.portEn 0 = true ∧
      (down.port 0).retryAt ≤ down.ticks ∧ (down.port 0).open_ = false ∧ (devO port0 1).lanesAllowed 0 ≠ 0 ∧
      (15 : BitVec 4) &&& (devO port0 1).lanesAllowed 0 ≠ 0 ∧ (tr.port 0).state = .training ∧ tr.neighbourDev 0 = 2 ∧
      (15 : BitVec 4) &&& 8 ≠ 0 ∧ (15 : BitVec 4) &&& 0 = 0 ∧ (re.port 0).state = .retrain ∧
      ackedAt (re.port 0) 1023 = (re.port 0).txAcked ∧ (re.port 0).txNext ≠ (re.port 0).txAcked ∧ 3 ≤ (re.port 0).noProgress + 1 ∧
      (re0.port 0).state = .retrain ∧ (low.port 0).state = .low ∧ low.power.state ≠ .dormant ∧
      (let sleep : State := { tr with power := { tr.power with state := .dormant } }
       sleep.asleep = true ∧ formOk sleep = true ∧ (sleep.port 0).state = .training) ∧ tr.asleep = false := by
  decide +kernel

/-- FlitsLanesAndOutages: a port not open; the next flit, one behind, one ahead and one that fails its check; the eighth nak with the
same ack; 10 µs without progress and just before; a retrain without HELLO before
and after 50 µs, its first and its third; a lane over its limit and none; a port long down with a message in its queue. -/
theorem wit_FlitsLanesAndOutages :
    let closed := devO Port.reset 1
    let s := fun (n : Nat) => ({ devO { port0 with txNext := 1, sameNaks := 7, lastNakAck := 1023 } 1 with ticks := n } : State)
    let m : QMsg := { hdr := ownHdr closed 2 0 0, len := 8, payload := .jobend 1 }
    let re := fun (n k : Nat) => ({ devO { port0 with state := .retrain, noProgress := k } 1 with ticks := n } : State)
    let long : State := { devO { Port.reset with queue := [m] } 1 with ticks := 10000000000 }
    (∀ u ∈ [closed, s 0, long, re 0 0], formOk u = true) ∧ ((re 0 2).port 0).state = .retrain ∧
      (re 49999 0).ticks - ((re 49999 0).port 0).retrainAt < 50000 ∧ 50000 ≤ (re 50000 2).ticks - ((re 50000 2).port 0).retrainAt ∧
      2 ≤ ((re 50000 2).port 0).noProgress ∧ ((re 50000 0).port 0).noProgress < 2 ∧ (closed.port 0).open_ = false ∧ ((s 0).port 0).open_ = true ∧
      (((s 0).port 0).rxExpected + 1024 - 0) % 1024 = 0 ∧ (((s 0).port 0).rxExpected + 1024 - 1023) % 1024 = 1 ∧
      512 < (((s 0).port 0).rxExpected + 1024 - 1) % 1024 ∧ ackedAt ((s 0).port 0) 1023 = ((s 0).port 0).txAcked ∧
      8 ≤ ((s 0).port 0).sameNaks + 1 ∧ ((s 0).port 0).txNext ≠ ((s 0).port 0).txAcked ∧
      10000 ≤ (s 10000).ticks - ((s 0).port 0).lastProgress ∧ (s 9999).ticks - ((s 0).port 0).lastProgress < 10000 ∧
      ((s 0).port 0).active.getLsbD 3 = true ∧ laneFails (s 0) 0 3 ⟨0, 1000000⟩ = true ∧ laneFails (s 0) 0 3 ⟨0, 0⟩ = false ∧
      long.downLong 0 = true ∧ (long.port 0).queue ≠ [] ∧ (s 0).downLong 0 = false := by
  decide +kernel

/-- DeviceTimeFollowsItsParent: a closed port and an open one; a child in an exchange with its parent at port 0, whose answers make
small, early and late offsets; an exchange 1 ms ago and just before. -/
theorem wit_DeviceTimeFollowsItsParent :
    let q : Port := { port0 with neighbour := some ⟨29, true, 0⟩ }
    let b := (devF q).time
    let s := fun (n : Nat) => ({ devF q with
      ticks := n, time := { b with parent := some 0, depth := 30, state := .locked, exchange := some ⟨0, 6, 0, 0, 0⟩ } } : State)
    let m : TimeMsg := ⟨0, 29, true, 0, 6⟩
    (∀ n ∈ [0, 1000000], formOk (s n) = true) ∧ ((s 0).port 0).open_ = true ∧ ((s 0).port 2).open_ = false ∧
      (s 0).timeMaster = false ∧ (s 0).time.exchange = some ⟨0, 6, 0, 0, 0⟩ ∧ ((s 0).hearTime 0 m).time.parent = some 0 ∧
      (next (.timeSync 0 m) (s 0)).time.parent = some 0 ∧ (next (.timeSync 1 m) (s 0)).time.parent ≠ some 1 ∧
      ((0 - (0 : Int)) / 2).natAbs * 10 ≤ 4096 * (s 0).timePeriod ∧
      ¬ ((0 - (2 ^ 71 : Int)) / 2).natAbs * 10 ≤ 4096 * (s 0).timePeriod ∧ (0 - (2 ^ 71 : Int)) / 2 < 0 ∧
      0 < ((2 ^ 71 - 0) - (0 - 0) : Int) / 2 ∧
      1000000 ≤ (s 1000000).ticks - (s 0).time.lastDone ∧ (s 999999).ticks - (s 0).time.lastDone < 1000000 := by
  decide +kernel

/-! ### Hypotheses that concrete states meet: epochs, persistent registers, beats, pools -/

/-- A device (the master of its time) whose configuration block stands as given, with STAGE_EPOCH n. -/
def devE (c : Cfg) (n : Nat) : State :=
  (({ State.reset with cfg := c } : State).setReg Reg.CFG_STAGE_EPOCH (BitVec.ofNat 64 n)).setReg Reg.NRN_TIME_CTRL 1

/-- The configuration after reset, and that with epoch 1 staged, to be applied at a time. -/
def cfg0 : Cfg := State.reset.cfg
def cfg1 (arm : Nat) : Cfg := { cfg0 with staged := some ⟨1, [(Reg.PLX_SEED, 5)], 0, 0, none⟩, armTime := arm }

/-- EpochsAreStagedArmedAndApplied: a list with a register of no epoch, one that has worn out, and good ones; numbers at both ends of
the range and outside; a full list; armed times too soon, off the beat, good; applied and cancelled in and out of time; an epoch
that retires, is kept for its time, and is kept for a job. -/
theorem wit_EpochsAreStagedArmedAndApplied :
    let s := devE { cfg0 with stageList := [(Reg.PLX_SEED, 5)] } 1
    let bad := devE { cfg0 with stageList := [(4, 5)] } 1
    let worn : State := { devE { cfg0 with stageList := [(Reg.CFG_PREG 0, 5)] } 1 with pregs := [(0, { Preg.reset with wear := 100000 })] }
    let full := devE { cfg0 with stageList := (List.range 256).map fun n => (n + 8, 0) } 1
    let ports : State := { devE (cfg1 0) 2 with ports := [(0, port0)] }
    let free : State := (devE (cfg1 0) 2).setReg Reg.NRN_TIME_CTRL 0
    let at_ := fun (u : State) (n : Nat) => u.setReg Reg.CFG_STAGE_TIME (BitVec.ofNat 64 n)
    let ret := devE { cfg0 with retiring := some ⟨0, [], 0, 0, none⟩ } 2
    let late : State := { ret with time := { ret.time with now := 256 * (ret.beatNs * 2 ^ 40) } }
    let off : State := { ret with time := { ret.time with now := 256 * (ret.beatNs * 2 ^ 40 + 1) } }
    let job : State := { late with jobs := [job1] }
    (∀ u ∈ [s, bad, worn, full, ports, free, ret, late, job], formOk u = true) ∧
      (∀ x ∈ s.cfg.stageList, x.1 ∈ epochOffsets) ∧ 4 ∉ epochOffsets ∧ s.cfg.cur.toNat < s.fld Reg.CFG_STAGE_EPOCH 0 32 ∧
      (devE cfg0 0xFFFFFFFE).fld Reg.CFG_STAGE_EPOCH 0 32 ≠ 0xFFFFFFFF ∧ (devE cfg0 0xFFFFFFFF).fld Reg.CFG_STAGE_EPOCH 0 32 = 0xFFFFFFFF ∧
      s.cfg.retiring = none ∧ s.cfg.staged = none ∧ pregAt (Reg.CFG_PREG 0) = some 0 ∧ (worn.preg 0).worn = true ∧
      256 ≤ full.cfg.stageList.length ∧ (s.reg Reg.CFG_STAGE_OFFSET).toNat ∉ s.cfg.stageList.map (·.1) ∧
      (s.setReg Reg.CFG_STAGE_OFFSET (BitVec.ofNat 64 Reg.PLX_SEED)).reg Reg.CFG_STAGE_OFFSET = BitVec.ofNat 64 Reg.PLX_SEED ∧
      ports.anyPort = true ∧ free.anyPort = false ∧ free.time.state = .free ∧ free.timeMaster = false ∧ ports.timeMaster = true ∧
      ((at_ ports 0).reg Reg.CFG_STAGE_TIME).toNat < ports.deviceTime + 5 * ports.beatNs ∧
      ports.deviceTime + 5 * ports.beatNs + 1 < 2 ^ 64 ∧ (ports.deviceTime + 5 * ports.beatNs) % ports.beatNs = 0 ∧
      (ports.deviceTime + 5 * ports.beatNs + 1) % ports.beatNs ≠ 0 ∧
      (cfg1 1).armTime ≠ 0 ∧ (cfg1 1).armTime < (devE (cfg1 1) 2).deviceTime + (devE (cfg1 1) 2).beatNs ∧
      ¬ (devE (cfg1 0) 2).cfg.armTime ≠ 0 ∧ late.deviceTime ≥ 1 ∧
      ret.deviceTime < ret.cfg.appliedAt + ret.fld Reg.CFG_EPOCH_CTRL 0 12 * ret.beatNs ∧
      late.cfg.appliedAt + late.fld Reg.CFG_EPOCH_CTRL 0 12 * late.beatNs ≤ late.deviceTime ∧
      late.deviceTime % late.beatNs = 0 ∧ off.deviceTime % off.beatNs ≠ 0 ∧ job1.num ≠ 0 ∧ job1.epoch = 0 := by
  decide +kernel

/-- PersistentRegistersAndDirectWrites: register 55, the last that the host writes, worn out or not, at rest and while it is
programmed; programs that bring the wear to 90,000 and to 100,000; a direct write to a register of no epoch, and to PLX_SEED. -/
theorem wit_PersistentRegistersAndDirectWrites :
    let p : Preg := { Preg.reset with programming := some 7, wear := 89999 }
    let s := fun (q : Preg) => ({ State.reset with pregs := [(55, q)] } : State)
    (∀ q ∈ [p, { p with wear := 99999 }, { p with wear := 100000 }], formOk (s q) = true) ∧ p.programming = some 7 ∧
      p.durable.passes = true ∧ ((s p).preg 55).worn = false ∧ ((s { p with wear := 100000 }).preg 55).worn = true ∧
      p.wear + 1 = 90000 ∧ ((s p).preg 54).programming = none ∧ epochTarget 4 4 = none ∧
      epochTarget Reg.PLX_SEED 4 = some (Reg.PLX_SEED, 0) ∧ pregAt Reg.PLX_SEED = none ∧ Reg.PLX_SEED < 2 ^ 26 := by
  decide +kernel

/-- A device in a pool of two with floors of 400 W and the least round, at the given device time in beats, after one beat. -/
def devPool (beat : Nat) (entries : List (Nat × Member)) : State :=
  let s := ((((({ State.reset with ports := [(0, port0)] } : State).setReg Reg.HLS_POOL_CTRL (1 + 2 ^ 20 + 4 * 2 ^ 24)).setReg
    Reg.HLS_POOL_BUDGET 1600).setReg (Reg.HLS_POOL_FLOOR 0) 1600).setReg (Reg.HLS_POOL_FLOOR 1) 1600)
  { s with
    time := { s.time with now := 256 * (s.beatNs * beat) }, cfg := { s.cfg with pastBeats := [⟨4, 4 * s.beatNs, 0, 0, 0, 0, 0⟩] }
    power := { s.power with pool := { s.power.pool with members := entries } } }

/-- BeatsAndPoolRounds: claims at their floors with a budget that just covers them; each place of a round of four beats, with a complete
view and without; a beat that was sent; a received beat by an open and a closed port, of a number that the device has sent, with an
entry of the other member. -/
theorem wit_BeatsAndPoolRounds :
    let e : PoolEntry := ⟨1600, 1600, 0, 0, true⟩
    let s := devPool 6 [(1, ⟨e, 5⟩)]
    let m : BeatMsg := ⟨4, 0, 0, 0, 0, 0, 0, 0, 0, 0, 0, 1, 1, 1, false, [e, e], 1600⟩
    (∀ n ∈ [4, 5, 6, 7, 8], formOk (devPool n []) = true ∧ (devPool n []).inPool = true ∧ (devPool n []).roundBeats = 4 ∧
        (devPool n []).deviceTime / (devPool n []).beatNs = n) ∧ formOk s = true ∧ s.poolMembers = 2 ∧ s.poolIndex = 0 ∧
      (allClaims (s.poolClaim 4) (List.range 2)).isSome = true ∧ allClaims ((devPool 6 []).poolClaim 4) (List.range 2) = none ∧
      (∀ b ∈ s.cfg.pastBeats.head?, b.boundary < 6 * s.beatNs) ∧
      ((devPool 4 []).cfg.pastBeats.head?.map (·.boundary)) = some (4 * (devPool 4 []).beatNs) ∧
      (s.port 0).open_ = true ∧ (s.port 1).open_ = false ∧
      (s.cfg.pastBeats.find? fun b => decide (b.number % 2 ^ 32 = m.number.toNat ∧ b.boundary = b.number * s.beatNs)).isSome = true ∧ m.pool.toNat = s.poolNumber ∧
      m.entries[1]? = some e ∧ e.valid = true ∧ (devPool 6 []).power.pool.member 1 = none ∧ State.reset.inPool = false ∧
      (∀ c ∈ [(⟨1600, 1600, 0⟩ : Claim), ⟨3000, 1600, 0⟩], 1600 ≤ c.floor) ∧ (1600 + 1600 ≤ 3200) := by
  decide +kernel

/-! ### Hypotheses that concrete states meet: power and sleep -/

/-- A device with a Heliostat as given, at a tick. -/
def devW (p : Power) (tick : Nat) : State := { State.reset with power := p, ticks := tick }

/-- The Heliostat at reset. -/
def pow0 : Power := Power.reset

/-- Job 1 on core 0, with a hint of a point. -/
def hintJob (op : Nat) : Job := { job1 with desc := { job1.desc with hintValid := true, opHint := BitVec.ofNat 3 op } }

/-- A device whose cluster 0 runs at OP4 with the rail of its die at some voltage, and whose job asks for a point. -/
def devOp (rail op : Nat) (droop : Bool) : State :=
  { State.reset with
    jobs := [hintJob op], cores := [(0, core1)]
    power := { pow0 with clusters := { ClusterClk.reset with op := 4, stopped := false } :: List.replicate 31 ClusterClk.reset
                         dies := { DiePower.reset with railMv := rail, railStart := rail, droop := droop } :: List.replicate 3 DiePower.reset } }

/-- GovernorHoldsTheCap: an estimate (which is open) just above and at the cap, and a measured power that alone lies above it; slack of 5 % and less; runs of 49 and
50 µs, and of 199 and 200; no job, the same point, a slower one, and a faster one with the rail there, too low, and in droop. -/
theorem wit_GovernorHoldsTheCap :
    let s := State.reset
    let p := fun (b l g : Nat) => ({ pow0 with betaHigh := b, slack := l, g := g } : Power)
    (∀ u ∈ [s, devW (p 50 0 6) 0, devW (p 50 200 7) 0, devW (p 49 199 0) 0, devW { pow0 with distrust := true, pmeas := 2600 } 0,
        devOp 700 4 false, devOp 700 5 false, devOp 850 3 false, devOp 700 3 false, devOp 850 3 true], formOk u = true) ∧
      10 * s.capEff.1 = 28000 ∧ governed10 s 2801 = 28010 ∧ governed10 s 2800 = 28000 ∧
      governed10 (devW { pow0 with distrust := true, pmeas := 2600 } 0) 1 = 28600 ∧ s.power.beta - 1 = 0 ∧
      28000 ≤ 20 * (28000 - governed10 s 2660) ∧ ¬ 28000 ≤ 20 * (28000 - governed10 s 2661) ∧
      s.grantedOp 0 = none ∧ (devOp 700 4 false).grantedOp 0 = some 4 ∧ (devOp 700 5 false).grantedOp 0 = some 5 ∧
      (devOp 850 3 false).grantedOp 0 = some 3 ∧ ((devOp 850 3 false).cluster 0).op.toNat = 4 ∧ opVdd 3 = 740 ∧
      (devOp 850 3 false).droopClear 0 = true ∧ (devOp 850 3 true).droopClear 0 = false ∧
      ((devOp 700 3 false).die 0).railMv < opVdd 3 ∧ (devOp 700 3 false).droopClear 0 = true ∧
      opVdd 3 ≤ (devOp 850 3 false).railNow 0 ∧ (devOp 700 3 false).railNow 0 < opVdd 3 := by
  decide +kernel

/-- TelemetryDroopAndHeat: windows at the bound of 12 % and beyond; the sixteenth in each row; 1 ms and 10 ms; 10 µs of droop, and
its hold time at its end and just before; junctions
below and at the throttle, critical and trip temperatures, stacks at theirs; steps of the cap in each direction, and its end. -/
theorem wit_TelemetryDroopAndHeat :
    let p := fun (d ok : Bool) (a b : Nat) => ({ pow0 with distrust := d, recalPassed := ok, agree := a, disagree := b } : Power)
    let retry : Power := { pow0 with distrust := true, recalFailed := true, recalTries := 2, recalAt := 5 }
    let droop : Power := { pow0 with dies := List.replicate 4 { DiePower.reset with droop := true, droopSince := 7 } }
    let fell := fun (tick : Nat) => devW { pow0 with
      clusters := { ClusterClk.reset with stopped := false } :: List.replicate 31 ClusterClk.reset
      dies := List.replicate 4 { DiePower.reset with droop := true, droopClear := 2000 } } tick
    let hold := 100 * max 1 ((fell 0).fld Reg.HLS_DROOP_CTRL 8 8)
    let hot := fun (cap t : Nat) => ({ pow0 with throttling := true, thermalCap := cap, hottest := t } : Power)
    (∀ q ∈ [p false false 0 15, p true true 15 0, p true true 0 15, { pow0 with gap := true }, retry, droop, hot 2000 95, hot 2980 92,
        hot 2981 92], formOk (devW q 1000000) = true) ∧
      ¬ 12 * 100 < 100 * ((100 - 112) + (112 - 100)) ∧ 12 * 100 < 100 * ((100 - 113) + (113 - 100)) ∧
      (devW pow0 999999).ticks - pow0.lastTele < 1000000 ∧ 1000000 ≤ (devW pow0 1000000).ticks - pow0.lastTele ∧
      State.reset.module.fatal = false ∧ 10000000 ≤ (devW retry 10000005).ticks - retry.recalAt ∧
      10000 ≤ (devW droop 10007).ticks - ((devW droop 10007).die 3).droopSince ∧ ((devW droop 10007).die 3).droop = true ∧
      hold ≤ ((fell 10000).ticks + 2000 - ((fell 10000).die 0).droopClear) * opFreq 0 ∧
      ¬ hold ≤ ((fell 0).ticks + 2000 - ((fell 0).die 0).droopClear) * opFreq 0 ∧ ((fell 0).cluster 0).stopped = false ∧
      State.reset.throttleAt = 95 ∧ State.reset.critAt = 105 ∧ hottest (flagged [] [94, 95, 90]) = 95 ∧ hottest [115] = 115 ∧
      (devW (hot 2000 95) 100000).throttleAt ≤ 95 ∧ 92 + 2 < (devW (hot 2980 92) 1000000).throttleAt ∧
      (2980 + 20 ≤ 3000) ∧ (3000 < 2981 + 20) ∧ ([[94], [95], [], []] : List (List Nat)).length = 4 := by
  decide +kernel

/-- DeviceSleepsAndWakes: a cluster after 256 F-cycles without need and one tick earlier; a stopped one that a job needs, with its
rail up and without; DOZE after
doze_us; DORMANT after dormant_ms, and in D3hot; requests that find their conditions and that do not; a wake from each state. -/
theorem wit_DeviceSleepsAndWakes :
    let run : Power := { pow0 with clusters := { ClusterClk.reset with stopped := false } :: List.replicate 31 ClusterClk.reset }
    let deep := fun (st : DevState) (w : Bool) (tick : Nat) =>
      ({ devW { pow0 with state := st, waking := w } tick with ports := [(0, { port0 with state := .low })] } : State).setReg Reg.HLS_CTRL 3
    let busy : State := { State.reset with jobs := [job1], cores := [(0, core1)] }
    let cold : State := { busy with power := { pow0 with dies := List.replicate 4 { DiePower.reset with railMv := 0, railStart := 0 } } }
    let d3 : State := { deep .run false 0 with module := { State.reset.module with d3 := true } }
    (∀ u ∈ [devW run 147, devW run 146, busy, State.reset, deep .doze false 0, deep .doze true 0, deep .dormant true 0, d3,
        State.reset.setReg Reg.HLS_CTRL 3], formOk u = true) ∧
      (147 - 0) * opFreq 0 ≥ 25600 ∧ (146 - 0) * opFreq 0 < 25600 ∧ ((devW run 147).cluster 0).stopped = false ∧
      (devW run 147).needsClock 0 = false ∧ busy.needsClock 0 = true ∧ (busy.cluster 0).stopped = true ∧ busy.power.state = .run ∧
      pow0.allStopped = true ∧ State.reset.collim.due = false ∧ State.reset.jobs = [] ∧
      1000 * max 1 (State.reset.fld Reg.HLS_IDLE 0 16) ≤ 10000 ∧ State.reset.mayDormant = false ∧
      1000000 * max 1 ((deep .doze false 0).fld Reg.HLS_IDLE 16 16) ≤ 100000000 ∧ (deep .doze false 0).mayDormant = true ∧
      d3.mayDormant = true ∧ d3.power.state = .run ∧ (deep .doze true 0).power.waking = true ∧
      (deep .dormant true 0).power.state = .dormant ∧ ((deep .dormant true 0).port 0).state = .low ∧
      ((deep .dormant true 0).port 0).peerLow = false ∧ opVdd 0 ≤ busy.railNow 0 ∧ cold.railNow 0 < opVdd 0 ∧
      (cold.grantedOp 0).getD 0 = 0 := by
  decide +kernel

/-! ### Hypotheses that concrete states meet: collimation -/

/-- A device whose collimation waits for one slice of a kind, released at tick 0. -/
def devK (kind : SliceKind) (k : Core) : State :=
  let s := devJ job1 k
  { s with collim := { s.collim with waiting := [⟨kind, 0, 0, 0, false⟩] } }

/-- SlicesAreReleased: off and on; the first cycle, one under way and one at its end; a FAULTY facet passed over; the last place; a
device asleep whose slice has waited lag_s. -/
theorem wit_SlicesAreReleased :
    let on := fun (c : Collim) (now : Nat) =>
      (({ State.reset with collim := c, time := { State.reset.time with now := 256 * now },
                           cores := [(0, { Core.reset with facets := [(0, { Facet.reset with state := .faulty })] })] } : State).setReg
        Reg.COL_CTRL 0x2587)
    let c := State.reset.collim
    let under : Collim := { c with cycle := 1, cycleAt := 0, nextFacetAt := 0, facetStep := 10 }
    let last : Collim := { under with position := 65536 }
    let asleep : State := { (on { c with waiting := [⟨.current, 0, 0, 0, false⟩] } 0) with
                            power := { pow0 with state := .doze }, ticks := 1000000000 }
    (∀ u ∈ [on c 0, on under 5, on under (37 * 3600000000000), on last 5, asleep, (on c 0).setReg Reg.COL_CTRL 0], formOk u = true) ∧
      (on c 0).fld Reg.COL_CTRL 0 1 = 1 ∧ ((on c 0).setReg Reg.COL_CTRL 0).fld Reg.COL_CTRL 0 1 = 0 ∧ c.cycle = 0 ∧
      (on under 5).deviceTime < 0 + (on under 5).cycleNs ∧
      0 + (on under (37 * 3600000000000)).cycleNs ≤ (on under (37 * 3600000000000)).deviceTime ∧
      (((on under 5).core 0).facet 0).state = .faulty ∧ (((on under 5).core 64).facet 0).state ≠ .faulty ∧
      65536 ≤ last.position ∧ asleep.power.state ≠ .run ∧ 1000000000 * max 1 (asleep.fld Reg.COL_CTRL 16 16) = 1000000000 := by
  decide +kernel

/-- SlicesTestTheirUnits: a clean LOADED facet, one with a bad row, an EMPTY one, and one in use; a passed slice and failures in phases 2
and 6, and a phase that tests nothing; re-qualification at its first and third slice; a stopped cluster with and without need; a die
that stood still for 1 ms with a sensor 3 °C and one 4 °C off; a withdrawn lane and one that is not; a CURRENT slice with 60 W to
spare and without. -/
theorem wit_SlicesTestTheirUnits :
    let on := fun (s : State) => s.power.state = .run ∧ s.module.fatal = false
    let k := fun (g : Facet) => ({ core1 with facets := [(31, g)] } : Core)
    let fs := fun (g : Facet) => devK (.facet 0 31) (k g)
    let used := devK (.facet 0 31) { k clean0 with check := some (check0 none 0 0) }
    let rq := fun (n : Nat) => ({ fs { Facet.reset with state := .faulty } with collim := { State.reset.collim with requal := some (0, 31, n) } } : State)
    let cl := fun (held : List Instr) => ({ devK (.cluster 1) core1 with held := held } : State)
    let th : State := { State.reset with collim := (devK (.thermal 3) core1).collim, ticks := 1000000 }
    let ln := fun (w : Nat) => ({ devK (.lane 5 3) core1 with ports := [(5, { port0 with withdrawn := BitVec.ofNat 4 w })] } : State)
    let cu := fun (est : Nat) => ({ State.reset with collim := (devK .current core1).collim, power := { pow0 with pest := est } } : State)
    (∀ u ∈ [fs clean0, fs dirty0, fs Facet.reset, used, rq 0, rq 2, cl [], cl [.cntClr 0x100428 1], th, ln 8, ln 7, cu 2560, cu 2561],
        formOk u = true ∧ on u) ∧
      (∀ g ∈ [clean0, dirty0, Facet.reset], (fs g).readySlice (.facet 0 31) = some ⟨.facet 0 31, 0, 0, 0, false⟩ ∧
        (fs g).facetIdle 0 31 = true ∧ g.state ≠ .faulty ∧ (fs g).collim.requal = none) ∧ used.facetIdle 0 31 = false ∧
      dirty0.badSegment 1023 ≠ none ∧ testFail ⟨none, false, 0, 0⟩ = none ∧ testFail ⟨some 2, false, 0, 0⟩ = some 2 ∧
      testFail ⟨some 6, true, 0, 0⟩ = some 6 ∧ testFail ⟨some 3, true, 0, 0⟩ = none ∧ (rq 2).facetIdle 0 31 = true ∧
      (((rq 0).core 0).facet 31).state = .faulty ∧
      (cl []).readySlice (.cluster 1) = some ⟨.cluster 1, 0, 0, 0, false⟩ ∧ ((cl []).cluster 1).stopped = true ∧
      (cl []).needsClock 1 = false ∧ th.readySlice (.thermal 3) = some ⟨.thermal 3, 0, 0, 0, false⟩ ∧ th.dieStill 3 = true ∧
      (ln 8).readySlice (.lane 5 3) = some ⟨.lane 5 3, 0, 0, 0, false⟩ ∧ ((ln 8).port 5).withdrawn.getLsbD 3 = true ∧
      (ln 8).portEn 5 = false ∧ ((ln 8).setFld (Reg.NRN_PORT_CTRL 5) 0 1 1).portEn 5 = true ∧
      ((ln 7).port 5).withdrawn.getLsbD 3 = false ∧ ((ln 8).port 5).open_ = true ∧
      (cu 2560).readySlice .current = some ⟨.current, 0, 0, 0, false⟩ ∧ (cu 2560).power.gov10 + 2400 ≤ 10 * (cu 2560).capEff.1 ∧
      ¬ (cu 2561).power.gov10 + 2400 ≤ 10 * (cu 2561).capEff.1 := by
  decide +kernel

/-- SlicesTestTheirUnits, the clusters and sensors: a held access to core 64 needs cluster 1; the median of equal readings, and one
that strays. -/
theorem wit_SlicesTestTheirUnits_needs :
    let s : State := { devK (.cluster 1) core1 with held := [.cntClr (BitVec.ofNat 26 (coreReg 64 0x428)) 1] }
    let l := List.replicate 23 50
    s.needsClock 1 = true ∧ median (53 :: l) = 50 ∧ (∀ v ∈ 53 :: l, 50 ≤ v + 3 ∧ v ≤ 50 + 3) ∧ ∃ v ∈ 46 :: l, v + 3 < 50 ∨ 50 + 3 < v := by
  decide +kernel

/-! ### Hypotheses that concrete states meet: the Uarid -/

theorem length_toBytes (n x : Nat) : (toBytes n x).length = n := by
  induction n generalizing x with
  | zero => rfl
  | succ n ih => simp [toBytes, ih]

theorem ofBytes_toBytes (n x : Nat) : ofBytes (toBytes n x) = x % 256 ^ n := by
  induction n generalizing x with
  | zero => simp [toBytes, ofBytes, Nat.mod_one]
  | succ n ih =>
    have h : (BitVec.ofNat 8 x).toNat = x % 256 := BitVec.toNat_ofNat ..
    rw [toBytes, ofBytes, ih, h, Nat.pow_succ', Nat.mod_mul]

theorem length_keccakRound (a : Lanes) (rc : Word64) : (keccakRound a rc).length = 25 := by
  unfold keccakRound
  have h : (keccakChi (keccakRhoPi (keccakTheta a))).length = 25 := by simp [keccakChi, lanesOf]
  split
  · rename_i e; rw [e] at h; simpa using h
  · rename_i e; rw [e] at h; simp at h

theorem length_keccakF (a : Lanes) (h : a.length = 25) : (keccakF a).length = 25 := by
  have : ∀ (l : List Word64) (b : Lanes), b.length = 25 → (l.foldl keccakRound b).length = 25 := by
    intro l
    induction l with
    | nil => exact fun b hb => hb
    | cons r l ih => exact fun b _ => ih _ (length_keccakRound b r)
  exact this _ a h

theorem length_sponge32 (m : List Byte) (d : Nat) : (sponge 136 d m 32).length = 32 := by
  have hb : ∀ (l : List (List Byte)) (b : Lanes), b.length = 25 → (l.foldl absorbBlock b).length = 25 := by
    intro l
    induction l with
    | nil => exact fun b h => h
    | cons r l ih => exact fun b h => ih _ (length_keccakF _ (by simpa using h))
  have e : ceilDiv 32 136 = 1 := by decide
  have hf : ∀ a : Lanes, (a.flatMap fun w => toBytes 8 w.toNat).length = 8 * a.length := by
    intro a
    induction a with
    | nil => rfl
    | cons w a ih => simp only [List.flatMap_cons, List.length_append, length_toBytes, ih, List.length_cons]; omega
  simp only [sponge, e, squeeze, List.append_nil, List.length_take, hf]
  rw [hb _ _ (by simp)]
  decide

/-- The body of a request. -/
def bodyOf (op : Nat) (q : MgmtReq) : List Byte :=
  mgmtHeader op false q.session.toNat q.counter.toNat q.payload.length 0 ++ q.payload ++ q.tag

/-- The fields of a header, packed. -/
theorem header_fields {o a b n : Nat} (ho : o < 2 ^ 8) (ha : a < 2 ^ 16) (hb : b < 2 ^ 32) (hn : n < 2 ^ 16) :
    let h := o + a * 2 ^ 16 + b * 2 ^ 32 + n * 2 ^ 64
    h % 2 ^ 8 = o ∧ h / 2 ^ 8 % 2 ^ 1 = 0 ∧ h / 2 ^ 9 % 2 ^ 7 = 0 ∧ h / 2 ^ 16 % 2 ^ 16 = a ∧ h / 2 ^ 32 % 2 ^ 32 = b ∧
      h / 2 ^ 64 % 2 ^ 16 = n ∧ h / 2 ^ 80 % 2 ^ 48 = 0 := by
  refine ⟨?_, ?_, ?_, ?_, ?_, ?_, ?_⟩ <;> omega

theorem place_zero (lo n : Nat) : place 0 lo n = 0 := by simp [place]

theorem place_lt {v n : Nat} (lo : Nat) (h : v < 2 ^ n) : place v lo n = v * 2 ^ lo := by
  rw [place, Nat.mod_eq_of_lt h, Nat.shiftLeft_eq]

theorem header_sum {o a b n : Nat} (ho : o < 2 ^ 8) (ha : a < 2 ^ 16) (hb : b < 2 ^ 32) (hn : n < 2 ^ 16) :
    place o 0 8 + place false.toNat 8 1 + place a 16 16 + place b 32 32 + place n 64 16 + place 0 80 8 =
      o + a * 2 ^ 16 + b * 2 ^ 32 + n * 2 ^ 64 := by
  rw [Bool.toNat_false, place_lt 0 ho, place_zero, place_lt 16 ha, place_lt 32 hb, place_lt 64 hn, place_zero, Nat.pow_zero,
    Nat.mul_one, Nat.add_zero, Nat.add_zero]

theorem header_lt {o a b n : Nat} (ho : o < 2 ^ 8) (ha : a < 2 ^ 16) (hb : b < 2 ^ 32) (hn : n < 2 ^ 16) :
    o + a * 2 ^ 16 + b * 2 ^ 32 + n * 2 ^ 64 < 256 ^ 16 := by omega

theorem header_value {o a b n : Nat} (ho : o < 2 ^ 8) (ha : a < 2 ^ 16) (hb : b < 2 ^ 32) (hn : n < 2 ^ 16) :
    ofBytes (mgmtHeader o false a b n 0) = o + a * 2 ^ 16 + b * 2 ^ 32 + n * 2 ^ 64 := by
  rw [mgmtHeader, header_sum ho ha hb hn, ofBytes_toBytes, Nat.mod_eq_of_lt (header_lt ho ha hb hn)]

/-- The bytes of a request are read as that request. -/
theorem parse_body (op : Nat) (q : MgmtReq) (ho : op < 2 ^ 8) (hl : q.payload.length < 2 ^ 16)
    (ht : q.tag.length = if q.session.toNat = 0 then 0 else 32) : parseMgmt q.path (bodyOf op q) = some (op, q) := by
  have hh : (mgmtHeader op false q.session.toNat q.counter.toNat q.payload.length 0).length = 16 := length_toBytes _ _
  have e : (bodyOf op q).take 16 = mgmtHeader op false q.session.toNat q.counter.toNat q.payload.length 0 := by
    rw [bodyOf, List.append_assoc]; exact List.take_left' hh
  have e1 : (bodyOf op q).drop 16 = q.payload ++ q.tag := by
    rw [bodyOf, List.append_assoc]; exact List.drop_left' hh
  have hlen : (bodyOf op q).length = 16 + q.payload.length + q.tag.length := by
    simp only [bodyOf, List.length_append, hh]
  obtain ⟨f0, f1, f2, f3, f4, f5, f6⟩ := header_fields ho q.session.isLt q.counter.isLt hl
  simp only [parseMgmt, e, header_value ho q.session.isLt q.counter.isLt hl, Nat.shiftRight_eq_div_pow, f1, f2, f3, f4, f5, f6, hlen]
  rw [if_neg (by rw [ht]; simp)]
  simp only [pow_zero, Nat.div_one, f0, ← ht, ← List.drop_drop, e1, List.take_left, List.drop_left, List.take_length,
    BitVec.ofNat_toNat, BitVec.setWidth_eq]

theorem getList_setList (vs : List Byte) : Sparse.getList 0 (Sparse.setList 0 [] 0 vs) 0 vs.length = vs := by
  refine List.ext_getElem (by simp [Sparse.getList]) fun i h1 h2 => ?_
  simp only [Sparse.getList, List.getElem_map, List.getElem_range]
  rw [Sparse.get_setList 0 vs 0 (by decide), if_pos (by omega)]
  simp [h2]

/-- Bytes of zeros. -/
def zeros (n : Nat) : List Byte := List.replicate n 0

/-- The Uarid of a booted device in MANUFACTURING, and its forms in the other life-cycle states. -/
def uarid0 (life : Nat) : Uarid := { Uarid.reset with booted := true, ready := true, lifecycle := BitVec.ofNat 3 life }

/-- The key of the session that the tests open, and that session, last used at tick 0. -/
def key0 : List Byte := List.replicate 32 7
def session0 (p : MgmtPath) : Session := ⟨1, key0, 4, 0, p⟩

/-- A device with a Uarid as given, whose management key is 1. -/
def devU (u : Uarid) : State := { State.reset with uarid := u, pregs := [(56, { Preg.reset with shadow := 1 })] }

/-- A request with counter 5 in session 1, rightly tagged; and a request outside a session. -/
def tagged (p : MgmtPath) (op : Nat) (payload : List Byte) : MgmtReq :=
  { path := p, session := 1, counter := 5, payload := payload, tag := sessionTag key0 (mgmtHeader op false 1 5 payload.length 0) payload }
def plainReq (p : MgmtPath) (payload : List Byte) : MgmtReq := { path := p, session := 0, counter := 0, payload := payload, tag := [] }

/-- A device on whose mailbox a request of op is in service. -/
def devM (u : Uarid) (op : Nat) (q : MgmtReq) : State :=
  (devU { u with mbox := Sparse.setList 0 [] 0 (bodyOf op q), busy := true }).setReg Reg.UAR_MBOX_CTRL
    (BitVec.ofNat 64 (16 + q.payload.length + if q.session.toNat = 0 then 0 else 32))

theorem length_tag (p : MgmtPath) (op : Nat) (l : List Byte) : (tagged p op l).tag.length = 32 := length_sponge32 _ _

/-- The Uarid serves and no wipe runs. -/
def serving (u : Uarid) : Bool := u.booted && decide (u.wiping = none)

theorem devM_mbox (u : Uarid) (op : Nat) (q : MgmtReq) : (devM u op q).uarid.mbox = Sparse.setList 0 [] 0 (bodyOf op q) := by
  simp only [devM, State.setReg, devU]

theorem devM_busy (u : Uarid) (op : Nat) (q : MgmtReq) : (devM u op q).uarid.busy = true := by
  simp only [devM, State.setReg, devU]

theorem comes_mailbox {u : Uarid} {op : Nat} {q : MgmtReq} (hu : serving u = true) (hp : q.path = .mailbox) (ho : op < 2 ^ 8)
    (hl : q.payload.length < 8000) (ht : q.tag.length = if q.session.toNat = 0 then 0 else 32) : Comes (devM u op q) op q := by
  simp only [serving, Bool.and_eq_true, decide_eq_true_eq] at hu
  have hb : (bodyOf op q).length = 16 + q.payload.length + if q.session.toNat = 0 then 0 else 32 := by
    simp only [bodyOf, List.length_append, ht, mgmtHeader, length_toBytes]
  have hn : 16 ≤ (bodyOf op q).length := by rw [hb]; omega
  have hm : (bodyOf op q).length < 2 ^ 13 := by rw [hb]; split <;> omega
  have hf : (devM u op q).fld Reg.UAR_MBOX_CTRL 0 13 = (bodyOf op q).length := by
    have hr : (devM u op q).reg Reg.UAR_MBOX_CTRL = BitVec.ofNat 64 (bodyOf op q).length := by
      rw [hb]
      unfold devM
      rw [State.reg, State.setReg, Sparse.get_set _ _ _ rfl, if_pos rfl]
    rw [State.fld, hr]
    simp only [bits, BitVec.toNat_ofNat, Nat.shiftRight_zero]
    rw [Nat.mod_eq_of_lt (by omega : _ < 2 ^ 64), Nat.mod_eq_of_lt hm]
  refine ⟨?_, ?_, ?_⟩
  · show (u.booted && true) = true
    simp [hu.1]
  · have hmb : (devM u op q).mailbox = some (op, q) := by
      unfold State.mailbox
      simp only [hf]
      rw [if_neg (by omega)]
      rw [devM_mbox, getList_setList, ← hp]
      exact parse_body op q ho (by omega) ht
    unfold State.hasCome
    rw [hp]
    simp only [hmb, decide_true, Bool.and_true, devM_busy]
  · exact hu.2

theorem comes_sideband {s : State} {op : Nat} {q : MgmtReq} (hu : serving s.uarid = true) (hf : s.module.fatal = false)
    (hp : q.path = .sideband) (hl : mgmtSize q ≤ 1024) : Comes s op q := by
  simp only [serving, Bool.and_eq_true, decide_eq_true_eq] at hu
  refine ⟨?_, ?_, hu.2⟩
  · simp [State.uaridUp, hu.1, hf]
  · unfold State.hasCome; rw [hp]; simpa using hl

/-- SHAKE256 of no bytes (FIPS 202). -/
def digest0 : List Byte :=
  toBytes 32 0x2f76d56e64270cb5821bb862ea52cd3f24eb3e74eb3f3b23138da80b2bddb946

theorem test_shake256_of_nothing : shake256 [] 32 = digest0 := by decide +kernel

theorem getList_within (vs : List Byte) (off n : Nat) (h : off + n ≤ vs.length) :
    Sparse.getList 0 (Sparse.setList 0 [] 0 vs) off n = (vs.drop off).take n := by
  refine List.ext_getElem (by simp [Sparse.getList]; omega) fun i h1 h2 => ?_
  simp only [Sparse.getList, List.length_map, List.length_range] at h1
  simp only [Sparse.getList, List.getElem_map, List.getElem_range, List.getElem_take, List.getElem_drop]
  rw [Sparse.get_setList 0 vs 0 (by decide), if_pos (by omega), Nat.sub_zero,
    List.getD_eq_getElem?_getD, List.getElem?_eq_getElem (by omega), Option.getD_some]

/-- The first 4,096 bytes of a bundle of six empty images, without their signature. -/
def bytes0 : List Byte :=
  toBytes 64 (0x31424C44 + 2 ^ 32 + 6 * 2 ^ 48) ++ ((List.range 6).flatMap fun i => toBytes 16 (i + 1) ++ digest0) ++ zeros 3744

/-- That bundle, under the key of zeros, and a Uarid that holds the digest of that key. -/
def bundle0 : Sparse Byte := Sparse.setList 0 [] 0 bytes0
def uaridB (a b : Sparse Byte) : Uarid :=
  { Uarid.reset with slotA := a, slotB := b, vendorDigests := [shake256 (bundleKey bundle0) 32] }

theorem passes_of {u : Uarid} {m : Sparse Byte} (h1 : headerOk m = true) (h2 : hdrField m 40 2 = 0)
    (hd : u.vendorDigests = [shake256 (bundleKey m) 32]) (hr : u.vendorRevoke = 0) (hs : signatureOk m = true) (h3 : bundleSvn m = 0)
    (hb : u.rollback = 0) (h4 : (List.range 6).all (entryOk m) = true) : bundleFault u m = none := by
  have h5 : keyOk u m = true := by simp [keyOk, h2, hd, hr]
  simp only [bundleFault, h1, h5, hs, h3, hb, h4]
  rfl

/-- The first 512 bytes of that bundle, as a number. -/
def num0 : Nat := 0x31424C44 + 2 ^ 32 + 6 * 2 ^ 48 +
  ((List.range 6).map fun i => (i + 1 + 2 ^ 128 * 0x2f76d56e64270cb5821bb862ea52cd3f24eb3e74eb3f3b23138da80b2bddb946) *
    2 ^ (512 + 384 * i)).sum

theorem bytes0_length : bytes0.length = 4096 := by decide +kernel

theorem bundle0_list (off n : Nat) (h : off + n ≤ 4096) : Sparse.getList 0 bundle0 off n = (bytes0.drop off).take n :=
  getList_within bytes0 off n (by rw [bytes0_length]; exact h)

theorem bundle0_at (off n : Nat) (h : off + n ≤ 4096) : bundleNum bundle0 off n = ofBytes ((bytes0.drop off).take n) := by
  rw [bundleNum, bundle0_list _ _ h]

theorem bundle0_num : bundleNum bundle0 0 512 = num0 := by
  rw [bundle0_at 0 512 (by norm_num)]
  decide +kernel

theorem bundle0_rest : bundleNum bundle0 3821 275 = 0 := by
  rw [bundle0_at 3821 275 (by norm_num)]
  decide +kernel

theorem bundle0_header : headerOk bundle0 = true := by
  have h1 : bundleNum bundle0 0 4 = 0x31424C44 := by rw [bundle0_at 0 4 (by norm_num)]; decide +kernel
  have h2 : bundleNum bundle0 4 1 = 1 := by rw [bundle0_at 4 1 (by norm_num)]; decide +kernel
  have h3 : bundleNum bundle0 6 1 = 6 := by rw [bundle0_at 6 1 (by norm_num)]; decide +kernel
  have h4 : bundleNum bundle0 3821 275 = 0 := bundle0_rest
  have h5 : ∀ lo n : Nat, hdrField bundle0 lo n = (num0 >>> lo) % 2 ^ n := fun lo n => by rw [hdrField, bundle0_num]
  simp only [headerOk, entryField, h1, h2, h3, h4, h5]
  decide +kernel

theorem bundle0_entries : (List.range 6).all (entryOk bundle0) = true := by
  have h : ∀ i ∈ List.range 6, num0 >>> (512 + 384 * i + 0) % 2 ^ 32 = i + 1 ∧ num0 >>> (512 + 384 * i + 32) % 2 ^ 32 = 0 ∧
      num0 >>> (512 + 384 * i + 64) % 2 ^ 32 = 0 ∧ ((bytes0.drop (64 + 48 * i + 16)).take 32) = digest0 := by decide +kernel
  rw [List.all_eq_true]
  intro i hi
  obtain ⟨h1, h2, h3, h4⟩ := h i hi
  have e : Sparse.getList 0 bundle0 0 0 = [] := rfl
  have hi' : i < 6 := List.mem_range.mp hi
  simp only [entryOk, entryField, hdrField, bundle0_num, h1, h2, h3, entryDigest, bundle0_list (64 + 48 * i + 16) 32 (by omega), h4, e, test_shake256_of_nothing]
  decide

/-- That bundle passes when ML-DSA-65 takes its signature (which no statement can see: the function is opaque). -/
theorem bundle0_passes (a b : Sparse Byte) (hs : signatureOk bundle0 = true) : bundleFault (uaridB a b) bundle0 = none :=
  passes_of bundle0_header (by rw [hdrField, bundle0_num]; decide +kernel) (by rw [uaridB]) (by rw [uaridB]; rfl) hs
    (by rw [bundleSvn, bundle0_at 8 4 (by norm_num)]; decide +kernel) (by rw [uaridB]; rfl) bundle0_entries

theorem ordered_slots {s : State} (h : s.ordered) {a b : Sparse Byte} (ha : Sparse.rising a = true) (hb : Sparse.rising b = true) :
    ({ s with uarid := { s.uarid with slotA := a, slotB := b } } : State).ordered :=
  ⟨h.1, h.2.1, ⟨ha, hb, h.2.2.1.2.2⟩, h.2.2.2⟩

/-- BundlesBootAndUpdate: a powered device that has not booted, with a bundle that passes in either slot (given its signature), or
in neither; the ROM's recovery at the last byte of the slot and beyond; each operation of a booted device on the active slot, on
one that is staged, and on the other with a source inside and outside the range; a trial to commit; a certificate awaited. -/
theorem wit_BundlesBootAndUpdate (hs : signatureOk bundle0 = true) :
    let dev := fun (u : Uarid) (a b : Sparse Byte) => ({ State.reset with uarid := { u with slotA := a, slotB := b } } : State)
    let rom := dev { Uarid.reset with recoverMode := true }
    let up := fun (st : Option Bool) (trial : Bool) =>
      dev { uaridB [] [] with booted := true, ready := true, prepared := st, trial := trial } bundle0 []
    let staged : State := { up none false with cfg := { State.reset.cfg with staged := some ⟨1, [], 0, 0, some true⟩ } }
    bundleFault (uaridB bundle0 []) bundle0 = none ∧ bundleFault (uaridB [] bundle0) [] = some 3 ∧
      bundleFault (uaridB [] bundle0) bundle0 = none ∧ bundleFault Uarid.reset [] = some 3 ∧
      (∀ s ∈ [dev (uaridB [] []) bundle0 [], dev (uaridB [] []) [] bundle0, dev Uarid.reset [] [], rom bundle0 [], rom [] [],
        up none false, up (some true) true], s.ordered) ∧
      State.reset.module.pwrGood = true ∧ (uaridB bundle0 []).booted = false ∧ (uaridB bundle0 []).recoverMode = false ∧
      (uaridB bundle0 []).bootSlot = false ∧ (rom [] []).uarid.recoverMode = true ∧ (50331647 + 1 ≤ 50331648) ∧
      (up none false).uarid.booted = true ∧ (up none false).module.fatal = false ∧ (up none false).uarid.activeSlot = false ∧
      (up (some true) true).uarid.prepared = some true ∧ (up (some true) true).uarid.trial = true ∧ staged.slotStaged = true ∧
      (up none false).slotStaged = false ∧ (up none false).faultless ∧
      ({ Uarid.reset with certBusy := some 0 } : Uarid).certBusy ≠ none := by
  have p : ∀ a b, bundleFault (uaridB a b) bundle0 = none := fun a b => bundle0_passes a b hs
  have q : bundleFault (uaridB [] bundle0) [] = some 3 := by decide +kernel
  have r : bundleFault Uarid.reset [] = some 3 := by decide +kernel
  refine ⟨p _ _, q, p _ _, r, ?_, rfl, rfl, rfl, rfl, rfl, by decide, rfl, rfl, rfl, rfl, rfl, rfl, rfl, faultless_of rfl, by decide⟩
  intro s h
  have hb : Sparse.rising bundle0 = true := Sparse.rising_setList 0 bytes0 0 rfl
  have o : ∀ u : Uarid, u.slotA = [] → u.slotB = [] → u.mbox = [] → u.secure = [] → ({ State.reset with uarid := u } : State).ordered := by
    intro u h1 h2 h3 h4
    have h := ordered_of (show formOk State.reset = true by decide +kernel)
    exact ⟨h.1, h.2.1, ⟨by rw [h1]; rfl, by rw [h2]; rfl, by rw [h3]; rfl, by rw [h4]; rfl⟩, h.2.2.2⟩
  simp only [List.mem_cons, List.not_mem_nil, or_false] at h
  rcases h with rfl | rfl | rfl | rfl | rfl | rfl | rfl
  · exact ordered_slots (o (uaridB [] []) rfl rfl rfl rfl) hb rfl
  · exact ordered_slots (o (uaridB [] []) rfl rfl rfl rfl) rfl hb
  · exact ordered_slots (o Uarid.reset rfl rfl rfl rfl) rfl rfl
  · exact ordered_slots (o { Uarid.reset with recoverMode := true } rfl rfl rfl rfl) hb rfl
  · exact ordered_slots (o { Uarid.reset with recoverMode := true } rfl rfl rfl rfl) rfl rfl
  · exact ordered_slots (o { uaridB [] [] with booted := true, ready := true } rfl rfl rfl rfl) hb rfl
  · exact ordered_slots (o { uaridB [] [] with booted := true, ready := true, prepared := some true, trial := true } rfl rfl rfl rfl)
      hb rfl

/-- A session in which tagged requests of the tests come: by the sideband, and through the mailbox. -/
theorem in_sideband {u : Uarid} {op : Nat} {l : List Byte} (hu : serving u = true) (hs : u.sessions = [session0 .sideband])
    (hl : l.length ≤ 976) : InSession (devU u) op (tagged .sideband op l) (session0 .sideband) := by
  refine ⟨comes_sideband hu rfl rfl ?_, ?_, show 4 < 5 by decide, rfl⟩
  · rw [mgmtSize, length_tag]
    show 16 + l.length + 32 ≤ 1024
    omega
  · have : (devU u).uarid.sessions = [session0 .sideband] := hs
    rw [State.session, this]
    rfl

theorem in_mailbox {u : Uarid} {op : Nat} {l : List Byte} (hu : serving u = true) (hs : u.sessions = [session0 .mailbox])
    (ho : op < 2 ^ 8) (hl : l.length < 8000) :
    InSession (devM u op (tagged .mailbox op l)) op (tagged .mailbox op l) (session0 .mailbox) := by
  refine ⟨comes_mailbox hu rfl ho hl (length_tag ..), ?_, show 4 < 5 by decide, rfl⟩
  have : (devM u op (tagged .mailbox op l)).uarid.sessions = [session0 .mailbox] := by
    simp only [devM, State.setReg, devU, hs]
  rw [State.session, this]
  rfl

theorem rising_nil {m : Sparse Byte} (h : m = []) : Sparse.rising m = true := h ▸ rfl

theorem devU_ordered (u : Uarid) (h : u.slotA = [] ∧ u.slotB = [] ∧ u.mbox = [] ∧ u.secure = []) : (devU u).ordered := by
  have o := ordered_of (show formOk (devU Uarid.reset) = true by decide +kernel)
  exact ⟨o.1, o.2.1, ⟨rising_nil h.1, rising_nil h.2.1, rising_nil h.2.2.1, rising_nil h.2.2.2⟩, o.2.2.2⟩

theorem devM_ordered {u : Uarid} (h : u.slotA = [] ∧ u.slotB = [] ∧ u.secure = []) (op : Nat) (q : MgmtReq) : (devM u op q).ordered := by
  have o := ordered_of (show formOk (devU Uarid.reset) = true by decide +kernel)
  refine ⟨o.1, o.2.1, ⟨rising_nil h.1, rising_nil h.2.1, ?_, rising_nil h.2.2⟩, o.2.2.2.1, Sparse.rising_set _ _ _ rfl, o.2.2.2.2.2⟩
  rw [devM_mbox]
  exact Sparse.rising_setList 0 _ 0 rfl

/-- SessionsOpenServeAndClose, requests: before boot, while a wipe runs, and with a session that is none; OPEN_REQ in SCRAPPED, locked,
without a key, with four sessions, and in order; CLOSE; a go while busy, of a request, and of what is none; MGMT by the fabric. -/
theorem wit_SessionsOpenServeAndClose_requests :
    let q := plainReq .sideband []
    let stray : MgmtReq := ⟨.sideband, 9, 0, [], zeros 32⟩
    let lock : State := devU { uarid0 0 with lockedUntil := 1 }
    let nokey : State := { State.reset with uarid := uarid0 0 }
    let four : State := devU { uarid0 0 with sessions := List.replicate 4 (session0 .sideband) }
    let wipe : State := devU { uarid0 0 with wiping := some 0 }
    let box := fun (bs : List Byte) (busy : Bool) => devU { uarid0 0 with mbox := Sparse.setList 0 [] 0 bs, busy := busy }
    (∀ s ∈ [State.reset, wipe, devU (uarid0 0), devU (uarid0 4), lock, nokey, four, box [1] false, box [0, 1] false, box [1] true],
        formOk s = true) ∧
      State.reset.uaridUp = false ∧ wipe.hasCome 1 q = true ∧ wipe.uarid.wiping ≠ none ∧
      (Comes (devU (uarid0 0)) 3 stray ∧ ¬ ∃ x, InSession (devU (uarid0 0)) 3 stray x) ∧
      (∀ s ∈ [devU (uarid0 0), devU (uarid0 4), lock, nokey, four], Comes s 1 q) ∧ (uarid0 4).life = 3 ∧ (uarid0 0).life = 0 ∧
      lock.ticks < lock.uarid.lockedUntil ∧ nokey.keyHeld = false ∧ (devU (uarid0 0)).keyHeld = true ∧
      four.uarid.sessions.length = 4 ∧
      (∃ s x, s.ordered ∧ InSession s 3 (tagged .sideband 3 []) x) ∧
      parseMgmt .mailbox (Sparse.getList 0 (box [1] false).uarid.mbox 0 16) = some (1, plainReq .mailbox []) ∧
      parseMgmt .mailbox (Sparse.getList 0 (box [0, 1] false).uarid.mbox 0 16) = none ∧ (box [1] true).uarid.busy = true ∧
      parseMgmt (.fabric 2) (1 :: zeros 15) = some (1, plainReq (.fabric 2) []) := by
  have c : ∀ s op q, serving s.uarid = true → s.module.fatal = false → q.path = .sideband → q.tag.length ≤ 32 → q.payload = [] →
      Comes s op q := fun s op q h1 h2 h3 h4 h5 => comes_sideband h1 h2 h3 (by rw [mgmtSize, h5]; show 16 + 0 + _ ≤ 1024; omega)
  refine ⟨by decide +kernel, rfl, by decide, by decide, ⟨c _ _ _ rfl rfl rfl (by decide) rfl, ?_⟩, ?_, by decide, by decide,
    by decide, by decide, by decide, by decide, ⟨devU { uarid0 0 with sessions := [session0 .sideband] }, session0 .sideband,
      devU_ordered _ ⟨rfl, rfl, rfl, rfl⟩, in_sideband rfl rfl (by decide)⟩, by decide +kernel, by decide +kernel, rfl, by decide +kernel⟩
  · rintro ⟨x, h⟩
    exact absurd h.session (by simp [State.session, devU, uarid0, Uarid.reset])
  · intro s h
    simp only [List.mem_cons, List.not_mem_nil, or_false] at h
    rcases h with rfl | rfl | rfl | rfl | rfl <;> exact c _ _ _ rfl rfl rfl (by decide) rfl

/-- A device with a challenge, and the proof of a requester with nonce zeros for it. -/
def challenge0 : Challenge := ⟨2, zeros 32, 5, .sideband⟩
def uarid1 : Uarid := { uarid0 0 with challenges := [challenge0], sessions := [session0 .sideband] }
def proof0 : List Byte :=
  kmac256 (devU uarid1).mgmtKey (challenge0.nonce ++ zeros 32 ++ toBytes 8 uarid1.serial.toNat) "DLM2048-OPEN"

theorem proof0_parts : proof0.length = 32 ∧ (zeros 32 ++ proof0).take 32 = zeros 32 ∧ (zeros 32 ++ proof0).drop 32 = proof0 :=
  ⟨length_sponge32 _ _, by rw [List.take_append_of_le_length (by decide)]; decide, List.drop_left' (by decide)⟩

theorem proof0_eq : kmac256 (devU uarid1).mgmtKey (challenge0.nonce ++ zeros 32 ++ toBytes 8 uarid1.serial.toNat) "DLM2048-OPEN" =
    proof0 := by rw [proof0]

theorem proof0_right : (zeros 32 ++ proof0).drop 32 =
    kmac256 (devU uarid1).mgmtKey (challenge0.nonce ++ (zeros 32 ++ proof0).take 32 ++ toBytes 8 uarid1.serial.toNat) "DLM2048-OPEN" := by
  rw [proof0_parts.2.1, proof0_parts.2.2, proof0_eq]

theorem proof0_wrong : (zeros 64).drop 32 ≠
    kmac256 (devU uarid1).mgmtKey (challenge0.nonce ++ (zeros 64).take 32 ++ toBytes 8 uarid1.serial.toNat) "DLM2048-OPEN" := by
  decide +kernel

/-- SessionsOpenServeAndClose, OPEN_RSP and times: in SCRAPPED, without a challenge, with one that has expired and one that has not, with
four sessions, with a wrong proof (proof0_wrong) and the right one (proof0_right); challenges and sessions at their ends. -/
theorem wit_SessionsOpenServeAndClose_proofs :
    (devU uarid1).ordered ∧ Comes (devU uarid1) 2 (plainReq .sideband (zeros 32 ++ proof0)) ∧
      Comes (devU uarid1) 2 (plainReq .sideband (zeros 64)) ∧ uarid1.challenges.find? (fun c => c.path = .sideband) = some challenge0 ∧
      ¬ (challenge0.issued + 10000000000 ≤ (devU uarid1).ticks ∨ (devU uarid1).keyHeld = false) ∧ uarid1.sessions.length < 4 ∧
      challenge0.issued + 10000000000 ≤ ({ devU uarid1 with ticks := 10000000005 } : State).ticks ∧
      (devU uarid1).session 1 = some (session0 .sideband) ∧
      (session0 .sideband).last + 60000000000 ≤ ({ devU uarid1 with ticks := 60000000000 } : State).ticks := by
  have h : mgmtSize (plainReq .sideband (zeros 32 ++ proof0)) ≤ 1024 := by
    simp only [mgmtSize, plainReq, List.length_append, proof0_parts.1]
    decide
  refine ⟨devU_ordered _ ⟨rfl, rfl, rfl, rfl⟩, comes_sideband rfl rfl rfl h, comes_sideband rfl rfl rfl (by decide), by decide⟩

/-- KeysLifeCycleAndTamper, in sessions and outside: SET_KEY, SET_OWNER with a key of 1,952 bytes, LIFECYCLE, CLEAR_TAMPER, READ_LOG,
NONCE and RECOVER, each in its states; RECOVER's signature holds when ML-DSA-65 takes it. -/
theorem wit_KeysLifeCycleAndTamper :
    let sb := fun (n : Nat) => ({ uarid0 n with sessions := [session0 .sideband] } : Uarid)
    let mb := fun (n : Nat) => ({ uarid0 n with sessions := [session0 .mailbox] } : Uarid)
    (∀ n, (devU (sb n)).ordered) ∧ (uarid0 0).life = 0 ∧ (uarid0 1).life = 1 ∧ (uarid0 2).life = 2 ∧ (uarid0 4).life = 3 ∧
      (∀ n op l, op < 256 → l.length < 8000 → (devM (mb n) op (tagged .mailbox op l)).ordered ∧
        InSession (devM (mb n) op (tagged .mailbox op l)) op (tagged .mailbox op l) (session0 .mailbox)) ∧
      (∀ n op, ∀ l : List Byte, l.length ≤ 976 → InSession (devU (sb n)) op (tagged .sideband op l) (session0 .sideband)) ∧
      (∀ n op, ∀ l : List Byte, op < 256 → l.length < 8000 → Comes (devM (uarid0 n) op (plainReq .mailbox l)) op (plainReq .mailbox l)) ∧
      (zeros 1952).length = 1952 ∧ ofBytes ([2] : List Byte) = 2 ∧ ofBytes ([3] : List Byte) = 3 ∧ (uarid0 2).ownerDigest = none ∧
      (devU (uarid0 0)).keyHeld = true ∧ ({ State.reset with uarid := uarid0 0 } : State).keyHeld = false ∧
      20480 ≤ (1463 - 0) * 14 ∧ (1462 - 0) * 14 < 20480 := by
  refine ⟨fun n => devU_ordered _ ⟨rfl, rfl, rfl, rfl⟩, by decide, by decide, by decide, by decide, fun n op l h1 h2 =>
    ⟨devM_ordered ⟨rfl, rfl, rfl⟩ op _, in_mailbox rfl rfl h1 h2⟩, fun n op l h => in_sideband rfl rfl h, fun n op l h1 h2 =>
    comes_mailbox rfl rfl h1 h2 rfl, by decide +kernel⟩

/-- The payload of a RECOVER: new key 1s, nonce zeros, public key and signature of zeros. -/
def recover0 : List Byte := List.replicate 32 1 ++ zeros 1984

/-- KeysLifeCycleAndTamper, RECOVER: a PRODUCTION device whose owner's digest is that of the key of zeros, with a nonce of zeros issued at
tick 0; a device without one, of which it does not hold. -/
theorem wit_KeysLifeCycleAndTamper_recover
    (h : Config.mldsaVerify (zeros 1952) (0 :: BitVec.ofNat 8 (ascii "DLM2048-RECOVER").length :: ascii "DLM2048-RECOVER" ++
      (ascii "DLM2048-RECOVER" ++ toBytes 8 0 ++ zeros 32 ++ List.replicate 32 1)) [] = true) :
    let u : Uarid := { uarid0 1 with ownerDigest := some (shake256 (zeros 1952) 32), recoverNonce := some (zeros 32, 0) }
    let p := recover0
    let pub := (p.drop 64).take 1952
    let ctx := ascii "DLM2048-RECOVER"
    Comes (devM u 0x16 (plainReq .mailbox p)) 0x16 (plainReq .mailbox p) ∧ (devM u 0x16 (plainReq .mailbox p)).ordered ∧ u.life = 1 ∧
      u.ownerDigest = some (shake256 pub 32) ∧ u.recoverNonce = some ((p.drop 32).take 32, 0) ∧
      Config.mldsaVerify pub (0 :: BitVec.ofNat 8 ctx.length :: ctx ++ (ctx ++ toBytes 8 0 ++ (p.drop 32).take 32 ++ p.take 32))
        (p.drop 2016) = true ∧ (uarid0 1).ownerDigest = none := by
  have e1 : (recover0.drop 64).take 1952 = zeros 1952 := by decide +kernel
  have e2 : (recover0.drop 32).take 32 = zeros 32 := by decide +kernel
  have e3 : recover0.take 32 = List.replicate 32 1 := by decide +kernel
  have e4 : recover0.drop 2016 = [] := by decide +kernel
  have e5 : recover0.length < 8000 := by decide +kernel
  refine ⟨comes_mailbox rfl rfl (by decide) e5 rfl, devM_ordered ⟨rfl, rfl, rfl⟩ _ _, by decide, ?_, ?_, ?_, rfl⟩
  · simp only [e1]
  · simp only [e2]
  · simp only [e1, e2, e3, e4]; exact h

/-- AttestationAnswers: before step 5; in SCRAPPED; a connection at each of its stages; while a new alias certificate is made; blocks that
there are and one that is none. -/
theorem wit_AttestationAnswers :
    let at_ := fun (life : Nat) (c : Spdm) (busy : Option Nat) => devU { uarid0 life with doe := c, certBusy := busy }
    let s := at_ 0 ⟨true, true, true⟩ none
    State.reset.uarid.ready = false ∧ s.uarid.ready = true ∧ s.module.fatal = false ∧ (at_ 4 ⟨true, true, true⟩ none).uarid.life = 3 ∧
      s.uarid.life ≠ 3 ∧ (s.uarid.conn .doe).algs = true ∧ (s.uarid.conn .mctp).version = false ∧
      ((at_ 0 ⟨true, true, false⟩ none).uarid.conn .doe).caps = true ∧ (at_ 0 ⟨true, true, true⟩ (some 3)).uarid.certBusy ≠ none ∧
      s.measAnswer 8 = none ∧ (s.measAnswer 0xFF).isSome = true ∧ ({ s.uarid with wiping := some 0 } : Uarid).wiping ≠ none := by
  decide +kernel

/-! ### Hypotheses that concrete states meet: the module -/

/-- PowerResetsAndHostLink: a device without PWR_EN and one with it; FATAL or not; a job with cores and a holder of identities in the
torus; PERST_N asserted before and after boot; D3hot with jobs, with DORMANT allowed, and without; a trained link and none. -/
theorem wit_PowerResetsAndHostLink :
    let m := State.reset.module
    let dev := fun (m : Machine.Module) => ({ State.reset with module := m } : State)
    let run := devJ { job1 with syncDevs := [2] } core1
    let jobs : State := { run with ports := (devF port0).ports, regs := (devF port0).regs }
    let d3 := (dev { m with d3 := true }).setReg Reg.HLS_CTRL 3
    (∀ s ∈ [dev m, dev { m with pwrEn := false }, dev { m with fatal := true }, jobs, d3, dev { m with linkSpeed := 7, linkWidth := 16 }],
        formOk s = true) ∧ m.pwrEn = true ∧ m.fatal = false ∧ m.perstN = false ∧ m.pwrGood = true ∧ State.reset.uarid.booted = false ∧
      (uarid0 0).booted = true ∧ jobs.jobs ≠ [] ∧ job1.num ≠ 0 ∧ 0 ∈ job1.cores ∧ (jobs.core 0).job = job1.num ∧ jobs.selfDev = 1 ∧
      jobs.inTorus 2 = true ∧ jobs.requests.length + (jobs.jobs.map (·.syncDevs.length)).sum < 65536 ∧ d3.mayDormant = true ∧ (dev { m with d3 := true }).mayDormant = false ∧ m.linkSpeed = 0 := by
  decide +kernel

/-! ### Hypotheses that concrete states meet: the block as a whole -/

/-- CounterChangeWakes and StepKeepsOrdered: a core that waits on counter 8,191, whose next value ends its wait or does not; steps that
answer a next state, with and without a command waiting. -/
theorem wit_StepKeepsOrdered :
    let w := dev { core1 with waitOn := some ⟨8191, 0, 5⟩ }
    let s : State := { dev1 with pending := [.jobAdmit] }
    w.ordered ∧ waitHolds ⟨8191, 0, 5⟩ 5 = true ∧ waitHolds ⟨8191, 0, 5⟩ 4 = false ∧ s.ordered ∧ State.reset.ordered ∧
      (∃ t, step s = .next t) ∧ ∃ t, step State.reset = .next t :=
  ⟨ordered_of (by decide +kernel), by decide, by decide, ordered_of (by decide +kernel), ordered_of (by decide +kernel),
    ⟨_, rfl⟩, ⟨_, rfl⟩⟩

/-- A core that no job holds has nothing to fetch. -/
theorem nothing_to_fetch {s : State} {c : Nat} (h : s.jobOn c = none) : AllFetched s c ∧ s.fetchFor c = none :=
  ⟨fun j hj => by rw [h] at hj; exact absurd hj (by simp), by rw [State.fetchFor, h]; rfl⟩

/-- A job of one command on core 0. -/
def jobOne : Job := { job1 with desc := { job1.desc with cmdCount := 1 } }

/-- Its device has no job on another core. -/
theorem only_core_0 (k : Core) {c : Nat} (h : c ≠ 0) : (devJ jobOne k).jobOn c = none := by
  have hc : (devJ jobOne k).core c = Core.reset := by
    show Sparse.get Core.reset [(0, k)] c = Core.reset
    simp [Sparse.get, h]
  rw [State.jobOn, hc]; rfl

/-- StepTakesTheFront: a device at reset, and core 0 in a WAIT in progress, the last command of its list. -/
theorem wit_StepTakesTheFront :
    let h := hdr 0 0
    let w : Instr := .wait 0 h ⟨8191, 0, 5⟩
    let k := { core1 with nextSeq := 1, waitOn := some ⟨8191, 0, 5⟩, issued := [{ issued0 with cmd := w }] }
    let s := devJ jobOne k
    State.reset.ordered ∧ (∀ c, AllFetched State.reset c ∧ State.reset.fetchFor c = none) ∧ s.ordered ∧ s.pending = [] ∧
      (∀ c, AllFetched s c ∧ s.fetchFor c = none) ∧ (s.jobOn 0).isSome = true ∧ (s.core 0).waitOn.isSome = true ∧
      (s.cluster 0).stopped = false ∧ (s.cluster 1).stopped = true ∧ s.cfg.tag = 0 := by
  refine ⟨ordered_of (by decide +kernel), fun _ => nothing_to_fetch rfl, ordered_of (by decide +kernel), rfl, ?_, by decide +kernel⟩
  intro c
  by_cases h : c = 0
  · subst h
    refine ⟨fun j hj => ?_, by decide +kernel⟩
    obtain rfl : jobOne = j := Option.some.inj ((show (devJ jobOne _).jobOn 0 = some jobOne by decide +kernel).symm.trans hj)
    decide +kernel
  · exact nothing_to_fetch (only_core_0 _ h)

/-- The list of core 0 of job 1, at shared address 0: an ACMOUT with seq 0 and a parameter record at 16, and behind it nothing. -/
def listMem : List Byte := toBytes 32 (code [(0, 5), (12, 1), (32, 16), (211, 1)]).toNat

/-- FetchBringsTheNextCommand, the buffer: the eight places of a list, of which the first has a record, into an empty buffer. -/
theorem wit_FetchBringsTheNextCommand_buffer :
    let j := { job1 with desc := { job1.desc with listAddr := 0x2000000000000000 } }
    let s : State := { devJ j core1 with shared := Sparse.setList 0 [] 0 (listMem ++ zeros 480 ++ [9]) }
    let o : Opnd := ⟨2, 0, 0⟩
    s.ordered ∧ s.faultless ∧ s.jobOn 0 = some j ∧ j.status = none ∧ s.clockStopped 0 = false ∧ (s.core 0).buffer.length ≤ 62 ∧
      j.listOf 0 = some o ∧ (∀ r ∈ (s.core 0).issued, r.seq < (s.core 0).nextSeq) ∧ (hdrOf (s.codeAt o 0)).prmN = 1 ∧
      (fetchedAt s j o 0).rec0 = 9 ∧ (fetchedAt s j o 1) = ⟨0, 0, 0⟩ ∧
      ∀ m k, o.plain (32 * m + k) = some (.shared (32 * m + k)) ∧ placeOpen s false (.shared (32 * m + k)) = true :=
  ⟨ordered_of (by decide +kernel), faultless_of (by decide +kernel), by decide +kernel, by decide +kernel, by decide +kernel,
    by decide +kernel, by decide +kernel, List.forall_mem_nil _, by decide +kernel, by decide +kernel, by decide +kernel,
    fun m k => ⟨by simp [Opnd.plain], rfl⟩⟩

/-- FetchBringsTheNextCommand, the head: the last command of a list in the buffer, one that decodes and one that is none. -/
theorem wit_FetchBringsTheNextCommand_head (b : Bool) :
    let e : Fetched := ⟨if b then code [(0, 0x16)] else 0, 0, 0⟩
    let s := devJ jobOne { core1 with buffer := [e] }
    s.ordered ∧ s.pending = [] ∧ s.held = [] ∧ (∀ d, AllFetched s d ∧ (d ≠ 0 → s.fetchFor d = none)) ∧ s.fetchFor 0 = some jobOne ∧
      jobOne.status = none ∧ (s.core 0).buffer = [e] ∧
      (decodeTile 0 e.word e.rec0 e.rec1).toOption = if b then some (.nop 0 (hdr 0 0)) else none := by
  refine ⟨by cases b <;> exact ordered_of (by decide +kernel), rfl, rfl, ?_, by cases b <;> decide +kernel, rfl, rfl,
    by cases b <;> decide +kernel⟩
  intro d
  by_cases h : d = 0
  · subst h
    refine ⟨fun j hj => ?_, fun h => absurd rfl h⟩
    obtain rfl : jobOne = j := by
      cases b
      · exact Option.some.inj ((show (devJ jobOne _).jobOn 0 = some jobOne by decide +kernel).symm.trans hj)
      · exact Option.some.inj ((show (devJ jobOne _).jobOn 0 = some jobOne by decide +kernel).symm.trans hj)
    cases b <;> decide +kernel
  · exact ⟨(nothing_to_fetch (only_core_0 _ h)).1, fun _ => (nothing_to_fetch (only_core_0 _ h)).2⟩

/-- TileCommandsReadAsWritten and MessagesReadAsWritten: a command with records and one whose body begins at bit 32; words that decode; a
message of each kind of length; a flit's payload. -/
theorem wit_ReadAsWritten :
    let h : Hdr := hdr 7 1
    let m : MsgHdr := ⟨some 5, true, 4095, 2, 5, 7⟩
    tileOf (.refmm 5 h (refmmOf 0 0)) = some (5, h) ∧ h.reserved = false ∧ opcodeOf (.nop 5 (hdr 7 0)) ∉ fromBit32 ∧
      opcodeOf (.fence 5 (hdr 7 0) (fenceOf 0)) ∈ fromBit32 ∧ (hdr 7 0).prmN = 0 ∧ (hdr 7 0).prm = 0 ∧
      (decodeTile 5 (code [(0, 0x16), (16, 7)]) 0 0).toOption = some (.nop 5 (hdr 7 0)) ∧ m.inPort = some 5 ∧
      (∀ p ∈ [Payload.wr true 0 (zeros 4096), .rd false 0 4096, .sync (sync2 8191 7), .transit (transit2 2047), .jobend 3, .mgmt (zeros 1024),
        .rsp 0 (zeros 4096)], payloadOk p = true) ∧ (transit2 2047).core.toNat < 2048 ∧ (zeros 244).length = 244 := by
  decide +kernel

/-! ### Words of tile commands, written out bit by bit from the maps of R297, R298 and R302 -/

/-- The command that a word with two records spells for core 5. -/
def reads (w r q : List (Nat × Nat)) : Option Instr := (decodeTile 5 (code w) (code r) (code q)).toOption

theorem test_word_nop_header : reads [(0, 0x16), (8, 1), (9, 1), (10, 1), (11, 1), (12, 2), (16, 7), (32, 40)] [] [] =
    some (.nop 5 ⟨true, true, true, true, 2, false, 7, 40⟩) := by decide +kernel

theorem test_word_fload : reads [(0, 1), (16, 7), (32, 31), (37, 4), (41, 1000), (51, 24), (62, 1), (63, 1), (64, 0x2000000000000040),
    (128, 48), (148, 3), (150, 2), (192, 0x2000000000001000)] [] [] =
    some (.fload 5 (hdr 7 0) ⟨31, 4, 1000, 24, true, true, 0x2000000000000040, 48, 3, 2, 0x2000000000001000⟩) := by decide +kernel

theorem test_word_fire : reads [(0, 2), (16, 7), (32, 30), (37, 5), (41, 1024), (52, 512), (62, 511), (72, 300), (81, 1), (82, 0x201), (92, 2),
    (94, 8191), (107, 4097), (120, 0x80), (128, 0x40), (192, 0xF0001), (212, 11)] [] [] =
    some (.fire 5 (hdr 7 0) ⟨30, 5, 1024, 512, 511, 300, true, 0x201, 2, 8191, 4097, 0x80, 0x40, 0xF0001, 11, 0⟩) := by decide +kernel

theorem test_word_firet : reads [(0, 3), (16, 7), (32, 1), (52, 1), (62, 1), (216, 63)] [] [] =
    some (.firet 5 (hdr 7 0) { fireOf 0 with facet := 1, m := 1, mValid := 1, nColsM1 := 63 }) := by decide +kernel

theorem test_word_acminit : reads [(0, 4), (16, 7), (32, 511), (41, 512), (51, 2), (53, 1), (64, 0x80000000)] [] [] =
    some (.acminit 5 (hdr 7 0) ⟨511, 512, 2, 1, 0x80000000⟩) := by decide +kernel

theorem test_word_acmout : reads [(0, 5), (12, 1), (16, 7), (32, 16), (48, 257), (57, 512), (67, 511), (77, 15), (81, 1023), (91, 15), (95, 1),
    (96, 0x2000000000000000), (160, 0x80001), (180, 0x3FF), (190, 1022), (200, 1), (201, 0x7F), (209, 3), (211, 4), (214, 1), (215, 1),
    (216, 1021), (226, 1)] [(0, 0x40), (64, 0xFFFFF)] [] =
    some (.acmout 5 (hdr 7 1) ⟨257, 512, 511, 15, 1023, 15, true, 0x2000000000000000, 0x80001, 0x3FF, 1022, true, 0x7F, 3, 4, true, true,
      1021, true, 0x40, 0xFFFFF⟩) := by decide +kernel

theorem test_word_refmm : reads [(0, 6), (12, 1), (16, 7), (32, 16), (48, 0x1000000000000001), (112, 11), (116, 12), (120, 0xABCDE), (140, 1),
    (142, 1023), (152, 1), (162, 8191), (175, 510), (184, 0x155), (194, 1), (196, 2)] [(0, 0x77), (64, 5)] [] =
    some (.refmm 5 (hdr 7 1) ⟨0x1000000000000001, 11, 12, 0xABCDE, true, false, 1023, 1, 8191, 510, 0x155, 1, 2, 0x77, 5⟩) := by decide +kernel

theorem test_word_refew : reads [(0, 7), (12, 1), (16, 7), (32, 16), (48, 21), (53, 0x1FFFFE), (74, 1), (78, 2), (82, 4), (86, 8), (90, 0x200),
    (100, 1023), (110, 0x81), (118, 1), (120, 2), (122, 3), (124, 1), (126, 1), (128, 0x10), (192, 0x20)] [(0, 0x30), (64, 0x40)] [] =
    some (.refew 5 (hdr 7 1) ⟨21, 0x1FFFFE, 1, 2, 4, 8, 0x200, 1023, 0x81, 1, 2, 3, 1, true, false, 0x10, 0x20, 0x30, 0x40⟩) := by decide +kernel

theorem test_word_reduce : reads [(0, 8), (16, 7), (32, 6), (35, 13), (39, 8191), (52, 1), (73, 256), (82, 14), (86, 2), (88, 1), (96, 0x10),
    (160, 0x80000001), (192, 0x20)] [] [] =
    some (.reduce 5 (hdr 7 0) ⟨6, 13, 8191, 1, 256, 14, 2, 1, 0x10, 0x80000001, 0x20⟩) := by decide +kernel

theorem test_word_transit : reads [(0, 9), (16, 7), (32, 0x8001), (48, 2), (50, 1), (51, 2047), (62, 4094), (74, 496), (83, 15), (96, 0x80000002)] [] [] =
    some (.transit 5 (hdr 7 0) ⟨0x8001, 2, true, 2047, 4094, 496, 15, 0x80000002⟩) := by decide +kernel

/-- The words of the five modes of MOVE with every field, and mode 5, which is none. -/
theorem test_word_move (mode : Fin 6) : reads [(0, 10), (12, 2), (16, 7), (32, 16), (48, mode.val), (51, 4), (54, 1), (56, 2), (58, 9), (62, 3), (64, 0x10),
    (128, 0x20), (192, 0x100001), (213, 0x8002), (229, 0x8003), (245, 0x91), (253, 3)]
    [(0, 0x8000000001), (40, 2), (80, 3), (120, 4), (160, 0x8005), (176, 0x100006)] [(0, 0x60), (64, 0x80007), (85, 1), (86, 10)] =
    let f : MoveArgs := ⟨4, 1, 2, 9, 3, 0x10, 0x20, 0x100001, 0x8002, 0x8003, 0x91, 3, 0x8000000001, 2, 3, 4, 0x8005, 0x100006, 0x60, 0x80007,
      false, true, 10⟩
    [some (.movePlain 5 (hdr 7 2) f), some (.moveTile 5 (hdr 7 2) f), some (.moveTranspose 5 (hdr 7 2) f), some (.moveCompress 5 (hdr 7 2) f),
      some (.moveExpand 5 (hdr 7 2) f), none].getD mode.val none := by
  revert mode; decide +kernel

theorem test_word_gather_emb : reads [(0, 11), (12, 1), (16, 7), (32, 16), (49, 1), (51, 3), (53, 2), (55, 11), (59, 0x100001), (80, 0x10002),
    (97, 0x403), (108, 0x80004), (128, 0x10), (192, 0x20)] [(0, 0x30), (64, 0x40), (128, 0x50)] [] =
    some (.gatherEmb 5 (hdr 7 1) ⟨true, false, 3, 2, 11, 0x100001, 0x10002, 0x403, 0x80004, 0x10, 0x20, 0x30, 0x40, 0x50⟩) := by decide +kernel

theorem test_word_gather_spt : reads [(0, 11), (16, 7), (48, 1), (49, 9), (53, 63), (60, 257), (69, 1), (70, 0x201), (80, 2), (82, 4097), (128, 0x10),
    (192, 0x20)] [] [] = some (.gatherSpt 5 (hdr 7 0) ⟨9, 63, 257, true, 0x201, 2, 4097, 0x10, 0x20⟩) := by decide +kernel

theorem test_word_update : reads [(0, 12), (12, 1), (16, 7), (32, 16), (48, 1), (50, 1), (52, 2), (54, 0x80001), (96, 0x3F800000), (128, 0x10),
    (192, 0x20)] [(0, 0x30), (64, 0x8001), (96, 0x80000002), (128, 0x800003)] [] =
    some (.update 5 (hdr 7 1) ⟨true, false, true, false, 2, 0x80001, 0x3F800000, 0x10, 0x20, 0x30, 0x8001, 0x80000002, 0x800003⟩) := by decide +kernel

/-- The words of the eight operations of SYNC, and operation 8, which is none. -/
theorem test_word_sync (op : Fin 9) : reads [(0, 13), (16, 7), (32, op.val), (36, 8191), (49, 1), (50, 4094), (63, 1), (64, 0x7FFF8), (128, 0x10),
    (192, 0x20)] [] [] =
    let f : SyncArgs := ⟨8191, true, 4094, false, true, 0x7FFF8, 0x10, 0x20⟩
    let h := hdr 7 0
    [some (.syncAdd 5 h f), some (.syncSet 5 h f), some (.syncMax 5 h f), some (.syncMin 5 h f), some (.syncOr 5 h f), some (.syncAnd 5 h f),
      some (.syncCas 5 h f), some (.syncPost 5 h f), none].getD op.val none := by
  revert op; decide +kernel

theorem test_word_claim (b : Bool) : reads [(0, 14), (16, 7), (32, 4097), (45, b.toNat), (46, 64), (53, 1), (64, 0x8001), (80, 0x80000002),
    (112, 3), (144, 0x80000040), (176, 0x40), (208, 0x40008)] [] [] =
    let f : ClaimArgs := ⟨4097, 64, true, 0x8001, 0x80000002, 3, 0x80000040, 0x40, 0x40008⟩
    some (if b then .claimExplicit 5 (hdr 7 0) f else .claimNext 5 (hdr 7 0) f) := by
  revert b; decide +kernel

theorem test_word_wait : reads [(0, 15), (16, 7), (32, 8190), (45, 3), (64, 0x8000000000000001)] [] [] =
    some (.wait 5 (hdr 7 0) ⟨8190, 3, 0x8000000000000001⟩) := by decide +kernel

/-- The words of the three operations of EXPO, and operation 3, which is none. -/
theorem test_word_expo (op : Fin 4) : reads [(0, 16), (16, 7), (32, op.val), (34, 1023), (44, 1024), (55, 2), (64, 0x40)] [] [] =
    let f : ExpoArgs := ⟨1023, 1024, 2, 0x40⟩
    [some (.expoSave 5 (hdr 7 0) f), some (.expoRestore 5 (hdr 7 0) f), some (.expoClear 5 (hdr 7 0) f), none].getD op.val none := by
  revert op; decide +kernel

theorem test_word_phase : reads [(0, 17), (16, 7), (32, 6)] [] [] = some (.phase 5 (hdr 7 0) 6) := by decide +kernel

theorem test_word_ballast : reads [(0, 18), (16, 7), (33, 9), (38, 1), (39, 0x1000001)] [] [] =
      some (.ballastFixed 5 (hdr 7 0) ⟨9, false, true⟩ 0x1000001) ∧
    reads [(0, 18), (16, 7), (32, 1), (33, 9), (37, 1), (64, 8189), (77, 2), (128, 5)] [] [] =
      some (.ballastUntil 5 (hdr 7 0) ⟨9, true, false⟩ ⟨8189, 2, 5⟩) := by decide +kernel

theorem test_word_fence : reads [(0, 19), (16, 7), (32, 0x15), (38, 1)] [] [] = some (.fence 5 (hdr 7 0) ⟨0x15, false, true⟩) := by decide +kernel

theorem test_word_task : reads [(0, 20), (16, 7), (32, 3), (64, 0x40), (128, 0x80)] [] [] = some (.task 5 (hdr 7 0) ⟨3, 0x40, 0x80⟩) := by
  decide +kernel

theorem test_word_window : reads [(0, 21), (16, 7), (33, 62), (39, 1), (41, 1), (42, 4093), (64, 0x40), (128, 0x80)] [] [] =
      some (.windowOpen 5 (hdr 7 0) ⟨62, true, false, true, 4093, 0x40, 0x80⟩) ∧
    reads [(0, 21), (16, 7), (32, 1), (33, 62)] [] [] = some (.windowClose 5 (hdr 7 0) 62) := by decide +kernel

/-- Opcodes 0 and 0x17 are none (R300, cause 0x01); a reserved header bit and a bit that no map lists are noted (R297). -/
theorem test_word_none :
    decodeTile 5 (code [(16, 7)]) 0 0 = .error 1 ∧ decodeTile 5 (code [(0, 0x17)]) 0 0 = .error 1 ∧
      ((reads [(0, 0x16), (14, 1)] [] []).bind tileOf).map (·.2.reserved) = some true ∧
      ((reads [(0, 0x13), (39, 1)] [] []).bind tileOf).map (·.2.reserved) = some true ∧
      ((reads [(0, 0x13), (38, 1)] [] []).bind tileOf).map (·.2.reserved) = some false := by decide +kernel

/-! ### Ill-formed commands -/

/-- A term for each reason of IllFormed, which wellFormed refuses, and the nearest that it takes. -/
theorem test_illFormed :
    illFormed (.task 0 (hdr 0 0) ⟨0, 0, 0x80008⟩) = [.refused] ∧ illFormed (.registerWrite 4 8 0) = [.access] ∧
      illFormed (.directWrite 4 4 0) = [.register] ∧ illFormed (.bar4Read 0 0) = [.length] ∧
      illFormed (.msgRd (from2 0) false 0 0) = [.range] ∧
      (∀ i ∈ [Instr.task 0 (hdr 0 0) ⟨0, 0, 0x80000⟩, .registerWrite 8 8 0, .bar4Read 0 1, .msgRd (from2 0) false 0 1], wellFormed i = true) := by
  decide +kernel

/-! ### One command each, with results from the spec's rules -/

/-- FIRE (R23 to R25, R62): one INT8 activation 3 on INT4 weights 1 and 2 adds 3 and 6 to an integer tile row. -/
theorem test_fire_integer :
    let t := next (.fire 0 (hdr 0 0) { fire0 with acmRow := 510, exp := 0 }) (dev coreF)
    (((t.core 0).rowAt false 510).entries.take 3) = [3, 6, 0] := by decide +kernel

/-- REFMM (R132 to R134): 3 · 5 + 0 · 1 in INT8. -/
theorem test_refmm_integer :
    let t := next (.refmm 0 (hdr 0 1) refmm0) dev1
    (((t.core 0).rowAt false 511).entries.take 2) = [15, 0] := by decide +kernel

/-- REFEW ADD (R136): 1.0 + 2.0 = 3.0 in FP32. -/
theorem test_refew_add :
    let k : Core := { core1 with mem := [(2, 0x80), (3, 0x3F), (67, 0x40)] }
    let t := next (.refew 0 (hdr 0 1) (refew0 0)) (dev k)
    Sparse.getList 0 (t.core 0).mem 192 4 = [0, 0, 0x40, 0x40] := by decide +kernel

/-- SYNC ADD and CAS (R306): 2^64 - 1 + 2 wraps to 1; a comparand that differs changes nothing. -/
theorem test_sync :
    let s : State := { dev1 with sync := [(5, 0xFFFFFFFFFFFFFFFF)] }
    (next (.syncAdd 0 (hdr 0 0) ⟨5, false, 0, false, false, 0, 2, 0⟩) s).ctr 5 = 1 ∧
      (next (.syncCas 0 (hdr 0 0) ⟨5, false, 0, false, false, 0, 2, 7⟩) s).ctr 5 = 0xFFFFFFFFFFFFFFFF := by decide +kernel

/-- CLAIM NEXT (R310): the counter goes from 6 to 7 and the claim offset is formed from index 6; at the limit the job skips. -/
theorem test_claim_next :
    let s : State := { dev1 with sync := [(5, 6)] }
    (next (.claimNext 0 (hdr 0 0) ⟨5, 0, false, 2, 9, 0, 64, 64, 0⟩) s).ctr 5 = 7 ∧
      ((next (.claimNext 0 (hdr 0 0) ⟨5, 0, false, 2, 6, 0, 64, 64, 0⟩) s).core 0).skip = 2 := by decide +kernel

/-- A tile command that R300 refuses ends its job with BAD_CMD (R301): ACMINIT with policy 3. -/
theorem test_refusal :
    let t := next (.acminit 0 (hdr 0 0) ⟨0, 1, 0, 3, 0⟩) dev1
    (t.jobs.map (·.status)) = [some .badCmd] ∧ t.reg Reg.GLB_CMD_REFUSALS = 1 := by decide +kernel

/-- The submission tail doorbell of a disabled ring changes no ring. -/
theorem test_doorbell : (next (.sqTailDoorbell 3 5) State.reset).rings = State.reset.rings := by decide +kernel

/-- An FEC-correct flit whose check fails is not accepted (R348): nothing of the port's expectation changes. -/
theorem test_bad_flit :
    ((next (.dataFlitReceive 0 ⟨0, 0, false, 0, 0, [], false, true⟩) (devF port0)).port 0).rxExpected = 0 := by decide +kernel

/-- PORT_RETRY (R345, R352): a lane that is withdrawn stays so, the other three are tried. -/
theorem test_withdrawn_stays :
    let t := next (.portRetry 0 15) (devO { Port.reset with withdrawn := 8 } 1)
    (t.port 0).healthy = 7 ∧ (t.port 0).withdrawn = 8 ∧ (t.port 0).state = .training := by decide +kernel

/-- A retrain (R350, R364): the outage counts from it, and retrain of NRN_PORT_CTRL reads 1 until it is done (R378). -/
theorem test_retrain_outage :
    let s : State := { devO port0 1 with ticks := 9000000 }
    let t := next (.portRetrainRequest 0 15) s
    (t.port 0).downSince = 9000000 ∧ t.downLong 0 = false ∧ bit (t.view (Reg.NRN_PORT_CTRL 0)) 7 = true := by decide +kernel

end Sys2Proof.Tests
end

section
namespace Sys2Proof.Machine

/-- The weight that a zero row image holds in any column is 0 (R17). -/
theorem weightOf_zero (fmt j : Nat) : weightOf fmt 0#128 j = 0 := by
  have hb : ∀ lo n, bits 0#128 lo n = 0 := fun lo n => by simp [bits]
  unfold weightOf
  split
  · simp [hb]
  · simp [hb, bit]
  · have hq : 2 ≤ facetQ fmt := by unfold facetQ; split <;> omega
    have h2 : 0 < 2 ^ (facetQ fmt - 1) := Nat.two_pow_pos _
    simp [hb, signed]

theorem Facet.weight_zero (f : Facet) (r j : Nat) : f.weight r 0#128 j = 0 := by
  simp [Facet.weight, weightOf_zero]

/-- A fold that adds is the sum of what it adds. -/
theorem foldl_add_eq_sum {α : Type} (g : α → Int) (l : List α) (a : Int) :
    l.foldl (fun y e => y + g e) a = a + (l.map g).sum := by
  induction l generalizing a with
  | nil => simp
  | cons e l ih => simp [ih, Int.add_assoc]

/-- The sum of a function over the listed keys of a rising map below k, which is 0 where nothing is listed, is its sum over all
keys below k. -/
theorem Sparse.sum_eq_range {α : Type} (d : α) (g : Nat → α → Int) (hd : ∀ r, g r d = 0) (k : Nat) :
    ∀ {m : Sparse α}, Sparse.rising m = true →
      (m.map fun e => if e.1 < k then g e.1 e.2 else 0).sum = ((List.range k).map fun r => g r (Sparse.get d m r)).sum := by
  intro m
  induction m with
  | nil => intro _; simp [Sparse.get, hd]
  | cons e m ih =>
    obtain ⟨k', v⟩ := e
    intro hr
    obtain ⟨ha, hm⟩ := Sparse.rising_tail hr
    have hget : ∀ r, g r (Sparse.get d ((k', v) :: m) r) = (if r = k' then g r v else 0) + g r (Sparse.get d m r) := by
      intro r
      by_cases h1 : r = k'
      · subst h1; simp [Sparse.get, Sparse.get_below d ha le_rfl, hd]
      · by_cases h2 : r < k'
        · simp [Sparse.get, h1, h2, Sparse.get_below d ha h2.le, hd]
        · simp [Sparse.get, h1, h2]
    have hone : ((List.range k).map fun r => if r = k' then g r v else 0).sum = if k' < k then g k' v else 0 := by
      clear ih hget
      induction k with
      | zero => simp
      | succ k ihk =>
        rw [List.range_succ, List.map_append, List.sum_append, ihk]
        by_cases h1 : k = k'
        · subst h1; simp
        · simp [h1, show (k' < k + 1 ↔ k' < k) by omega]
    simp only [List.map_cons, List.sum_cons, ih hm, hget, List.sum_map_add, hone]

/-- The run of a logical column as an exact sum over all rows below k (R23). -/
theorem Facet.run_eq_sum (f : Facet) (hr : Sparse.rising f.rows = true) (a : List Int) (k j : Nat) :
    f.run a k j = ((List.range k).map fun r => a.getD r 0 * f.weight r (Sparse.get 0 f.rows r) j).sum := by
  have hstep : f.run a k j = (f.rows.map fun e => if e.1 < k then a.getD e.1 0 * f.weight e.1 e.2 j else 0).sum := by
    rw [← Int.zero_add (List.sum _), ← foldl_add_eq_sum]
    unfold Facet.run
    congr 1
    funext y e
    split <;> simp
  rw [hstep]
  exact Sparse.sum_eq_range 0 (fun r w => a.getD r 0 * f.weight r w j) (fun r => by simp [Facet.weight_zero]) k hr

/-- An output of FIRET as an exact sum over the columns (R35). -/
theorem Facet.outputs_getD (f : Facet) (a : List Int) {k r : Nat} (n : Nat) (h : r < k) :
    (f.outputs a k n).getD r 0 =
      ((List.range n).map fun y => weightOf f.fmt.toNat (Sparse.get 0 f.rows r) y * a.getD y 0).sum := by
  simp [Facet.outputs, List.getD_eq_getElem?_getD, h, foldl_add_eq_sum]

end Sys2Proof.Machine

open Sys2Proof Sys2Proof.Machine Sys2Proof.Certificates.Slice0

/-- Settles O8: the listed rows are the only ones whose weight is not 0, so their sum is the sum over all rows. -/
theorem runsAreExactSums : Obligations.RunsAreExactSums := by
  intro fc a k j hwf _ _
  exact ⟨fc.run_eq_sum ((Sparse.wf_iff 0 fc.rows).mp hwf).1 a k j, fun r n h => fc.outputs_getD a n h⟩
end

section
namespace Sys2Proof.Machine

/-! ### What an ordered state gives -/

/-- The maps of a state in order, by name. -/
structure State.Maps (s : State) : Prop where
  regs : Sparse.rising s.regs = true
  cores : Sparse.rising s.cores = true
  rings : Sparse.rising s.rings = true
  vectors : Sparse.rising s.vectors = true
  latches : Sparse.rising s.latches = true
  hostPages : Sparse.rising s.hostPages = true
  shared : Sparse.rising s.shared = true
  stacked : Sparse.rising s.stacked = true
  host : Sparse.rising s.host = true
  clusters : s.power.clusters.length = 32
  core : ∀ c, (s.core c).ordered

/-- A value that every entry of a map has in common with the default, every key has. -/
theorem Sparse.get_mem {α : Type} (p : α → Prop) {d : α} (hd : p d) {m : Sparse α} (h : ∀ e ∈ m, p e.2) (k : Nat) :
    p (Sparse.get d m k) := by
  induction m with
  | nil => exact hd
  | cons e m ih =>
    obtain ⟨k', v⟩ := e
    obtain ⟨h1, h2⟩ := List.forall_mem_cons.mp h
    unfold Sparse.get
    split
    · exact h1
    · split
      · exact hd
      · exact ih h2

theorem Core.ordered_reset : Core.reset.ordered := by
  refine ⟨rfl, rfl, rfl, rfl, rfl, rfl, rfl, rfl, ?_, ?_⟩ <;> intro e he <;> cases he

theorem Facet.ordered_reset : Facet.reset.ordered := ⟨rfl, rfl, rfl, rfl, rfl, rfl⟩

theorem State.ordered.maps {s : State} (h : s.ordered) : s.Maps := by
  obtain ⟨⟨hsh, hst, hho⟩, ⟨_, _, _, _, _, hpg, hla, _⟩, _, ⟨hcl, _⟩, hre, hco, hri, _, _, _, _, hve, hcs, _⟩ := h
  exact ⟨hre, hco, hri, hve, hla, hpg, ((Sparse.wf_iff _ _).mp hsh).1, ((Sparse.wf_iff _ _).mp hst).1,
    ((Sparse.wf_iff _ _).mp hho).1, hcl, Sparse.get_mem Core.ordered Core.ordered_reset hcs⟩

theorem Core.ordered.facet {k : Core} (h : k.ordered) (f : Nat) : (k.facet f).ordered := by
  obtain ⟨_, _, _, _, _, _, _, _, hf, _⟩ := h
  exact Sparse.get_mem Facet.ordered Facet.ordered_reset hf f

theorem Core.ordered.facets {k : Core} (h : k.ordered) : Sparse.rising k.facets = true := by
  obtain ⟨_, _, _, _, _, _, _, hf, _⟩ := h
  exact hf

/-! ### Event records: what posting one leaves alone -/

@[simp] theorem toBytes_length (n x : Nat) : (toBytes n x).length = n := by
  induction n generalizing x with
  | zero => rfl
  | succ n ih => simp [toBytes, ih]

@[simp] theorem Event.bytes_length (e : Event) (time : Nat) (phase : Bool) : (e.bytes time phase).length = 64 := by
  simp [Event.bytes]

/-- A state without what event records and fault records change: registers, host memory, the event ring, vectors and what has
left the device. -/
def State.eventless (s : State) : State :=
  { s with regs := [], host := [], eq := ⟨0, 0, 0, true, 0⟩, vectors := [], out := [] }

theorem State.eq_of_eventless {s t : State} (h : t.eventless = s.eventless) :
    t = { s with regs := t.regs, host := t.host, eq := t.eq, vectors := t.vectors, out := t.out } :=
  calc t = { t.eventless with regs := t.regs, host := t.host, eq := t.eq, vectors := t.vectors, out := t.out } := rfl
    _ = { s.eventless with regs := t.regs, host := t.host, eq := t.eq, vectors := t.vectors, out := t.out } := by rw [h]
    _ = _ := rfl

/-- What does not depend on what event records change is the same of two states that agree but for that. -/
theorem State.keeps_of_eventless {α : Type} (f : State → α) (hf : ∀ u : State, f u.eventless = f u) {s t : State}
    (h : t.eventless = s.eventless) : f t = f s := by rw [← hf t, h, hf s]

@[simp] theorem State.eventless_setReg (s : State) (off : Nat) (v : Word64) : (s.setReg off v).eventless = s.eventless := rfl
@[simp] theorem State.eventless_setFld (s : State) (off lo n v : Nat) : (s.setFld off lo n v).eventless = s.eventless := rfl
@[simp] theorem State.eventless_count (s : State) (off k : Nat) : (s.count off k).eventless = s.eventless := rfl
@[simp] theorem State.eventless_noteClass (s : State) (cls : Nat) : (s.noteClass cls).eventless = s.eventless := rfl

@[simp] theorem State.eventless_postEvent (s : State) (e : Event) : (s.postEvent e).eventless = s.eventless :=
  s.postEvent_keeps State.eventless e (fun _ _ _ => rfl) (fun _ _ => rfl) (fun _ _ _ => rfl) (fun _ _ => rfl) fun _ _ _ => rfl

@[simp] theorem State.eventless_raise (s : State) (e : Event) : (s.raise e).eventless = s.eventless := by
  unfold State.raise
  rw [State.eventless_postEvent]
  split <;> split <;> simp

@[simp] theorem State.eventless_memEvent (s : State) (who : Who) (cls level addr : Nat) (poisoned : Bool) :
    (s.memEvent who cls level addr poisoned).eventless = s.eventless := by
  unfold State.memEvent
  split
  · rfl
  · exact State.eventless_raise _ _

/-! ### An event record in the ring, and one that is lost -/

theorem State.sendMsix_unmasked {s : State} {v : Nat} (h : (s.vector v).masked = false) : s.sendMsix v = s.emit (.msix v) := by
  simp [State.sendMsix, h]

theorem State.sendMsix_keeps {α : Type} (f : State → α) (s : State) (v : Nat) (h1 : ∀ s v x, f (State.setVector s v x) = f s)
    (h2 : ∀ s o, f (State.emit s o) = f s) : f (s.sendMsix v) = f s := by
  unfold State.sendMsix
  split
  · exact h1 _ _ _
  · exact h2 _ _

/-- The event ring after one more record (R262). -/
def State.eqNext (s : State) : EventRing :=
  let tail := (s.eq.tail + 1) % s.eqSize
  { s.eq with tail := tail, used := s.eq.used + 1, phase := if tail = 0 then !s.eq.phase else s.eq.phase }

/-- A record at the tail of the event ring: what a function of the state that sees neither vectors nor output finds after
it (R262, R288). -/
theorem State.writeEvent_keeps {α : Type} (f : State → α) (s : State) (e : Event)
    (h1 : ∀ s v x, f (State.setVector s v x) = f s) (h2 : ∀ s o, f (State.emit s o) = f s) :
    f (s.writeEvent e) =
      f { s.putHost ((s.reg Reg.HQ_EQ_BASE).toNat + 64 * s.eq.tail) (e.bytes s.deviceTime s.eq.phase) with eq := s.eqNext } := by
  unfold State.writeEvent
  extract_lets addr tail phase s1
  rw [apply_ite f, State.sendMsix_keeps f _ _ h1 h2, ite_self]
  rfl

theorem State.postEvent_room {s : State} (e : Event) (he : s.eqEnabled = true) (hu : s.eq.used < s.eqSize) :
    s.postEvent e = s.writeEvent e := by simp [State.postEvent, he, hu]

theorem State.postEvent_full {s : State} (e : Event) (h : ¬(s.eqEnabled = true ∧ s.eq.used < s.eqSize)) :
    s.postEvent e = { s.count Reg.HQ_EQ_LOST 1 with eq := { s.eq with dropped := s.eq.dropped + 1 } } := by
  rw [State.postEvent, if_neg h]; rfl

theorem State.postEvent_regs (s : State) (e : Event) :
    (s.postEvent e).regs = s.regs ∨ (s.postEvent e).regs = (s.count Reg.HQ_EQ_LOST 1).regs := by
  by_cases h : s.eqEnabled = true ∧ s.eq.used < s.eqSize
  · left
    rw [State.postEvent_room e h.1 h.2, State.writeEvent_keeps State.regs s e (fun _ _ _ => rfl) (fun _ _ => rfl),
      State.putHost_regs]
  · right
    rw [State.postEvent_full e h]

/-! ### The registers that event records and fault records change -/

/-- Of the registers an event record can change the counter of losses alone (R289). -/
theorem State.postEvent_reg {s : State} (h : Sparse.rising s.regs = true) (e : Event) {off : Nat} (ho : off ≠ Reg.HQ_EQ_LOST) :
    (s.postEvent e).reg off = s.reg off := by
  rcases s.postEvent_regs e with h1 | h1
  · simp only [State.reg, h1]
  · have := State.reg_count h Reg.HQ_EQ_LOST 1 off
    rw [if_neg ho] at this
    simpa only [State.reg, h1] using this

theorem State.rising_postEvent {s : State} (h : Sparse.rising s.regs = true) (e : Event) :
    Sparse.rising (s.postEvent e).regs = true := by
  rcases s.postEvent_regs e with h1 | h1
  · rw [h1]; exact h
  · rw [h1]; exact State.rising_count h _ _

/-- The registers that the record of a fault may change (R289, R319, R341). -/
def raiseRegs : List Nat := [Reg.HQ_EQ_LOST, Reg.GLB_FAULT_STAT, Reg.GLB_CONTAINED]

/-- The state in which the record of a fault is posted: its class is noted, and counted where it is contained (R319). -/
def State.classed (s : State) (cls : Nat) : State :=
  let s := if cls = 0 then s else s.noteClass cls
  if cls = clsContained then s.count Reg.GLB_CONTAINED 1 else s

theorem State.raise_classed (s : State) (e : Event) : s.raise e = (s.classed e.cls).postEvent e := rfl

theorem State.rising_noteClass {s : State} (h : Sparse.rising s.regs = true) (cls : Nat) :
    Sparse.rising (s.noteClass cls).regs = true := State.rising_setReg (State.rising_setReg h _ _) _ _

theorem State.rising_classed {s : State} (h : Sparse.rising s.regs = true) (cls : Nat) :
    Sparse.rising (s.classed cls).regs = true := by
  unfold State.classed
  split <;> split
  · exact State.rising_count h _ _
  · exact h
  · exact State.rising_count (State.rising_noteClass h _) _ _
  · exact State.rising_noteClass h _

theorem State.classed_reg {s : State} (h : Sparse.rising s.regs = true) (cls : Nat) {off : Nat}
    (h1 : off ≠ Reg.GLB_FAULT_STAT) (h2 : off ≠ Reg.GLB_CONTAINED) : (s.classed cls).reg off = s.reg off := by
  have hn : (s.noteClass cls).reg off = s.reg off := by
    simp only [State.noteClass, State.setFld]
    rw [State.reg_setReg (State.rising_setReg h _ _), if_neg h1, State.reg_setReg h, if_neg h1]
  unfold State.classed
  split <;> split
  · rw [State.reg_count h, if_neg h2]
  · rfl
  · rw [State.reg_count (State.rising_noteClass h _), if_neg h2, hn]
  · exact hn

theorem State.rising_raise {s : State} (h : Sparse.rising s.regs = true) (e : Event) : Sparse.rising (s.raise e).regs = true :=
  State.rising_postEvent (State.rising_classed h _) e

theorem State.raise_reg {s : State} (h : Sparse.rising s.regs = true) (e : Event) {off : Nat} (ho : off ∉ raiseRegs) :
    (s.raise e).reg off = s.reg off := by
  obtain ⟨h1, h2, h3⟩ : off ≠ Reg.HQ_EQ_LOST ∧ off ≠ Reg.GLB_FAULT_STAT ∧ off ≠ Reg.GLB_CONTAINED := by
    simpa [raiseRegs] using ho
  rw [State.raise_classed, State.postEvent_reg (State.rising_classed h _) e h1, State.classed_reg h _ h2 h3]

theorem State.memEvent_reg {s : State} (h : Sparse.rising s.regs = true) (who : Who) (cls level addr : Nat) (poisoned : Bool)
    {off : Nat} (ho : off ∉ raiseRegs) : (s.memEvent who cls level addr poisoned).reg off = s.reg off := by
  unfold State.memEvent
  split
  · rfl
  · exact State.raise_reg h _ ho

theorem State.rising_memEvent {s : State} (h : Sparse.rising s.regs = true) (who : Who) (cls level addr : Nat)
    (poisoned : Bool) : Sparse.rising (s.memEvent who cls level addr poisoned).regs = true := by
  unfold State.memEvent
  split
  · exact h
  · exact State.rising_raise h _

end Sys2Proof.Machine
end

section
namespace Sys2Proof.Machine

/-! ### Bit fields that are set -/

/-- A bit of a word with a field replaced. -/
theorem getLsbD_setBits {w : Nat} (x : BitVec w) (lo n v i : Nat) (hi : i < w) :
    (setBits x lo n v).getLsbD i = if lo ≤ i ∧ i < lo + n then v.testBit (i - lo) else x.getLsbD i := by
  simp only [setBits, BitVec.getLsbD_or, BitVec.getLsbD_and, BitVec.getLsbD_not, BitVec.getLsbD_ofNat, hi, decide_true,
    Bool.true_and, Nat.testBit_shiftLeft, Nat.testBit_two_pow_sub_one, Nat.testBit_mod_two_pow]
  by_cases h1 : lo ≤ i
  · by_cases h2 : i < lo + n
    · simp [h1, h2, show i - lo < n by omega]
    · simp [h1, h2, show ¬ i - lo < n by omega]
  · simp [h1]

/-- A bit of a field of a word. -/
theorem testBit_bits {w : Nat} (x : BitVec w) (lo n i : Nat) :
    (bits x lo n).testBit i = (decide (i < n) && x.getLsbD (lo + i)) := by
  simp [bits, Nat.testBit_mod_two_pow, Nat.testBit_shiftRight, BitVec.getLsbD]

/-- A field that is set reads as what it was set to. -/
theorem bits_setBits_same {w : Nat} (x : BitVec w) {lo n : Nat} (v : Nat) (h : lo + n ≤ w) :
    bits (setBits x lo n v) lo n = v % 2 ^ n := by
  apply Nat.eq_of_testBit_eq
  intro i
  rw [testBit_bits, Nat.testBit_mod_two_pow]
  by_cases hi : i < n
  · rw [getLsbD_setBits _ _ _ _ _ (by omega)]; simp [hi]
  · simp [hi]

/-- A field apart from the one that is set reads as before. -/
theorem bits_setBits_other {w : Nat} (x : BitVec w) {lo n lo' n' : Nat} (v : Nat) (h : lo' + n' ≤ w)
    (ha : lo' + n' ≤ lo ∨ lo + n ≤ lo') : bits (setBits x lo n v) lo' n' = bits x lo' n' := by
  apply Nat.eq_of_testBit_eq
  intro i
  rw [testBit_bits, testBit_bits]
  by_cases hi : i < n'
  · rw [getLsbD_setBits _ _ _ _ _ (by omega), if_neg (by omega)]
  · simp [hi]

theorem State.fld_setFld_same {s : State} (h : Sparse.rising s.regs = true) (off : Nat) {lo n : Nat} (v : Nat)
    (hw : lo + n ≤ 64) : (s.setFld off lo n v).fld off lo n = v % 2 ^ n := by
  simp only [State.fld, State.setFld]
  rw [State.reg_setReg h, if_pos rfl, bits_setBits_same _ _ hw]

/-! ### Sparse maps read in runs -/

theorem Sparse.length_getList {α : Type} (d : α) (m : Sparse α) (k n : Nat) : (Sparse.getList d m k n).length = n := by
  simp [Sparse.getList]

/-- What is set from a key on is read back as a run. -/
theorem Sparse.getList_setList {α : Type} [DecidableEq α] (d : α) (vs : List α) (k : Nat) {m : Sparse α}
    (h : Sparse.rising m = true) : Sparse.getList d (Sparse.setList d m k vs) k vs.length = vs := by
  apply List.ext_getElem (Sparse.length_getList ..)
  intro i h1 h2
  simp [Sparse.getList, Sparse.get_setList d vs k h, h2]

/-- A key outside a run that is set reads as before. -/
theorem Sparse.get_setList_outside {α : Type} [DecidableEq α] (d : α) (vs : List α) (k : Nat) {m : Sparse α}
    (h : Sparse.rising m = true) {i : Nat} (hi : i < k ∨ k + vs.length ≤ i) :
    Sparse.get d (Sparse.setList d m k vs) i = Sparse.get d m i := by
  rw [Sparse.get_setList d vs k h, if_neg (by omega)]

/-! ### Records of the event ring -/

/-- Host memory after a record at the tail of the event ring. -/
theorem State.writeEvent_host (s : State) (e : Event) :
    (s.writeEvent e).host = Sparse.setList 0 s.host ((s.reg Reg.HQ_EQ_BASE).toNat + 64 * s.eq.tail) (e.bytes s.deviceTime s.eq.phase) := by
  rw [State.writeEvent_keeps State.host s e (fun _ _ _ => rfl) (fun _ _ => rfl), State.putHost]

theorem State.writeEvent_eq (s : State) (e : Event) : (s.writeEvent e).eq = s.eqNext := by
  rw [State.writeEvent_keeps State.eq s e (fun _ _ _ => rfl) (fun _ _ => rfl)]

theorem State.writeEvent_regs (s : State) (e : Event) : (s.writeEvent e).regs = s.regs := by
  rw [State.writeEvent_keeps State.regs s e (fun _ _ _ => rfl) (fun _ _ => rfl), State.putHost_regs]

/-- The 64 bytes of a record stand at the tail (R288). -/
theorem State.writeEvent_getHost {s : State} (h : Sparse.rising s.host = true) (e : Event) :
    (s.writeEvent e).getHost ((s.reg Reg.HQ_EQ_BASE).toNat + 64 * s.eq.tail) 64 = e.bytes s.deviceTime s.eq.phase := by
  have := Sparse.getList_setList 0 (e.bytes s.deviceTime s.eq.phase) ((s.reg Reg.HQ_EQ_BASE).toNat + 64 * s.eq.tail) h
  rwa [Event.bytes_length, ← State.writeEvent_host] at this

/-- The rest of host memory stays. -/
theorem State.writeEvent_cell {s : State} (h : Sparse.rising s.host = true) (e : Event) {a : Nat}
    (ha : a < (s.reg Reg.HQ_EQ_BASE).toNat + 64 * s.eq.tail ∨ (s.reg Reg.HQ_EQ_BASE).toNat + 64 * s.eq.tail + 64 ≤ a) :
    (s.writeEvent e).cell (.host a) = s.cell (.host a) := by
  simp only [State.cell, State.writeEvent_host]
  exact Sparse.get_setList_outside 0 _ _ h (by rwa [Event.bytes_length])

/-! ### The event ring starts, stops and releases slots -/

theorem State.eqEnabled_setFld {s : State} (h : Sparse.rising s.regs = true) (v : Nat) :
    (s.setFld Reg.HQ_EQ_CTRL 0 1 v).eqEnabled = decide (v % 2 = 1) := by
  rw [State.eqEnabled, State.fld_setFld_same h _ _ (by omega), Nat.pow_one]

theorem State.tellFallback_off {s : State} (h : s.uarid.fallback = false ∨ s.eqEnabled = false) : s.tellFallback = s := by
  rw [State.tellFallback, if_neg]
  rintro ⟨h1, h2⟩
  rcases h with h | h <;> simp_all

/-- EVENT_RING_ENABLE of a ring that is not in use (R256, R289). -/
theorem State.enableEvents_on {s : State} (h : s.eqEnabled = false) : s.enableEvents true =
    { s with eq := { s.eq with head := 0, tail := 0, used := 0, phase := true } }.setFld Reg.HQ_EQ_CTRL 0 1 1 := by
  simp [State.enableEvents, h]

theorem State.enableEvents_off (s : State) : s.enableEvents false = s.setFld Reg.HQ_EQ_CTRL 0 1 0 := by
  simp [State.enableEvents]

/-- The slots that a new head frees (R263). -/
def State.eqFreed (s : State) (head : Nat) : Nat := (head + s.eqSize - s.eq.head % s.eqSize) % s.eqSize

/-- The state once a new head of the event ring is taken. -/
def State.eqHeadTaken (s : State) (head : Nat) : State :=
  { s with eq := { s.eq with head := head, used := s.eq.used - s.eqFreed head } }

/-- The state in which the count of lost records is written. -/
def State.eqLossesTold (s : State) (head : Nat) : State :=
  { s with eq := { s.eq with head := head, used := s.eq.used - s.eqFreed head, dropped := 0 } }

/-- A head that frees slots, where no record has been lost, and where some have (R263, R289). -/
theorem State.releaseEvents_taken {s : State} {head : Nat} (h1 : s.eqEnabled = true) (h2 : head < s.eqSize)
    (h3 : s.eqFreed head ≤ s.eq.used) (h4 : s.eqFreed head ≠ 0) :
    s.releaseEvents head = if s.eq.dropped = 0 then s.eqHeadTaken head
      else (s.eqLossesTold head).writeEvent { source := 0x1F, detail := 3, info1 := s.eq.dropped } := by
  have hn : ¬(!s.eqEnabled ∨ s.eqSize ≤ head ∨ s.eq.used < s.eqFreed head) := by simp [h1]; omega
  by_cases hd : s.eq.dropped = 0
  · have hc : ¬(s.eqFreed head ≠ 0 ∧ s.eq.dropped ≠ 0) := by simp [hd]
    rw [if_pos hd, State.releaseEvents]
    exact (if_neg hn).trans (if_neg hc)
  · rw [if_neg hd, State.releaseEvents]
    exact (if_neg hn).trans (if_pos ⟨h4, hd⟩)

/-! ### Notices -/

theorem State.idleDue_noticed {s : State} (h : Sparse.rising s.rings = true) (n : Nat) :
    (s.setRing n { s.ring n with noticed := true }).idleDue n = false := by
  simp [State.idleDue, State.ring_setRing h]

/-- A vector that is unmasked sends what is pending (R482). -/
theorem State.unmask_eq (s : State) (v : Nat) :
    s.unmask v = { s.setVector v ⟨false, false⟩ with out := s.out ++ if (s.vector v).pending then [.msix v] else [] } := by
  unfold State.unmask
  extract_lets p s1
  cases hp : (s.vector v).pending
  · rw [if_neg (by simp [p, hp]), if_neg (by simp), List.append_nil]; rfl
  · rw [if_pos hp, if_pos rfl]; rfl

end Sys2Proof.Machine

open Sys2Proof Sys2Proof.Machine Sys2Proof.Certificates.Slice0

/-- An event record in a ring with room, and one without. -/
theorem eventsReachTheRingOrAreCounted : EventsReachTheRingOrAreCounted := by
  intro s e ho
  obtain hm := ho.maps
  refine ⟨fun he hu => ?_, fun h => ?_⟩
  · have hregs := State.writeEvent_regs s e
    have hother := s.eventless_postEvent e
    rw [State.postEvent_room e he hu] at hother ⊢
    exact ⟨State.writeEvent_getHost hm.host e, fun a ha => State.writeEvent_cell hm.host e ha, State.writeEvent_eq s e, hregs,
      State.keeps_of_eventless State.cores (fun _ => rfl) hother, State.keeps_of_eventless State.jobs (fun _ => rfl) hother⟩
  · rw [State.postEvent_full e (by rcases h with h | h <;> simp [h])]
    refine ⟨?_, rfl, rfl, rfl⟩
    have := State.reg_count hm.regs Reg.HQ_EQ_LOST 1 Reg.HQ_EQ_LOST
    rwa [if_pos rfl] at this

/-- EVENT_RING_ENABLE starts an empty ring with phase 1. -/
theorem eventRingStarts {s : State} (hm : s.Maps) (h1 : s.eqEnabled = false) (h2 : s.uarid.fallback = false) :
    ∃ t, exec (.eventRingEnable true) s = .next t ∧ t.eqEnabled = true ∧
      t.eq = { s.eq with head := 0, tail := 0, used := 0, phase := true } ∧ t = { s with eq := t.eq, regs := t.regs } := by
  refine ⟨s.enableEvents true, ?_, ?_⟩
  · show Host.Outcome.next (s.enableEvents true).tellFallback = _
    rw [State.tellFallback_off]
    left; rw [State.enableEvents_on h1]; exact h2
  · rw [State.enableEvents_on h1]
    exact ⟨State.eqEnabled_setFld (s := { s with eq := _ }) hm.regs 1, rfl, rfl⟩

/-- EVENT_RING_ENABLE with en 0 stops the ring at once. -/
theorem eventRingStops {s : State} (hm : s.Maps) :
    ∃ t, exec (.eventRingEnable false) s = .next t ∧ t.eqEnabled = false ∧ t = { s with regs := t.regs } := by
  have hoff : (s.enableEvents false).eqEnabled = false := by
    rw [State.enableEvents_off]; exact State.eqEnabled_setFld hm.regs 0
  refine ⟨s.enableEvents false, ?_, hoff, ?_⟩
  · show Host.Outcome.next (s.enableEvents false).tellFallback = _
    rw [State.tellFallback_off (.inr hoff)]
  · rw [State.enableEvents_off]; rfl

/-- A released head frees its slots; the count of lost records goes first into the room. -/
theorem eventHeadFrees {s : State} (hm : s.Maps) (head : BitVec 16) (h1 : s.eqEnabled = true) (h2 : head.toNat < s.eqSize)
    (h3 : s.eqFreed head.toNat ≤ s.eq.used) (h4 : s.eqFreed head.toNat ≠ 0) :
    ∃ t, exec (.eventHeadRelease head) s = .next t ∧ t.eq.head = head.toNat ∧ t.eq.dropped = 0 ∧
      t.eq.used = s.eq.used - s.eqFreed head.toNat + (if s.eq.dropped = 0 then 0 else 1) ∧
      (s.eq.dropped ≠ 0 → t.getHost ((s.reg Reg.HQ_EQ_BASE).toNat + 64 * s.eq.tail) 64 =
        Event.bytes { source := 0x1F, detail := 3, info1 := s.eq.dropped } s.deviceTime s.eq.phase) := by
  refine ⟨s.releaseEvents head.toNat, rfl, ?_⟩
  rw [State.releaseEvents_taken h1 h2 h3 h4]
  by_cases hd : s.eq.dropped = 0
  · rw [if_pos hd, if_pos hd]
    exact ⟨rfl, hd, rfl, fun h => absurd hd h⟩
  · rw [if_neg hd, if_neg hd, State.writeEvent_eq]
    have hrec := State.writeEvent_getHost (s := s.eqLossesTold head.toNat) hm.host
      { source := 0x1F, detail := 3, info1 := s.eq.dropped }
    exact ⟨rfl, rfl, rfl, fun _ => hrec⟩

/-- HQ_EQ_LOST_READ takes the count. -/
theorem lostCountIsTaken {s : State} (hm : s.Maps) :
    ∃ t, exec (.hqEqLostRead .whole) s = .next t ∧ t.hostRead = .value (s.reg Reg.HQ_EQ_LOST) ∧
      t.reg Reg.HQ_EQ_LOST = 0 ∧ ∀ off, off ≠ Reg.HQ_EQ_LOST → t.reg off = s.reg off := by
  have hr := State.reg_setReg hm.regs Reg.HQ_EQ_LOST 0
  have hans : ∀ (u : State) v off, (u.answer v).reg off = u.reg off := fun _ _ _ => rfl
  refine ⟨(s.setReg Reg.HQ_EQ_LOST 0).answer (s.reg Reg.HQ_EQ_LOST), rfl, rfl, ?_, fun off ho => ?_⟩
  · rw [hans, hr, if_pos rfl]
  · rw [hans, hr, if_neg ho]

/-- HQ_MBOX_READ takes the oldest entry, or notes the underrun. -/
theorem mailboxReadTakesTheOldest {s : State} (hm : s.Maps) (ring : RingId) :
    ∃ t, exec (.hqMboxRead ring .whole) s = .next t ∧
      (∀ v l, (s.ring ring.toNat).mbox = v :: l → t.hostRead = .value v ∧
        t.ring ring.toNat = { s.ring ring.toNat with mbox := l, mboxLast := v }) ∧
      ((s.ring ring.toNat).mbox = [] → t.hostRead = .value (s.ring ring.toNat).mboxLast ∧
        t.ring ring.toNat = { s.ring ring.toNat with underrun := true }) := by
  have hset : ∀ r, (s.setRing ring.toNat r).ring ring.toNat = r := fun r => by rw [State.ring_setRing hm.rings, if_pos rfl]
  have hring : ∀ (u : State) v, (u.answer v).ring ring.toNat = u.ring ring.toNat := fun _ _ => rfl
  refine ⟨(s.takeMbox ring.toNat).answer (s.ring ring.toNat).mboxValue, rfl, fun v l h => ⟨?_, ?_⟩, fun h => ⟨?_, ?_⟩⟩
  · simp only [State.answer, Ring.mboxValue, h, List.headD_cons]
  · simp only [hring, State.takeMbox, h, hset]
  · simp only [State.answer, Ring.mboxValue, h, List.headD_nil]
  · simp only [hring, State.takeMbox, h, hset]

/-- IDLE_TIMEOUT_NOTICE sends its notice once. -/
theorem idleNoticeIsSentOnce {s : State} (hm : s.Maps) (ring : RingId) (h1 : s.idleDue ring.toNat = true)
    (h2 : (s.vector ring.toNat).masked = false) : ∃ t, exec (.idleTimeoutNotice ring) s = .next t ∧
      t.out = s.out ++ [.msix ring.toNat] ∧ t.idleDue ring.toNat = false := by
  refine ⟨(s.setRing ring.toNat { s.ring ring.toNat with noticed := true }).emit (.msix ring.toNat), ?_, rfl,
    State.idleDue_noticed hm.rings _⟩
  show Host.Outcome.next _ = _
  rw [if_pos h1, State.sendMsix_unmasked]
  exact h2

/-- MSIX_UNMASK sends what is pending. -/
theorem unmaskSendsThePending {s : State} (hm : s.Maps) (v : Fin 33) :
    ∃ t, exec (.msixUnmask v) s = .next t ∧ t.vector v.val = ⟨false, false⟩ ∧
      (∀ w, w ≠ v.val → t.vector w = s.vector w) ∧
      t.out = s.out ++ if (s.vector v.val).pending then [.msix v.val] else [] := by
  have hv := State.vector_setVector hm.vectors v.val ⟨false, false⟩
  refine ⟨s.unmask v.val, rfl, ?_⟩
  rw [State.unmask_eq]
  exact ⟨(hv v.val).trans (if_pos rfl), fun w hw => (hv w).trans (if_neg hw), rfl⟩

/-- Settles O26: a record goes to the tail or is counted, and each command of the event ring, the mailboxes and the vectors
does what its own lemma says. -/
theorem eventsAndMailboxes : Obligations.EventsAndMailboxes := by
  refine ⟨eventsReachTheRingOrAreCounted, fun s ho => ?_⟩
  have hm := ho.maps
  exact ⟨eventRingStarts hm, eventRingStops hm, eventHeadFrees hm, lostCountIsTaken hm, mailboxReadTakesTheOldest hm,
    idleNoticeIsSentOnce hm, unmaskSendsThePending hm⟩
end

section
namespace Sys2Proof.Machine

/-! ### The host's pages -/

theorem State.newHostPages_eq (n p0 : Nat) (s : State) :
    let t := (List.range n).foldl (fun s i => s.newHostPage (p0 + i)) s
    t = { s with hostPages := t.hostPages, freeCount := t.freeCount } := by
  dsimp only
  induction n with
  | zero => rfl
  | succ n ih => rw [List.range_succ, List.foldl_concat, ih]; rfl

/-- A page outside the range that is invalidated keeps its translation (R333). -/
theorem State.newHostPages_outside {s : State} (h : Sparse.rising s.hostPages = true) (n p0 : Nat) :
    let t := (List.range n).foldl (fun s i => s.newHostPage (p0 + i)) s
    Sparse.rising t.hostPages = true ∧
      ∀ p, p < p0 ∨ p0 + n ≤ p → Sparse.get 0 t.hostPages p = Sparse.get 0 s.hostPages p := by
  dsimp only
  induction n with
  | zero => exact ⟨h, fun _ _ => rfl⟩
  | succ n ih =>
    obtain ⟨ih1, ih2⟩ := ih
    rw [List.range_succ, List.foldl_concat]
    refine ⟨Sparse.rising_set _ _ _ ih1, fun p hp => ?_⟩
    rw [← ih2 p (by omega)]
    exact (Sparse.get_set _ _ _ ih1 p).trans (if_neg (by omega))

/-! ### Stacked memory by its physical addresses -/

theorem checkSlot_good {s : State} {pa : Nat} (who : Who) (h : Sparse.get Ecc.good s.stackedEcc (pa / 64) = .good) :
    checkSlot who pa s = (true, s) := by
  simp only [checkSlot, h]

theorem checkSlot_poisoned {s : State} {pa : Nat} (who : Who) (h : Sparse.get Ecc.good s.stackedEcc (pa / 64) = .poisoned) :
    checkSlot who pa s = (false, s.memEvent who clsJobFailed 2 (64 * (pa / 64)) true) := by
  simp only [checkSlot, h]

theorem readPhys_good {s : State} {pa : Nat} (who : Who) (n : Nat) (h : Sparse.get Ecc.good s.stackedEcc (pa / 64) = .good) :
    readPhys who pa n s = (some (Sparse.getList 0 s.stacked pa n), s) := by
  simp only [readPhys, checkSlot_good who h]

theorem readPhys_poisoned {s : State} {pa : Nat} (who : Who) (n : Nat)
    (h : Sparse.get Ecc.good s.stackedEcc (pa / 64) = .poisoned) :
    readPhys who pa n s = (none, s.memEvent who clsJobFailed 2 (64 * (pa / 64)) true) := by
  simp only [readPhys, checkSlot_poisoned who h]

theorem merge_whole (old b : Byte) : merge old (whole b) = b := by
  rw [merge, whole, show (0xFF : Byte) = BitVec.allOnes 8 from rfl, BitVec.not_allOnes, BitVec.and_zero, BitVec.zero_or,
    BitVec.and_allOnes]

theorem zipWith_merge_whole (old bs : List Byte) (h : old.length = bs.length) : old.zipWith merge (bs.map whole) = bs := by
  induction old generalizing bs with
  | nil => rw [List.eq_nil_of_length_eq_zero h.symm]; rfl
  | cons o old ih =>
    cases bs with
    | nil => simp at h
    | cons b bs => simp [merge_whole, ih bs (by simpa using h)]

/-- A write of less than a slot to a good one (R252). -/
theorem writePhys_good {s : State} {pa : Nat} (who : Who) {bs : List Byte} (hl : bs.length ≠ 64)
    (h : Sparse.get Ecc.good s.stackedEcc (pa / 64) = .good) :
    writePhys who pa (bs.map whole) s = (true, { s with
      stacked := Sparse.setList 0 s.stacked pa bs, stackedEcc := Sparse.set Ecc.good s.stackedEcc (pa / 64) .good }) := by
  simp only [writePhys, List.length_map, hl, decide_false, Bool.false_and, Bool.false_eq_true, if_false, checkSlot_good who h,
    if_true, zipWith_merge_whole _ bs (Sparse.length_getList ..)]

/-- A write of less than a slot to a poisoned one is discarded (R252). -/
theorem writePhys_poisoned {s : State} {pa : Nat} (who : Who) {bs : List Byte} (hl : bs.length ≠ 64)
    (h : Sparse.get Ecc.good s.stackedEcc (pa / 64) = .poisoned) :
    writePhys who pa (bs.map whole) s = (false, s.memEvent who clsJobFailed 2 (64 * (pa / 64)) true) := by
  simp only [writePhys, List.length_map, hl, decide_false, Bool.false_and, Bool.false_eq_true, if_false,
    checkSlot_poisoned who h]

/-! ### SMC_PHYS_DATA -/

theorem State.physData_good {s : State}
    (h : Sparse.get Ecc.good s.stackedEcc ((s.reg Reg.SMC_PHYS_ADDR).toNat / 64) = .good) :
    s.physData = (BitVec.ofNat 64 (ofBytes (Sparse.getList 0 s.stacked (s.reg Reg.SMC_PHYS_ADDR).toNat 8)), s) := by
  simp only [State.physData, readPhys_good Who.none 8 h]

/-- The state that an access to a poisoned slot for the host leaves: its MEMORY event (R252, R288). -/
def State.physPoisoned (s : State) : State :=
  s.memEvent Who.none clsJobFailed 2 (64 * ((s.reg Reg.SMC_PHYS_ADDR).toNat / 64)) true

theorem State.physData_poisoned {s : State}
    (h : Sparse.get Ecc.good s.stackedEcc ((s.reg Reg.SMC_PHYS_ADDR).toNat / 64) = .poisoned) :
    s.physData = (0xFFFFFFFFFFFFFFFF, s.physPoisoned) := by
  simp only [State.physData, readPhys_poisoned Who.none 8 h, State.physPoisoned]

/-- What stands in SMC_PHYS_ADDR after an access, and in the other registers (R341). -/
theorem State.nextPhys_reg {s : State} (h : Sparse.rising s.regs = true) (off : Nat) :
    s.nextPhys.reg off = if off = Reg.SMC_PHYS_ADDR then
      (if stackedBytes ≤ (s.reg Reg.SMC_PHYS_ADDR).toNat + 8 then 0 else BitVec.ofNat 64 ((s.reg Reg.SMC_PHYS_ADDR).toNat + 8))
      else s.reg off := State.reg_setReg h _ _ off

theorem State.latch_setLatch {s : State} (h : Sparse.rising s.latches = true) (off : Nat) (v : Option Word32) (o : Nat) :
    (s.setLatch off v).latch o = if o = off then v else s.latch o := Sparse.get_set _ _ _ h o

end Sys2Proof.Machine

open Sys2Proof Sys2Proof.Machine Sys2Proof.Certificates.Slice0

/-- A read that takes the register: its answer and its latch, where taking leaves the latches alone. -/
theorem readWide_answers {s u : State} (h : Sparse.rising u.latches = true) (hl : u.latches = s.latches) (off : Nat)
    {w : ReadWidth} (hw : w ≠ .high) (v : Word64) (take : State → State) (ht : (take u).latches = u.latches) :
    readAnswer s (u.readWide off w v take) off w v := by
  have hs : ∀ (a : State), a.latches = s.latches → ∀ o, a.latch o = s.latch o := fun a ha o => by rw [State.latch, ha, State.latch]
  cases w with
  | whole => exact ⟨rfl, hs (take u) (ht.trans hl) off, fun o _ => hs (take u) (ht.trans hl) o⟩
  | low =>
    have hset := State.latch_setLatch (s := take u) (by rw [ht]; exact h) off (some (v.extractLsb' 32 32))
    refine ⟨rfl, (hset off).trans (if_pos rfl), fun o ho => ((hset o).trans (if_neg ho)).trans (hs _ (ht.trans hl) o)⟩
  | high => exact absurd rfl hw

/-- Beside hostRead and the latches a read changes what taking the register changes. -/
theorem readWide_keeps {α : Type} (f : State → α) (h1 : ∀ (u : State) off v, f (u.setLatch off v) = f u)
    (h2 : ∀ (u : State) v, f (u.answer v) = f u) (u : State) (off : Nat) {w : ReadWidth} (hw : w ≠ .high) (v : Word64)
    (take : State → State) : f (u.readWide off w v take) = f (take u) := by
  cases w with
  | whole => exact h2 _ _
  | low => exact (h2 _ _).trans (h1 _ _ _)
  | high => exact absurd rfl hw

/-- A read of a latched high half makes no access. -/
theorem latchedHighHalfIsRead {s : State} (hm : s.Maps) (h : Word32) (hl : s.latch Reg.SMC_PHYS_DATA = some h) :
    ∃ t, exec (.smcPhysDataRead .high) s = .next t ∧ readAnswer s t Reg.SMC_PHYS_DATA .high 0 ∧
      t = { s with latches := t.latches, hostRead := t.hostRead } := by
  have hset := State.latch_setLatch hm.latches Reg.SMC_PHYS_DATA none
  refine ⟨(s.setLatch Reg.SMC_PHYS_DATA none).answer (BitVec.ofNat 64 h.toNat), ?_,
    ⟨?_, (hset _).trans (if_pos rfl), fun o ho => (hset o).trans (if_neg ho)⟩, rfl⟩
  · show Host.Outcome.next (s.physRead .high) = _
    simp only [State.physRead, hl, Option.isSome_some, and_self, if_true, State.readWide]
  · simp only [State.answer, hl, Option.elim_some]

/-- SMC_PHYS_DATA_READ of a slot that is good or poisoned. -/
theorem physDataIsRead {s : State} (hm : s.Maps) {w : ReadWidth} (hw : w ≠ .high) (bad : Bool)
    (he : Sparse.get Ecc.good s.stackedEcc ((s.reg Reg.SMC_PHYS_ADDR).toNat / 64) = (if bad then .poisoned else .good)) :
    ∃ t, exec (.smcPhysDataRead w) s = .next t ∧
      readAnswer s t Reg.SMC_PHYS_DATA w (if bad then 0xFFFFFFFFFFFFFFFF
        else BitVec.ofNat 64 (ofBytes (Sparse.getList 0 s.stacked (s.reg Reg.SMC_PHYS_ADDR).toNat 8))) ∧
      t.reg Reg.SMC_PHYS_ADDR = nextWord (s.reg Reg.SMC_PHYS_ADDR) ∧ t.stacked = s.stacked ∧ t.jobs = s.jobs ∧
      t.cores = s.cores ∧ (bad = false → t = { s with regs := t.regs, latches := t.latches, hostRead := t.hostRead } ∧
        ∀ off, off ≠ Reg.SMC_PHYS_ADDR → t.reg off = s.reg off) := by
  have hexec : exec (.smcPhysDataRead w) s = .next (State.readWide s.physData.2 Reg.SMC_PHYS_DATA w s.physData.1 (·.nextPhys)) := by
    show Host.Outcome.next (s.physRead w) = _
    rw [State.physRead, if_neg (by simp [hw])]
  have hreg : ∀ (u : State) v off, (u.readWide Reg.SMC_PHYS_DATA w v (·.nextPhys)).reg off = u.nextPhys.reg off :=
    fun u v off => readWide_keeps (State.reg · off) (fun _ _ _ => rfl) (fun _ _ => rfl) u _ hw v _
  cases bad with
  | false =>
    rw [State.physData_good (by simpa using he)] at hexec
    refine ⟨_, hexec, readWide_answers hm.latches rfl _ hw _ _ rfl, ?_, ?_, ?_, ?_, fun _ => ⟨?_, fun off ho => ?_⟩⟩
    · rw [hreg, State.nextPhys_reg hm.regs, if_pos rfl]; rfl
    · exact readWide_keeps State.stacked (fun _ _ _ => rfl) (fun _ _ => rfl) s _ hw _ _
    · exact readWide_keeps State.jobs (fun _ _ _ => rfl) (fun _ _ => rfl) s _ hw _ _
    · exact readWide_keeps State.cores (fun _ _ _ => rfl) (fun _ _ => rfl) s _ hw _ _
    · cases w with
      | whole => rfl
      | low => rfl
      | high => exact absurd rfl hw
    · rw [hreg, State.nextPhys_reg hm.regs, if_neg ho]
  | true =>
    rw [State.physData_poisoned (by simpa using he)] at hexec
    have hev : s.physPoisoned.eventless = s.eventless := State.eventless_memEvent ..
    have hpr : Sparse.rising s.physPoisoned.regs = true := State.rising_memEvent hm.regs ..
    have hpl : s.physPoisoned.latches = s.latches := State.keeps_of_eventless State.latches (fun _ => rfl) hev
    have hpa : s.physPoisoned.reg Reg.SMC_PHYS_ADDR = s.reg Reg.SMC_PHYS_ADDR :=
      State.memEvent_reg hm.regs _ _ _ _ _ (by decide)
    refine ⟨_, hexec, readWide_answers (by rw [hpl]; exact hm.latches) hpl _ hw _ _ rfl, ?_, ?_, ?_, ?_, nofun⟩
    · rw [hreg, State.nextPhys_reg hpr, if_pos rfl, hpa]; rfl
    · exact (readWide_keeps State.stacked (fun _ _ _ => rfl) (fun _ _ => rfl) _ _ hw _ _).trans
        (State.keeps_of_eventless State.stacked (fun _ => rfl) hev)
    · exact (readWide_keeps State.jobs (fun _ _ _ => rfl) (fun _ _ => rfl) _ _ hw _ _).trans
        (State.keeps_of_eventless State.jobs (fun _ => rfl) hev)
    · exact (readWide_keeps State.cores (fun _ _ _ => rfl) (fun _ _ => rfl) _ _ hw _ _).trans
        (State.keeps_of_eventless State.cores (fun _ => rfl) hev)

/-- SMC_PHYS_DATA_WRITE to a slot that is good or poisoned. -/
theorem physDataIsWritten {s : State} (hm : s.Maps) (v : Word64) (bad : Bool)
    (he : Sparse.get Ecc.good s.stackedEcc ((s.reg Reg.SMC_PHYS_ADDR).toNat / 64) = (if bad then .poisoned else .good)) :
    let a := s.reg Reg.SMC_PHYS_ADDR
    ∃ t, exec (.smcPhysDataWrite v) s = .next t ∧ t.reg Reg.SMC_PHYS_ADDR = nextWord a ∧ t.jobs = s.jobs ∧ t.cores = s.cores ∧
      (bad = true → t.stacked = s.stacked) ∧
      (bad = false → t = { s with regs := t.regs, stacked := t.stacked, stackedEcc := t.stackedEcc } ∧
        (∀ off, off ≠ Reg.SMC_PHYS_ADDR → t.reg off = s.reg off) ∧
        Sparse.getList 0 t.stacked a.toNat 8 = toBytes 8 v.toNat ∧
        ∀ p, (p < a.toNat ∨ a.toNat + 8 ≤ p) → Sparse.get 0 t.stacked p = Sparse.get 0 s.stacked p) := by
  intro a
  have hlen : (toBytes 8 v.toNat).length ≠ 64 := by simp
  refine ⟨s.physWrite v, rfl, ?_⟩
  rw [State.physWrite]
  cases bad with
  | false =>
    rw [writePhys_good Who.none hlen (by simpa using he)]
    set u : State := { s with
      stacked := Sparse.setList 0 s.stacked a.toNat (toBytes 8 v.toNat)
      stackedEcc := Sparse.set Ecc.good s.stackedEcc (a.toNat / 64) .good } with hu
    have hnext : ∀ off, u.nextPhys.reg off = if off = Reg.SMC_PHYS_ADDR then nextWord a else s.reg off :=
      State.nextPhys_reg (s := u) hm.regs
    have hst : u.nextPhys.stacked = Sparse.setList 0 s.stacked a.toNat (toBytes 8 v.toNat) := rfl
    refine ⟨by rw [hnext, if_pos rfl], rfl, rfl, nofun,
      fun _ => ⟨rfl, fun off ho => by rw [hnext, if_neg ho], ?_, ?_⟩⟩
    · have := Sparse.getList_setList 0 (toBytes 8 v.toNat) a.toNat hm.stacked
      rwa [toBytes_length, ← hst] at this
    · intro p hp
      rw [hst]
      exact Sparse.get_setList_outside 0 _ _ hm.stacked (by rwa [toBytes_length])
  | true =>
    rw [writePhys_poisoned Who.none hlen (by simpa using he)]
    have hev : s.physPoisoned.eventless = s.eventless := State.eventless_memEvent ..
    have hpr : Sparse.rising s.physPoisoned.regs = true := State.rising_memEvent hm.regs ..
    have hpa : s.physPoisoned.reg Reg.SMC_PHYS_ADDR = a := State.memEvent_reg hm.regs _ _ _ _ _ (by decide)
    refine ⟨?_, State.keeps_of_eventless State.jobs (fun _ => rfl) hev, State.keeps_of_eventless State.cores (fun _ => rfl) hev,
      fun _ => State.keeps_of_eventless State.stacked (fun _ => rfl) hev, nofun⟩
    show s.physPoisoned.nextPhys.reg _ = _
    rw [State.nextPhys_reg hpr, if_pos rfl, hpa]; rfl

/-- ATS_INVALIDATE is answered; pages outside its range keep their translation. -/
theorem atsInvalidateIsAnswered {s : State} (hm : s.Maps) (addr : Word64) (pages : Nat) :
    ∃ t, exec (.atsInvalidate addr pages) s = .next t ∧
      t = { s with hostPages := t.hostPages, freeCount := t.freeCount, out := s.out ++ [.atsDone addr.toNat pages] } ∧
      ∀ p, (p < addr.toNat / 4096 ∨ addr.toNat / 4096 + pages ≤ p) → Sparse.get 0 t.hostPages p = Sparse.get 0 s.hostPages p := by
  refine ⟨_, rfl, ?_, (State.newHostPages_outside hm.hostPages pages (addr.toNat / 4096)).2⟩
  rw [State.newHostPages_eq pages (addr.toNat / 4096) s]; rfl

/-- Settles O33: one lemma for each command, by whether the slot is good or poisoned. -/
theorem translationsAndStackedMemoryFromTheHost : Obligations.TranslationsAndStackedMemoryFromTheHost := by
  intro s ho
  have hm := ho.maps
  exact ⟨rfl, atsInvalidateIsAnswered hm, fun w hw bad he => physDataIsRead hm hw bad he, latchedHighHalfIsRead hm,
    fun v bad he => physDataIsWritten hm v bad he⟩

end

section
namespace Sys2Proof.Machine

/-! ### What passes while no command runs

Idles says what the pieces of a tick have in common: they count, note that a scrub read is due, and move the clocks; which
registers may have moved is its first argument. -/

/-- A cluster's clock without what the tick counts of it. -/
def ClusterClk.setting (q : ClusterClk) : ClusterClk := { q with cycles := 0, bubble := false, activity := noActivity }

/-- A core without its due scrub read. -/
def Core.undue (k : Core) : Core := { k with scrubDue := false }

/-- A state without what the pieces of a tick change: registers, cores, clocks and the pool's sums. -/
def State.timeless (s : State) : State :=
  { s with regs := [], cores := [], power := { s.power with clusters := [], pool := Pool.reset } }

/-- From s to t the device has idled: registers outside P stand, cores but for due scrub reads, clocks but for what is counted
of them. -/
structure Idles (P : Nat → Prop) (s t : State) : Prop where
  rest : t.timeless = s.timeless
  regs : Sparse.rising s.regs = true → Sparse.rising t.regs = true ∧ ∀ off, ¬ P off → t.reg off = s.reg off
  cores : Sparse.rising s.cores = true → Sparse.rising t.cores = true ∧ ∀ c, (t.core c).undue = (s.core c).undue
  clocks : t.power.clusters.map ClusterClk.setting = s.power.clusters.map ClusterClk.setting

namespace Idles

variable {P Q : Nat → Prop} {s t u : State}

protected theorem refl (P : Nat → Prop) (s : State) : Idles P s s :=
  ⟨rfl, fun h => ⟨h, fun _ _ => rfl⟩, fun h => ⟨h, fun _ => rfl⟩, rfl⟩

protected theorem trans (h1 : Idles P s t) (h2 : Idles P t u) : Idles P s u where
  rest := h2.rest.trans h1.rest
  regs h := by
    obtain ⟨a, b⟩ := h1.regs h
    obtain ⟨a', b'⟩ := h2.regs a
    exact ⟨a', fun off ho => (b' off ho).trans (b off ho)⟩
  cores h := by
    obtain ⟨a, b⟩ := h1.cores h
    obtain ⟨a', b'⟩ := h2.cores a
    exact ⟨a', fun c => (b' c).trans (b c)⟩
  clocks := h2.clocks.trans h1.clocks

theorem mono (h : Idles P s t) (hPQ : ∀ off, P off → Q off) : Idles Q s t :=
  ⟨h.rest, fun hr => ⟨(h.regs hr).1, fun off ho => (h.regs hr).2 off fun hp => ho (hPQ off hp)⟩, h.cores, h.clocks⟩

theorem ite {b : Prop} [Decidable b] (h : b → Idles P s t) : Idles P s (if b then t else s) := by
  split
  · exact h ‹_›
  · exact .refl P s

theorem ite' {b : Prop} [Decidable b] (h : ¬ b → Idles P s t) : Idles P s (if b then s else t) := by
  split
  · exact .refl P s
  · exact h ‹_›

theorem foldl {α : Type} (f : State → α → State) (h : ∀ u a, Idles P u (f u a)) (l : List α) (s : State) :
    Idles P s (l.foldl f s) :=
  List.foldlRecOn l f (motive := Idles P s) (Idles.refl P s) fun _ hu a _ => hu.trans (h _ a)

theorem count (s : State) {off : Nat} (k : Nat) (h : P off) : Idles P s (s.count off k) where
  rest := rfl
  regs hr := ⟨State.rising_count hr _ _, fun i hi => by rw [State.reg_count hr, if_neg (by rintro rfl; exact hi h)]⟩
  cores hc := ⟨hc, fun _ => rfl⟩
  clocks := rfl

theorem ticks (h : Idles P s t) : t.ticks = s.ticks := (congrArg State.ticks h.rest :)
theorem jobs (h : Idles P s t) : t.jobs = s.jobs := (congrArg State.jobs h.rest :)
theorem held (h : Idles P s t) : t.held = s.held := (congrArg State.held h.rest :)
theorem cfg (h : Idles P s t) : t.cfg = s.cfg := (congrArg State.cfg h.rest :)

theorem clock (h : Idles P s t) (k : Nat) :
    (t.power.clusters[k]?).map ClusterClk.setting = (s.power.clusters[k]?).map ClusterClk.setting := by
  rw [← List.getElem?_map, ← List.getElem?_map, h.clocks]

theorem cluster (h : Idles P s t) (k : Nat) : (t.cluster k).setting = (s.cluster k).setting := by
  have := h.clock k
  simp only [State.cluster, List.getD_eq_getElem?_getD]
  cases h1 : t.power.clusters[k]? <;> cases h2 : s.power.clusters[k]? <;> simp_all

theorem op (h : Idles P s t) (k : Nat) : (t.cluster k).op = (s.cluster k).op := (congrArg ClusterClk.op (h.cluster k) :)
theorem stopped (h : Idles P s t) (k : Nat) : (t.cluster k).stopped = (s.cluster k).stopped :=
  (congrArg ClusterClk.stopped (h.cluster k) :)

theorem clockStopped (h : Idles P s t) (c : Nat) : t.clockStopped c = s.clockStopped c := by
  have := h.clock (c / 64)
  unfold State.clockStopped
  cases h1 : t.power.clusters[c / 64]? <;> cases h2 : s.power.clusters[c / 64]? <;> simp_all
  exact (congrArg ClusterClk.stopped this :)

theorem fCycles (h : Idles P s t) (c : Nat) : t.fCycles c = s.fCycles c := by
  simp only [State.fCycles, h.clockStopped, h.ticks, h.op]

theorem clusterBeta (h : Idles P s t) (k : Nat) : t.clusterBeta k = s.clusterBeta k := by
  have hd : t.power.dies = s.power.dies := (congrArg (·.power.dies) h.rest :)
  have hb : t.power.beta = s.power.beta := (congrArg (·.power.beta) h.rest :)
  simp only [State.clusterBeta, State.droopRuns, State.die, h.ticks, h.op, hd, hb]
  rfl

theorem waitOn (h : Idles P s t) (hc : Sparse.rising s.cores = true) (c : Nat) : (t.core c).waitOn = (s.core c).waitOn :=
  (congrArg Core.waitOn ((h.cores hc).2 c) :)

theorem ballast (h : Idles P s t) (hc : Sparse.rising s.cores = true) (c : Nat) : (t.core c).ballast = (s.core c).ballast :=
  (congrArg Core.ballast ((h.cores hc).2 c) :)

theorem jobOn (h : Idles P s t) (hc : Sparse.rising s.cores = true) (c : Nat) : t.jobOn c = s.jobOn c := by
  have : (t.core c).job = (s.core c).job := (congrArg Core.job ((h.cores hc).2 c) :)
  simp only [State.jobOn, State.findJob, this, h.jobs]

end Idles

/-- What no step of a fold changes, the fold does not change. -/
theorem foldl_keeps {α β γ : Type} (f : β → γ) (step : β → α → β) (h : ∀ u a, f (step u a) = f u) (l : List α) (s : β) :
    f (l.foldl step s) = f s :=
  List.foldlRecOn l step (motive := fun u => f u = f s) rfl fun u hu a _ => (h u a).trans hu

/-- The keys of a rising map are different. -/
theorem Sparse.nodup_keys {α : Type} {m : Sparse α} (h : Sparse.rising m = true) : (m.map (·.1)).Nodup := by
  have habove : ∀ {lo : Nat} {m : Sparse α}, Sparse.above lo m = true → Sparse.rising m = true → ∀ k ∈ m.map (·.1), lo < k := by
    intro lo m ha hm
    induction m generalizing lo with
    | nil => intro k hk; cases hk
    | cons e m ih =>
      have h1 : lo < e.1 := by simpa [Sparse.above] using ha
      obtain ⟨h2, h3⟩ := Sparse.rising_tail hm
      intro k hk
      rcases List.mem_cons.mp hk with rfl | hk
      · exact h1
      · exact h1.trans (ih h2 h3 k hk)
  induction m with
  | nil => exact List.nodup_nil
  | cons e m ih =>
    obtain ⟨h2, h3⟩ := Sparse.rising_tail h
    exact List.nodup_cons.mpr ⟨fun hk => lt_irrefl _ (habove h2 h3 _ hk), ih h3⟩

/-- A key that a map does not list reads as the default. -/
theorem Sparse.get_unlisted {α : Type} (d : α) {m : Sparse α} {k : Nat} (h : k ∉ m.map (·.1)) : Sparse.get d m k = d := by
  induction m with
  | nil => rfl
  | cons e m ih =>
    simp only [List.map_cons, List.mem_cons, not_or] at h
    simp only [Sparse.get, if_neg h.1, ih h.2, ite_self]

/-! ### Lists: nothing left to fetch -/

/-- Every command of core c's list that is still to come stands in its buffer. -/
theorem State.fillBuffer_whole {s : State} {c : Nat}
    (h : ∀ j, s.jobOn c = some j → j.desc.cmdCount ≤ (s.core c).nextSeq + (s.core c).buffer.length) : s.fillBuffer c = s := by
  unfold State.fillBuffer
  split
  · rfl
  next j hj =>
    dsimp only
    split
    · rfl
    · cases j.listOf c with
      | none => rfl
      | some o =>
        rw [Option.elim_some]
        cases hn : bufferSize - (s.core c).buffer.length with
        | zero => rfl
        | succ n => rw [fetchMore, if_pos (h j hj)]

theorem State.headTile_none {s : State} {c : Nat} (h : s.fetchFor c = none) : s.headTile c = (none, s) := by
  unfold State.headTile; rw [h]

theorem State.fetchTiles_none {s : State} (h : ∀ c, s.fillBuffer c = s ∧ s.fetchFor c = none) (l : List Nat) :
    State.fetchTiles l s = ([], s) := by
  induction l with
  | nil => rfl
  | cons c l ih => simp only [State.fetchTiles, (h c).1, State.headTile_none (h c).2, ih, Option.toList_none, List.nil_append]

/-! ### Waiting -/

/-- The registers that count a core's waiting (R227, R303, R317). -/
def waitRegs (off : Nat) : Prop := ∃ c, off = Reg.SEQ_WAIT c ∨ off = Reg.SEQ_FENCE c ∨ off = Reg.MEM_TAG_WAIT c

/-- F-cycles of one tick in which core c waits on a counter (R317). -/
def State.waitsOf (s : State) (c : Nat) : Word64 :=
  if (s.jobOn c).isSome ∧ (s.core c).waitOn.isSome then BitVec.ofNat 64 (s.fCycles c) else 0

theorem State.idles_countRan (P : Nat → Prop) (s : State) (n : Nat) (b : Bool) : Idles P s (s.countRan n b) :=
  Idles.ite' fun _ => ⟨rfl, fun h => ⟨h, fun _ _ => rfl⟩, fun h => ⟨h, fun _ => rfl⟩, rfl⟩

/-- The state once the F-cycles of a WAIT are counted. -/
def State.waited (s : State) (c : Nat) : State :=
  if (s.jobOn c).isSome ∧ (s.core c).waitOn.isSome then s.count (Reg.SEQ_WAIT c) (s.fCycles c) else s

/-- Beside its WAIT, waiting counts the fence, the tag and the pool's cycles. -/
theorem State.idles_waited (s : State) (c : Nat) :
    Idles (fun off => off = Reg.SEQ_FENCE c ∨ off = Reg.MEM_TAG_WAIT c) (s.waited c) (s.countWaits c) := by
  unfold State.waited State.countWaits
  cases hj : s.jobOn c with
  | none => simpa using Idles.refl _ s
  | some j =>
    simp only [Option.isSome_some, true_and]
    refine Idles.trans (Idles.trans ?_ (Idles.count _ _ (.inr rfl))) (State.idles_countRan _ _ _ _)
    exact Idles.ite fun _ => Idles.count _ _ (.inl rfl)

theorem State.idles_countWaits (s : State) (c : Nat) : Idles waitRegs s (s.countWaits c) := by
  refine Idles.trans (t := s.waited c) (Idles.ite fun _ => Idles.count _ _ ⟨c, .inl rfl⟩) ((s.idles_waited c).mono ?_)
  rintro off (h | h)
  · exact ⟨c, .inr (.inl h)⟩
  · exact ⟨c, .inr (.inr h)⟩

/-- What the waiting of core c adds to the counter of core d's WAITs. -/
theorem State.countWaits_reg {s : State} (h : Sparse.rising s.regs = true) (c d : Nat) :
    (s.countWaits c).reg (Reg.SEQ_WAIT d) = s.reg (Reg.SEQ_WAIT d) + if d = c then s.waitsOf c else 0 := by
  have hr : Sparse.rising (s.waited c).regs = true := by
    unfold State.waited; split
    · exact State.rising_count h _ _
    · exact h
  rw [((s.idles_waited c).regs hr).2 _ (by simp only [Reg.SEQ_WAIT, Reg.SEQ_FENCE, Reg.MEM_TAG_WAIT, coreReg, coreBase]; omega)]
  have hinj : Reg.SEQ_WAIT d = Reg.SEQ_WAIT c ↔ d = c := by simp only [Reg.SEQ_WAIT, coreReg, coreBase]; omega
  unfold State.waited State.waitsOf
  split
  · rw [State.reg_count h]
    by_cases e : d = c
    · subst e; simp
    · simp [e, hinj]
  · simp

theorem Idles.waitsOf {P : Nat → Prop} {s t : State} (h : Idles P s t) (hc : Sparse.rising s.cores = true) (c : Nat) :
    t.waitsOf c = s.waitsOf c := by
  simp only [State.waitsOf, h.jobOn hc, h.waitOn hc, h.fCycles]

/-- The waiting of different cores, counted in turn. -/
theorem State.waits_reg {s : State} (hr : Sparse.rising s.regs = true) (hc : Sparse.rising s.cores = true) {l : List Nat}
    (hl : l.Nodup) (d : Nat) : (l.foldl State.countWaits s).reg (Reg.SEQ_WAIT d) =
      s.reg (Reg.SEQ_WAIT d) + if d ∈ l then s.waitsOf d else 0 := by
  induction l generalizing s with
  | nil => simp
  | cons c l ih =>
    obtain ⟨h1, h2⟩ := List.nodup_cons.mp hl
    have hi := s.idles_countWaits c
    rw [List.foldl_cons, ih (hi.regs hr).1 (hi.cores hc).1 h2, State.countWaits_reg hr, hi.waitsOf hc]
    by_cases e : d = c
    · subst e; simp [h1]
    · simp [e]

/-! ### Filler work -/

theorem State.idles_active (P : Nat → Prop) (s : State) (c kind n : Nat) : Idles P s (s.active c kind n) where
  rest := rfl
  regs h := ⟨h, fun _ _ => rfl⟩
  cores h := ⟨h, fun _ => rfl⟩
  clocks := by
    apply List.ext_getElem?
    intro k
    simp only [State.active, List.getElem?_map, List.getElem?_modify]
    cases s.power.clusters[k]? with
    | none => rfl
    | some q => simp only [Option.map_eq_map, Option.map_some]; split <;> rfl

theorem State.cluster_active (s : State) (c kind n k : Nat) :
    (s.active c kind n).cluster k = { s.cluster k with activity := ((s.active c kind n).cluster k).activity } ∧
      (c / 64 ≠ k → (s.active c kind n).cluster k = s.cluster k) := by
  simp only [State.cluster, State.active, List.getD_eq_getElem?_getD, List.getElem?_modify]
  cases s.power.clusters[k]? with
  | none => exact ⟨rfl, fun _ => rfl⟩
  | some q =>
    simp only [Option.map_eq_map, Option.map_some, Option.getD_some]
    refine ⟨?_, fun h => by rw [if_neg h]⟩
    split <;> rfl

/-- From s to t activity alone was counted, and none of cluster k unless b holds. -/
structure Filled (k : Nat) (b : Prop) (s t : State) : Prop where
  idles : Idles (fun _ => False) s t
  counted : t.cluster k = { s.cluster k with activity := (t.cluster k).activity }
  still : ¬ b → t.cluster k = s.cluster k

namespace Filled

variable {k : Nat} {b b' : Prop} {s t u : State}

protected theorem refl (k : Nat) (b : Prop) (s : State) : Filled k b s s := ⟨.refl _ s, rfl, fun _ => rfl⟩

protected theorem trans (h1 : Filled k b s t) (h2 : Filled k b t u) : Filled k b s u :=
  ⟨h1.idles.trans h2.idles, h2.counted.trans (by rw [h1.counted]), fun hb => (h2.still hb).trans (h1.still hb)⟩

theorem active (s : State) {c : Nat} (kind n : Nat) (h : c / 64 = k → b) : Filled k b s (s.active c kind n) :=
  ⟨s.idles_active _ c kind n, (s.cluster_active c kind n k).1, fun hb => (s.cluster_active c kind n k).2 fun e => hb (h e)⟩

theorem ite {p : Prop} [Decidable p] (h : Filled k b s t) : Filled k b s (if p then t else s) := by
  split
  · exact h
  · exact .refl ..

theorem filler (s : State) (c : Nat) (f : BallastArgs) (n : Nat) (h : c / 64 = k → b) : Filled k b s (s.filler c f n) :=
  Filled.trans (Filled.ite (active s _ _ h)) (Filled.ite (active _ _ _ h))

end Filled

/-- The filler of one core: activity of its own cluster alone, and none where the clock stands or the core has no ballast. -/
theorem State.filled_fillerTick (s : State) (c k : Nat) :
    Filled k (c / 64 = k ∧ (s.core c).ballast ≠ none ∧ (s.cluster k).stopped = false) s (s.fillerTick c) := by
  unfold State.fillerTick
  dsimp only
  split
  next f hf =>
    split
    · exact .refl ..
    next hs =>
      refine Filled.filler s c f _ fun e => ⟨e, by simp [hf], ?_⟩
      rw [e] at hs; simpa using hs
  · exact .refl ..

/-- The filler of several cores. -/
theorem State.filled_fillers {s : State} (hc : Sparse.rising s.cores = true) (l : List Nat) (k : Nat) :
    Filled k (∃ c, c / 64 = k ∧ (s.core c).ballast ≠ none ∧ (s.cluster k).stopped = false) s (l.foldl State.fillerTick s) := by
  refine List.foldlRecOn l _ (motive := Filled k _ s) (.refl ..) fun u hu c _ => hu.trans ?_
  obtain ⟨h1, h2, h3⟩ := u.filled_fillerTick c k
  refine ⟨h1, h2, fun hb => h3 fun h => hb ⟨c, h.1, ?_⟩⟩
  rw [← hu.idles.ballast hc, ← hu.idles.stopped]; exact h.2

end Sys2Proof.Machine
end

section
namespace Sys2Proof.Machine

/-! ### Cluster clocks -/

/-- The registers that the clock of a cluster moves in one tick (R223, R229, R412, R420). -/
def clockRegs (off : Nat) : Prop :=
  off = Reg.HLS_BALLAST_CYCLES ∨ ∃ c, off = Reg.MEM_CONFLICTS c ∨ off = Reg.MEM_WCOLL c ∨ off = Reg.FCT_BUBBLES c

/-- Those of them that count no bubbles. -/
def quietRegs (off : Nat) : Prop :=
  off = Reg.HLS_BALLAST_CYCLES ∨ ∃ c, off = Reg.MEM_CONFLICTS c ∨ off = Reg.MEM_WCOLL c

theorem State.idles_scrubTick (P : Nat → Prop) (i n : Nat) (s : State) (c : Nat) : Idles P s (State.scrubTick i n s c) := by
  refine Idles.ite fun _ => ⟨rfl, fun h => ⟨h, fun _ _ => rfl⟩, fun h => ⟨State.rising_modCore h _ _, fun d => ?_⟩, rfl⟩
  rw [State.core_modCore h]
  split
  next e => subst e; rfl
  · rfl

theorem State.idles_loseBanks (s : State) (c : Nat) : Idles quietRegs s (s.loseBanks c) :=
  Idles.trans (Idles.count _ _ (.inr ⟨c, .inl rfl⟩)) (Idles.count _ _ (.inr ⟨c, .inr rfl⟩))

/-- The bubbles that cluster k takes in the tick that begins now (R412). -/
def State.bubblesOf (s : State) (k : Nat) : Nat := bubblesIn (s.clusterBeta k) (s.cluster k).cycles (s.fCycles (64 * k))

/-- The clock of cluster k one tick later. -/
def State.clockNext (s : State) (k : Nat) : ClusterClk :=
  { s.cluster k with
    cycles := (s.cluster k).cycles + s.fCycles (64 * k)
    bubble := decide (0 < s.fCycles (64 * k) ∧ s.bubblesOf k = s.fCycles (64 * k)) }

/-- The bubbles of a cluster counted for each of its cores. -/
def State.bubbled (s : State) (k b : Nat) : State :=
  if b = 0 then s else (List.range 64).foldl (fun s i => s.count (Reg.FCT_BUBBLES (64 * k + i)) b) s

/-- The counters of a running cluster beside those of bubbles, and its due scrub reads. -/
def State.clockCounts (cs : List Nat) (k i n b : Nat) (ballast : Bool) (s : State) : State :=
  let s := if n = 0 then s else (List.range 64).foldl (fun s i => s.loseBanks (64 * k + i)) s
  let s := if ballast ∧ b < n then s.count Reg.HLS_BALLAST_CYCLES (n - b) else s
  (cs.filter fun c => decide (c / 64 = k)).foldl (State.scrubTick i n) s

theorem State.clusterTick_stopped (cs : List Nat) {s : State} {k : Nat} (h : (s.cluster k).stopped = true) :
    State.clusterTick cs s k = s := by
  unfold State.clusterTick; exact if_pos h

theorem State.clusterTick_runs (cs : List Nat) {s : State} {k : Nat} (h : (s.cluster k).stopped = false) :
    State.clusterTick cs s k = State.clockCounts cs k (s.cluster k).cycles (s.fCycles (64 * k)) (s.bubblesOf k) (s.cluster k).ballast
      (State.bubbled (s.modCluster k fun q => { q with
        cycles := q.cycles + s.fCycles (64 * k)
        bubble := decide (0 < s.fCycles (64 * k) ∧ s.bubblesOf k = s.fCycles (64 * k)) }) k (s.bubblesOf k)) := by
  unfold State.clusterTick; exact if_neg (by simp [h])

theorem State.idles_clockCounts (cs : List Nat) (k i n b : Nat) (a : Bool) (s : State) :
    Idles quietRegs s (State.clockCounts cs k i n b a s) := by
  unfold State.clockCounts
  extract_lets s1 s2
  have h1 : Idles quietRegs s s1 := Idles.ite' fun _ => Idles.foldl _ (fun u j => u.idles_loseBanks (64 * k + j)) _ _
  have h2 : Idles quietRegs s1 s2 := Idles.ite fun _ => Idles.count _ _ (.inl rfl)
  exact (h1.trans h2).trans (Idles.foldl _ (fun u c => State.idles_scrubTick _ i n u c) _ _)

theorem State.clockCounts_power (cs : List Nat) (k i n b : Nat) (a : Bool) (s : State) :
    (State.clockCounts cs k i n b a s).power = s.power := by
  have h3 : ∀ u c, (State.scrubTick i n u c).power = u.power := fun u c => by
    unfold State.scrubTick; dsimp only; split <;> simp
  have h4 : ∀ u j, (State.loseBanks u (64 * k + j)).power = u.power := fun u j => by simp [State.loseBanks, State.loseCycles]
  unfold State.clockCounts
  extract_lets s1 s2
  rw [foldl_keeps State.power _ h3]
  have h1 : s1.power = s.power := by
    simp only [s1]; split
    · rfl
    · exact foldl_keeps State.power _ h4 _ _
  simp only [s2]; split
  · rw [State.count_power, h1]
  · exact h1

theorem State.bubbled_power (s : State) (k b : Nat) : (s.bubbled k b).power = s.power := by
  unfold State.bubbled; split
  · rfl
  · exact foldl_keeps State.power _ (fun _ _ => State.count_power ..) _ _

theorem State.idles_bubbled (s : State) (k b : Nat) : Idles clockRegs s (s.bubbled k b) :=
  Idles.ite' fun _ => Idles.foldl _ (fun _ i => Idles.count _ _ (.inr ⟨64 * k + i, .inr (.inr rfl)⟩)) _ _

/-- Each of the cluster's cores counts the bubbles. -/
theorem State.bubbled_reg {s : State} (h : Sparse.rising s.regs = true) (k b d : Nat) :
    (s.bubbled k b).reg (Reg.FCT_BUBBLES d) = s.reg (Reg.FCT_BUBBLES d) + if d / 64 = k then BitVec.ofNat 64 b else 0 := by
  have hinj : ∀ c, Reg.FCT_BUBBLES d = Reg.FCT_BUBBLES c ↔ d = c := fun c => by
    simp only [Reg.FCT_BUBBLES, coreReg, coreBase]; omega
  have hfold : ∀ m, let t := (List.range m).foldl (fun s i => s.count (Reg.FCT_BUBBLES (64 * k + i)) b) s
      Sparse.rising t.regs = true ∧ t.reg (Reg.FCT_BUBBLES d) =
        s.reg (Reg.FCT_BUBBLES d) + if 64 * k ≤ d ∧ d < 64 * k + m then BitVec.ofNat 64 b else 0 := by
    intro m
    induction m with
    | zero => simpa [show ¬(64 * k ≤ d ∧ d < 64 * k) by omega] using h
    | succ m ih =>
      obtain ⟨ih1, ih2⟩ := ih
      dsimp only at ih1 ih2 ⊢
      rw [List.range_succ, List.foldl_concat]
      refine ⟨State.rising_count ih1 _ _, ?_⟩
      rw [State.reg_count ih1]
      by_cases e : d = 64 * k + m
      · subst e
        rw [if_pos rfl, ih2, if_neg (by omega), if_pos (by omega)]; simp
      · rw [if_neg (by rw [hinj]; exact e), ih2]
        congr 1
        simp only [show (64 * k ≤ d ∧ d < 64 * k + (m + 1)) ↔ (64 * k ≤ d ∧ d < 64 * k + m) by omega]
  unfold State.bubbled
  split
  next hb => subst hb; simp
  · rw [(hfold 64).2]
    congr 1
    simp only [show (64 * k ≤ d ∧ d < 64 * k + 64) ↔ d / 64 = k by omega]

theorem State.idles_modCluster (P : Nat → Prop) (s : State) (k : Nat) {f : ClusterClk → ClusterClk}
    (hf : ∀ q, (f q).setting = q.setting) : Idles P s (s.modCluster k f) where
  rest := rfl
  regs h := ⟨h, fun _ _ => rfl⟩
  cores h := ⟨h, fun _ => rfl⟩
  clocks := by
    apply List.ext_getElem?
    intro i
    simp only [State.modCluster, State.modPower, List.getElem?_map, List.getElem?_modify]
    cases s.power.clusters[i]? with
    | none => rfl
    | some q => simp only [Option.map_eq_map, Option.map_some]; split <;> simp [hf]

theorem State.cluster_modCluster (s : State) {k : Nat} (h : k < s.power.clusters.length) (f : ClusterClk → ClusterClk) (i : Nat) :
    (s.modCluster k f).cluster i = if i = k then f (s.cluster k) else s.cluster i := by
  simp only [State.cluster, State.modCluster, State.modPower, List.getD_eq_getElem?_getD, List.getElem?_modify]
  by_cases e : i = k
  · subst e; simp [List.getElem?_eq_getElem h]
  · simp only [if_neg (Ne.symm e), if_neg e, Option.map_eq_map, Option.map_id']

/-- One tick of cluster k: its clock, and the counters of bubbles. -/
theorem State.clusterTick_spec (cs : List Nat) {s : State} {k : Nat} (hk : k < s.power.clusters.length)
    (hr : Sparse.rising s.regs = true) : Idles clockRegs s (State.clusterTick cs s k) ∧
      (∀ i, (State.clusterTick cs s k).cluster i =
        if i = k ∧ (s.cluster k).stopped = false then s.clockNext k else s.cluster i) ∧
      ∀ d, (State.clusterTick cs s k).reg (Reg.FCT_BUBBLES d) = s.reg (Reg.FCT_BUBBLES d) +
        if d / 64 = k ∧ (s.cluster k).stopped = false then BitVec.ofNat 64 (s.bubblesOf k) else 0 := by
  cases hs : (s.cluster k).stopped with
  | true =>
    rw [State.clusterTick_stopped cs hs]
    exact ⟨.refl .., fun i => by simp, fun d => by simp⟩
  | false =>
    rw [State.clusterTick_runs cs hs]
    set f : ClusterClk → ClusterClk := fun q => { q with
      cycles := q.cycles + s.fCycles (64 * k)
      bubble := decide (0 < s.fCycles (64 * k) ∧ s.bubblesOf k = s.fCycles (64 * k)) } with hf
    set s1 := s.modCluster k f with hs1
    set s2 := s1.bubbled k (s.bubblesOf k) with hs2
    have h1 : Idles clockRegs s s1 := s.idles_modCluster _ k fun _ => rfl
    have h2 : Idles clockRegs s s2 := h1.trans (s1.idles_bubbled k _)
    have h3 := State.idles_clockCounts cs k (s.cluster k).cycles (s.fCycles (64 * k)) (s.bubblesOf k) (s.cluster k).ballast s2
    refine ⟨h2.trans (h3.mono ?_), fun i => ?_, fun d => ?_⟩
    · rintro off (h | ⟨c, h | h⟩)
      · exact .inl h
      · exact .inr ⟨c, .inl h⟩
      · exact .inr ⟨c, .inr (.inl h)⟩
    · have hc := s.cluster_modCluster hk f i
      simp only [and_true]
      rw [State.cluster, State.clockCounts_power, hs2, State.bubbled_power]
      exact hc
    · have hq : ¬ quietRegs (Reg.FCT_BUBBLES d) := by
        rintro (h | ⟨c, h | h⟩) <;>
          simp only [Reg.FCT_BUBBLES, Reg.HLS_BALLAST_CYCLES, Reg.MEM_CONFLICTS, Reg.MEM_WCOLL, coreReg, coreBase] at h <;> omega
      rw [(h3.regs (h2.regs hr).1).2 _ hq, hs2, State.bubbled_reg (h1.regs hr).1]
      simp only [and_true]
      rfl

/-- The ticks of the first n clusters. -/
structure ClocksRun (n : Nat) (s t : State) : Prop where
  idles : Idles clockRegs s t
  clock : ∀ k, t.cluster k = if k < n ∧ (s.cluster k).stopped = false then s.clockNext k else s.cluster k
  bubbles : ∀ d, t.reg (Reg.FCT_BUBBLES d) = s.reg (Reg.FCT_BUBBLES d) +
    if d / 64 < n ∧ (s.cluster (d / 64)).stopped = false then BitVec.ofNat 64 (s.bubblesOf (d / 64)) else 0

theorem State.clocksRun (cs : List Nat) {s : State} (hr : Sparse.rising s.regs = true) {n : Nat}
    (hn : n ≤ s.power.clusters.length) : ClocksRun n s ((List.range n).foldl (State.clusterTick cs) s) := by
  induction n with
  | zero => exact ⟨.refl .., fun k => by simp, fun d => by simp⟩
  | succ n ih =>
    obtain ⟨hi, hcl, hb⟩ := ih (by omega)
    rw [List.range_succ, List.foldl_concat]
    set u := (List.range n).foldl (State.clusterTick cs) s
    have hlen : u.power.clusters.length = s.power.clusters.length := by
      simpa using congrArg List.length hi.clocks
    obtain ⟨h1, h2, h3⟩ := State.clusterTick_spec cs (s := u) (k := n) (by omega) (hi.regs hr).1
    have hn' : u.cluster n = s.cluster n := by rw [hcl]; simp
    have hbub : u.bubblesOf n = s.bubblesOf n := by simp only [State.bubblesOf, hi.clusterBeta, hn', hi.fCycles]
    have hnext : u.clockNext n = s.clockNext n := by simp only [State.clockNext, hn', hi.fCycles, hbub]
    refine ⟨hi.trans h1, fun k => ?_, fun d => ?_⟩
    · rw [h2, hn', hnext, hcl]
      by_cases e : k = n
      · subst e; simp
      · simp [e, show (k < n + 1 ↔ k < n) by omega]
    · rw [h3, hn', hbub, hb]
      by_cases e : d / 64 = n
      · subst e; simp
      · simp [e, show (d / 64 < n + 1 ↔ d / 64 < n) by omega]

/-! ### The whole tick -/

/-- The state of a tick once the waits, the filler work and the cluster clocks are counted. -/
def State.idled (s : State) : State :=
  (List.range 32).foldl (State.clusterTick (s.cores.map (·.1)))
    ((s.cores.map (·.1)).foldl State.fillerTick ((s.cores.map (·.1)).foldl State.countWaits s))

/-- The registers that a tick moves while no command comes to issue. -/
def tickRegs (off : Nat) : Prop := waitRegs off ∨ clockRegs off ∨ off = Reg.SHM_CONFLICTS

/-- A tick of cores that have nothing to fetch or to issue. -/
theorem calmTick_idle {s : State} (h : ∀ c, s.fillBuffer c = s ∧ s.fetchFor c = none) :
    calmTick s = { (s.idled.loseCycles Reg.SHM_CONFLICTS).firstDigest with
      ticks := (s.idled.loseCycles Reg.SHM_CONFLICTS).firstDigest.ticks + 1
      time := (s.idled.loseCycles Reg.SHM_CONFLICTS).firstDigest.time.advance
      pending := (s.idled.loseCycles Reg.SHM_CONFLICTS).firstDigest.held, held := [] } := by
  unfold calmTick
  simp only [State.fetchTiles_none h, List.append_nil]
  rfl

/-- What a tick leaves of a state and its clocks, and what it counts. -/
structure Idled (s t : State) : Prop where
  idles : Idles tickRegs s t
  stops : ∀ k, (s.cluster k).stopped = true → t.cluster k = s.cluster k
  runs : ∀ k, k < 32 → (s.cluster k).stopped = false →
    t.cluster k = { s.clockNext k with activity := (t.cluster k).activity }
  still : ∀ k, k < 32 → (∀ i, i < 64 → (s.core (64 * k + i)).ballast = none) → (t.cluster k).activity = (s.cluster k).activity
  bubbles : ∀ d, d < 2048 → (s.cluster (d / 64)).stopped = false →
    t.reg (Reg.FCT_BUBBLES d) = s.reg (Reg.FCT_BUBBLES d) + BitVec.ofNat 64 (s.bubblesOf (d / 64))
  waited : ∀ c, t.reg (Reg.SEQ_WAIT c) = s.reg (Reg.SEQ_WAIT c) + s.waitsOf c

theorem State.waitsOf_unlisted {s : State} {c : Nat} (h : c ∉ s.cores.map (·.1)) : s.waitsOf c = 0 := by
  have hc : s.core c = Core.reset := Sparse.get_unlisted _ h
  have hf : s.findJob 0 = none := List.find?_eq_none.2 (by simp)
  have hj : s.jobOn c = none := by rw [State.jobOn, hc]; simp [Core.reset, hf]
  simp [State.waitsOf, hj]

theorem State.idled_spec {s : State} (hm : s.Maps) : Idled s s.idled := by
  have hr := hm.regs
  have hc := hm.cores
  set cs := s.cores.map (·.1) with hcs
  set s1 := cs.foldl State.countWaits s with hs1
  set s2 := cs.foldl State.fillerTick s1 with hs2
  have h1 : Idles waitRegs s s1 := Idles.foldl _ State.idles_countWaits cs s
  have hfill := State.filled_fillers (h1.cores hc).1 cs
  have h12 : Idles waitRegs s s2 := h1.trans ((hfill 0).idles.mono fun _ h => h.elim)
  have hlen : s2.power.clusters.length = 32 := by
    rw [← hm.clusters]; simpa using congrArg List.length h12.clocks
  have hrun : ClocksRun 32 s2 s.idled := State.clocksRun cs (h12.regs hr).1 (by omega)
  have hpow : s1.power.clusters = s.power.clusters := by
    refine foldl_keeps (fun u => u.power.clusters) _ (fun u c => ?_) cs s
    unfold State.countWaits
    split
    · rfl
    · unfold State.countRan
      dsimp only
      repeat' split
      all_goals simp [State.setPool]
  have hcl1 : ∀ k, s1.cluster k = s.cluster k := fun k => by rw [State.cluster, hpow]; rfl
  have hcyc : ∀ k, s2.cluster k = { s.cluster k with activity := (s2.cluster k).activity } := fun k =>
    (hfill k).counted.trans (by rw [hcl1])
  have hnext : ∀ k, s2.clockNext k = { s.clockNext k with activity := (s2.cluster k).activity } ∧ s2.bubblesOf k = s.bubblesOf k := by
    intro k
    have hb : s2.bubblesOf k = s.bubblesOf k := by
      simp only [State.bubblesOf, h12.clusterBeta, h12.fCycles]; rw [hcyc k]
    refine ⟨?_, hb⟩
    simp only [State.clockNext, hb, h12.fCycles]
    rw [hcyc k]
  have hst : ∀ k, (s2.cluster k).stopped = (s.cluster k).stopped := h12.stopped
  refine ⟨(h12.mono fun _ => .inl).trans (hrun.idles.mono fun _ h => .inr (.inl h)), fun k hk => ?_, fun k hk hs => ?_,
    fun k hk hb => ?_, fun d hd hs => ?_, fun c => ?_⟩
  · rw [hrun.clock, if_neg (by simp [hst, hk]), (hfill k).still, hcl1]
    rintro ⟨c, -, -, h⟩
    rw [hcl1, hk] at h; cases h
  · have : s.idled.cluster k = s2.clockNext k := by rw [hrun.clock, if_pos ⟨hk, by rw [hst]; exact hs⟩]
    rw [this, (hnext k).1]
  · have hno : s2.cluster k = s.cluster k := by
      rw [(hfill k).still, hcl1]
      rintro ⟨c, rfl, h, -⟩
      rw [h1.ballast hc] at h
      exact h (by have := hb (c % 64) (by omega); rwa [Nat.div_add_mod] at this)
    rw [hrun.clock]
    split
    · show (s2.cluster k).activity = _; rw [hno]
    · rw [hno]
  · rw [hrun.bubbles, if_pos ⟨by omega, by rw [hst]; exact hs⟩, (hnext _).2, (h12.regs hr).2]
    rintro ⟨c, h | h | h⟩ <;>
      simp only [Reg.FCT_BUBBLES, Reg.SEQ_WAIT, Reg.SEQ_FENCE, Reg.MEM_TAG_WAIT, coreReg, coreBase] at h <;> omega
  · have hq : ¬ clockRegs (Reg.SEQ_WAIT c) := by
      rintro (h | ⟨d, h | h | h⟩) <;> simp only [Reg.SEQ_WAIT, Reg.HLS_BALLAST_CYCLES, Reg.MEM_CONFLICTS, Reg.MEM_WCOLL,
        Reg.FCT_BUBBLES, coreReg, coreBase] at h <;> omega
    rw [(hrun.idles.regs (h12.regs hr).1).2 _ hq, ((hfill 0).idles.regs (h1.regs hr).1).2 _ id,
      State.waits_reg hr hc (Sparse.nodup_keys hc)]
    by_cases hl : c ∈ cs
    · rw [if_pos hl]
    · rw [if_neg hl, State.waitsOf_unlisted hl]

/-- A tick's last steps touch neither cores nor clocks. -/
theorem State.firstDigest_eq (s : State) : s.firstDigest = { s with cfg := s.firstDigest.cfg } := by
  unfold State.firstDigest; split <;> rfl

theorem State.firstDigest_cfg {s : State} (h : s.cfg.tag ≠ 0) : s.firstDigest.cfg = s.cfg := by
  rw [State.firstDigest, if_neg fun h' => h h'.1]

/-- A power record without its clocks and its counts of pooled work. -/
def Power.timeless (p : Power) : Power := { p with clusters := [], pool := Pool.reset }

/-- What a state is that has idled. -/
theorem Idles.eq {P : Nat → Prop} {s t : State} (h : Idles P s t) : t = { s with regs := t.regs, cores := t.cores, power := t.power } ∧
    t.power = { s.power with clusters := t.power.clusters, pool := t.power.pool } := by
  have hp : t.power.timeless = s.power.timeless := (congrArg State.power h.rest :)
  constructor
  · calc t = { t.timeless with regs := t.regs, cores := t.cores, power := t.power } := rfl
      _ = { s.timeless with regs := t.regs, cores := t.cores, power := t.power } := by rw [h.rest]
      _ = _ := rfl
  · calc t.power = { t.power.timeless with clusters := t.power.clusters, pool := t.power.pool } := rfl
      _ = { s.power.timeless with clusters := t.power.clusters, pool := t.power.pool } := by rw [hp]
      _ = _ := rfl

end Sys2Proof.Machine

open Sys2Proof Sys2Proof.Machine Sys2Proof.Certificates.Slice0

/-- A tick with nothing to fetch or to issue lets time pass. -/
theorem calmTick_passes {s : State} (ho : s.ordered) (h : ∀ c, AllFetched s c ∧ s.fetchFor c = none) :
    TickPasses s (calmTick s) ∧ (calmTick s).pending = s.held := by
  have hm := ho.maps
  have hidle := State.idled_spec hm
  obtain ⟨u, hu⟩ : ∃ u, u = s.idled.loseCycles Reg.SHM_CONFLICTS := ⟨_, rfl⟩
  have hl : Idles (fun off => off = Reg.SHM_CONFLICTS) s.idled u := hu ▸ Idles.count _ _ rfl
  have hi : Idles tickRegs s u := hidle.idles.trans (hl.mono fun _ h => .inr (.inr h))
  have hcl : ∀ k, u.cluster k = s.idled.cluster k := fun k => by
    rw [State.cluster, hu, State.loseCycles, State.count_power]; rfl
  have hreg : ∀ off, off ≠ Reg.SHM_CONFLICTS → u.reg off = s.idled.reg off := (hl.regs (hidle.idles.regs hm.regs).1).2
  have heq := calmTick_idle fun c => ⟨State.fillBuffer_whole (h c).1, (h c).2⟩
  rw [← hu, State.firstDigest_eq u] at heq
  have hcore : ∀ c, (u.core c).undue = (s.core c).undue := (hi.cores hm.cores).2
  have hstop : ∀ k, (s.cluster k).stopped = true → u.cluster k = s.cluster k := fun k h => (hcl k).trans (hidle.stops k h)
  have hrun : ∀ k, k < 32 → (s.cluster k).stopped = false →
      u.cluster k = { s.clockNext k with bubble := (u.cluster k).bubble, activity := (u.cluster k).activity } := fun k hk h => by
    have hk := hidle.runs k hk h
    rw [← hcl] at hk
    rw [congrArg ClusterClk.bubble hk]
    exact hk
  have hact : ∀ k, k < 32 → (∀ i, i < 64 → (s.core (64 * k + i)).ballast = none) →
      (u.cluster k).activity = (s.cluster k).activity := fun k hk h => by
    rw [hcl]; exact hidle.still k hk h
  rw [heq]
  refine ⟨⟨?_, fun c => ?_, hi.eq.2, fun k hk => ⟨hstop k, fun hs => ⟨hrun k hk hs, hact k hk, fun i hi' => ?_⟩⟩,
    fun htag => ?_, fun off h1 h2 h3 => (hi.regs hm.regs).2 off ?_, fun c _ => ?_⟩, hi.held⟩
  · rw [hi.eq.1]
  · calc u.core c = { (u.core c).undue with scrubDue := (u.core c).scrubDue } := rfl
      _ = _ := by rw [hcore]; rfl
  · have hd : (64 * k + i) / 64 = k := by omega
    have := hidle.bubbles (64 * k + i) (by omega) (by rw [hd]; exact hs)
    rw [hd] at this
    exact (hreg _ (by simp only [Reg.FCT_BUBBLES, Reg.SHM_CONFLICTS, coreReg, coreBase]; omega)).trans this
  · show u.firstDigest.cfg = s.cfg
    rw [State.firstDigest_cfg (by rw [hi.cfg]; exact htag), hi.cfg]
  · rintro (⟨c, h | h | h⟩ | (h | ⟨c, h | h | h⟩) | h)
    · exact (h3 c).1 h
    · exact (h3 c).2.1 h
    · exact (h3 c).2.2.1 h
    · exact h1 h
    · exact (h3 c).2.2.2.1 h
    · exact (h3 c).2.2.2.2.1 h
    · exact (h3 c).2.2.2.2.2 h
    · exact h2 h
  · exact (hreg _ (by simp only [Reg.SEQ_WAIT, Reg.SHM_CONFLICTS, coreReg, coreBase]; omega)).trans (hidle.waited c)

/-- Settles O53: the front of the queue and the tick are what step is; the rest is calmTick_passes. -/
theorem stepTakesTheFront : Obligations.StepTakesTheFront := by
  refine ⟨fun s c rest => rfl, fun s h => ?_, fun s ho _ h => calmTick_passes ho h, fun s n w => ⟨rfl, rfl⟩⟩
  unfold step
  rw [h]
  rfl

end

section
namespace Sys2Proof.Machine

open Sys2Proof.Certificates.Slice0

/-! ### Facets of a changed core -/

theorem Core.facet_setFacet {k : Core} (h : Sparse.rising k.facets = true) (f : Nat) (x : Facet) (y : Nat) :
    (k.setFacet f x).facet y = if y = f then x else k.facet y := Sparse.get_set _ _ _ h y

theorem Core.rising_setFacet {k : Core} (h : Sparse.rising k.facets = true) (f : Nat) (x : Facet) :
    Sparse.rising (k.setFacet f x).facets = true := Sparse.rising_set _ _ _ h

theorem State.core_modFacet {s : State} (h : Sparse.rising s.cores = true) (c f : Nat) (g : Facet → Facet) (d : Nat) :
    (s.modFacet c f g).core d = if d = c then (s.core c).setFacet f (g ((s.core c).facet f)) else s.core d :=
  State.core_modCore h c _ d

theorem State.rising_modFacet {s : State} (h : Sparse.rising s.cores = true) (c f : Nat) (g : Facet → Facet) :
    Sparse.rising (s.modFacet c f g).cores = true := State.rising_modCore h _ _

/-- The facets of core c of a state, by number. -/
def State.facet (s : State) (c f : Nat) : Facet := (s.core c).facet f

/-- Cores and the facets of core c are listed in rising order. -/
structure State.FacetMaps (s : State) (c : Nat) : Prop where
  cores : Sparse.rising s.cores = true
  facets : Sparse.rising (s.core c).facets = true

theorem State.Maps.facetMaps {s : State} (h : s.Maps) (c : Nat) : s.FacetMaps c := ⟨h.cores, (h.core c).facets⟩

theorem State.FacetMaps.of_cores {s t : State} {c : Nat} (h : s.FacetMaps c) (ht : t.cores = s.cores) : t.FacetMaps c :=
  ⟨by rw [ht]; exact h.cores, by rw [State.core, ht]; exact h.facets⟩

theorem State.FacetMaps.modFacet {s : State} {c : Nat} (h : s.FacetMaps c) (f : Nat) (g : Facet → Facet) :
    (s.modFacet c f g).FacetMaps c :=
  ⟨State.rising_modFacet h.cores .., by rw [State.core_modFacet h.cores, if_pos rfl]; exact Core.rising_setFacet h.facets ..⟩

theorem State.facet_modFacet {s : State} {c : Nat} (h : s.FacetMaps c) (f : Nat) (g : Facet → Facet) (y : Nat) :
    (s.modFacet c f g).facet c y = if y = f then g (s.facet c f) else s.facet c y := by
  rw [State.facet, State.core_modFacet h.cores, if_pos rfl, Core.facet_setFacet h.facets]; rfl

/-! ### Reads of a refill -/

theorem allOk_true {α : Type} {f : α → State → Bool × State} {s : State} (h : ∀ a, f a s = (true, s)) (l : List α) :
    allOk f l s = (true, s) := by
  induction l with
  | nil => rfl
  | cons a l ih => rw [allOk, h]; exact ih

theorem readCore_sound {s : State} {c : Nat} (h : (s.core c).ecc = []) (who : Who) (off n : Nat) :
    readCore who c off n s = (some (Sparse.getList 0 (s.core c).mem off n), s) := by
  have hw : ∀ w, checkCoreWord who c w s = (true, s) := fun w => by rw [checkCoreWord, h]; rfl
  rw [readCore, allOk_true hw]

/-- Touched banks alone change. -/
theorem State.touchBanks_eq (s : State) (off n : Nat) :
    ∃ b, s.touchBanks off n = { s with bankIdle := b } :=
  List.foldlRecOn (banksOf off n) State.touchBank (motive := fun u => ∃ b, u = { s with bankIdle := b }) ⟨s.bankIdle, rfl⟩
    fun _ ⟨b, hu⟩ k _ => ⟨Sparse.set 0 b k s.ticks, by rw [hu]; rfl⟩

theorem readSharedSlots_sound {s : State} (h : s.sharedEcc = []) (who : Who) (off n : Nat) :
    ∃ b, readSharedSlots who off n s = (some (Sparse.getList 0 s.shared off n), { s with bankIdle := b }) := by
  obtain ⟨b, hb⟩ := s.touchBanks_eq off n
  refine ⟨b, ?_⟩
  have hw : ∀ w, checkSharedWord who w { s with bankIdle := b } = (true, { s with bankIdle := b }) := fun w => by
    rw [checkSharedWord, h]; rfl
  rw [readSharedSlots, readSharedWith, hb, allOk_true hw]

/-- The place of byte off of a space, for a refill of core c. -/
def refillPlace (c space off : Nat) : Place :=
  match space with
  | 0 => .core c off
  | 1 => .core (c / 64 * 64 + off / 2 ^ 19) (off % 2 ^ 19)
  | 2 => .shared off
  | 3 => .stacked off
  | 4 => .host off
  | n => .window n off

/-- The byte of a space at off, for a refill of core c. -/
def refillByte (s : State) (c space off : Nat) : Byte := ((cellOf s (refillPlace c space off)).map s.cell).getD 0

theorem recordPlace_eq (c : Nat) (a : Word64) (k : Nat) : recordPlace c a k = refillPlace c (bits a 60 4) (bits a 0 60 + k) := rfl

theorem recorded_eq (s : State) (c : Nat) (a : Word64) (i n : Nat) :
    recorded s c a i n = (List.range n).map fun k => refillByte s c (bits a 60 4) (bits a 0 60 + i + k) := by
  simp only [recorded, recordPlace_eq, refillByte, Nat.add_assoc]

/-- A refill reads a piece within one slot that is reached at once. -/
theorem refillPiece_open {s : State} (hs : s.faultless) {c space off n : Nat} (hn : 0 < n) (hslot : off % 64 + n ≤ 64)
    (ho : ∀ k, k < n → placeOpen s false (refillPlace c space (off + k)) = true) :
    ∃ b, refillPiece c space off n s =
      (.bytes ((List.range n).map fun k => refillByte s c space (off + k)), { s with bankIdle := b }) := by
  obtain ⟨hshared, hstacked, hbanks, hpages, hcores⟩ := hs
  match space with
  | 0 => exact ⟨s.bankIdle, by rw [refillPiece, readCore_sound (hcores c).1]; rfl⟩
  | 1 =>
    refine ⟨s.bankIdle, ?_⟩
    rw [refillPiece, readCore_sound (hcores _).1]
    have hbytes : Sparse.getList 0 (s.core (c / 64 * 64 + off / 2 ^ 19)).mem (off % 2 ^ 19) n =
        (List.range n).map fun k => refillByte s c 1 (off + k) := by
      refine List.map_congr_left fun k hk => ?_
      have hk := List.mem_range.1 hk
      have h1 : (off + k) / 2 ^ 19 = off / 2 ^ 19 := by omega
      have h2 : (off + k) % 2 ^ 19 = off % 2 ^ 19 + k := by omega
      simp only [refillByte, refillPlace, h1, h2]; rfl
    rw [hbytes]; rfl
  | 2 =>
    obtain ⟨b, hb⟩ := readSharedSlots_sound hshared refillWho off n
    refine ⟨b, ?_⟩
    have hon : s.bankReady (bankOf off) = true := by rw [State.bankReady, State.bank, hbanks]; rfl
    rw [refillPiece]
    simp only [hon, if_true, hb]
    rfl
  | 3 =>
    refine ⟨s.bankIdle, ?_⟩
    have h0 := ho 0 hn
    simp only [refillPlace, placeOpen, Nat.add_zero] at h0
    cases hp : Sparse.get none s.tlb (off / 2 ^ 21) with
    | none => rw [hp] at h0; exact absurd h0 (by decide)
    | some p =>
      have htr : translate refillWho false off s = (.ok (p.1 * 2 ^ 21 + off % 2 ^ 21), s) := by
        simp only [translate, hp]; rfl
      rw [refillPiece]
      simp only [htr]
      rw [readPhys_good _ _ (by rw [hstacked]; rfl)]
      have hbytes : Sparse.getList 0 s.stacked (p.1 * 2 ^ 21 + off % 2 ^ 21) n =
          (List.range n).map fun k => refillByte s c 3 (off + k) := by
        refine List.map_congr_left fun k hk => ?_
        have hk := List.mem_range.1 hk
        have h1 : (off + k) / 2 ^ 21 = off / 2 ^ 21 := by omega
        have h2 : p.1 * 2 ^ 21 + (off + k) % 2 ^ 21 = p.1 * 2 ^ 21 + off % 2 ^ 21 + k := by omega
        simp only [refillByte, refillPlace, cellOf, h1, hp, Option.map_some, h2]; rfl
      rw [hbytes]; rfl
  | 4 =>
    refine ⟨s.bankIdle, ?_⟩
    have hreach : s.hostReach false off = true := by rw [State.hostReach, hpages]; rfl
    rw [refillPiece]
    simp only [hreach, if_true]
    rfl
  | m + 5 => exact absurd (ho 0 hn) (by simp [refillPlace, placeOpen])

theorem refillPieces_open {s : State} (hs : s.faultless) {c space : Nat} (fuel : Nat) {off : Nat} (l : List Unit)
    (hf : l.length < fuel) (ho : ∀ k, k < l.length → placeOpen s false (refillPlace c space (off + k)) = true) :
    ∃ b, refillPieces c space (pieces 64 fuel off l) s =
      (.bytes ((List.range l.length).map fun k => refillByte s c space (off + k)), { s with bankIdle := b }) := by
  induction fuel generalizing off l s with
  | zero => omega
  | succ fuel ih =>
    cases l with
    | nil => exact ⟨s.bankIdle, rfl⟩
    | cons u l =>
      set m := u :: l with hm
      set n := 64 - off % 64
      have hpos : 0 < n := by omega
      have hlen : 0 < m.length := by simp [hm]
      obtain ⟨b, hb⟩ := refillPiece_open (c := c) (space := space) (off := off) (n := (m.take n).length) hs
        (by rw [List.length_take]; omega) (by rw [List.length_take]; omega)
        (fun k hk => ho k (by rw [List.length_take] at hk; omega))
      obtain ⟨b', hb'⟩ := ih (s := { s with bankIdle := b }) (off := off + n) hs (m.drop n) (by rw [List.length_drop]; omega)
        (fun k hk => by
          rw [List.length_drop] at hk
          have := ho (n + k) (by omega)
          rwa [← Nat.add_assoc] at this)
      refine ⟨b', ?_⟩
      rw [show pieces 64 (fuel + 1) off m = (off, m.take n) :: pieces 64 fuel (off + n) (m.drop n) from rfl, refillPieces]
      simp only [hb, hb']
      have hsplit : (List.range m.length).map (fun k => refillByte s c space (off + k)) =
          ((List.range (m.take n).length).map fun k => refillByte s c space (off + k)) ++
            (List.range (m.drop n).length).map fun k => refillByte s c space (off + n + k) := by
        have hsum : m.length = (m.take n).length + (m.drop n).length := by
          rw [List.length_take, List.length_drop]; omega
        by_cases hle : m.length ≤ n
        · simp [List.take_of_length_le hle, List.drop_eq_nil_of_le hle]
        · have htake : (m.take n).length = n := by rw [List.length_take]; omega
          rw [hsum, List.range_add, List.map_append, htake, List.map_map]
          simp only [Function.comp_def, Nat.add_assoc]
      rw [hsplit]; rfl

/-- A refill reads bytes that are reached at once. -/
theorem refillRead_open {s : State} (hs : s.faultless) {c : Nat} {a : Word64} {i n : Nat} (ho : recordOpen s c a i n) :
    ∃ b, refillRead c a i n s = (.bytes (recorded s c a i n), { s with bankIdle := b }) := by
  have := refillPieces_open (c := c) (space := bits a 60 4) (off := bits a 0 60 + i) hs (n + 1) (List.replicate n ())
    (by simp) (fun k hk => by
      rw [List.length_replicate] at hk
      have := ho k hk
      rwa [recordPlace_eq, ← Nat.add_assoc] at this)
  simp only [List.length_replicate] at this
  rw [refillRead, cut, List.length_replicate, recorded_eq]
  exact this

theorem refillScales_open {s : State} (hs : s.faultless) {c : Nat} {l : LoadRec} (js : List Nat)
    (ho : ∀ j ∈ js, recordOpen s c l.scale (64 * j) (ceilDiv l.rowCount l.blk)) :
    ∃ b, refillScales c l js s = (.bytes [], js.map (recordScales s c l), { s with bankIdle := b }) := by
  induction js generalizing s with
  | nil => exact ⟨s.bankIdle, rfl⟩
  | cons j js ih =>
    obtain ⟨b, hb⟩ := refillRead_open hs (ho j (by simp))
    obtain ⟨b', hb'⟩ := ih (s := { s with bankIdle := b }) hs fun i hi => ho i (by simp [hi])
    refine ⟨b', ?_⟩
    rw [refillScales]
    simp only [hb, hb']
    rfl

end Sys2Proof.Machine
end

section
namespace Sys2Proof.Machine

open Sys2Proof.Certificates.Slice0

/-! ### Rows and entries written again -/

theorem Facet.badSegment_putRow {g : Facet} (h : g.ordered) (r : Nat) (img : RowImage) (now : Nat) :
    (g.putRow r img now).badSegment r = none := by
  obtain ⟨hrows, hparity, -⟩ := h
  simp only [Facet.badSegment, Facet.putRow, Sparse.get_set _ _ _ hrows, Sparse.get_set _ _ _ hparity, if_true, BitVec.xor_self]
  decide

theorem Facet.expParityOf_congr {f g : Facet} (h1 : f.colExp = g.colExp) (h2 : f.offsets = g.offsets) (j : Nat) :
    f.expParityOf j = g.expParityOf j := by simp only [Facet.expParityOf, h1, h2]

theorem Facet.expParityOf_putExp {g : Facet} (h : g.ordered) (j e : Nat) (offs : List Nat) (now : Nat) :
    (g.putExp j e offs now).expParityOf j = Sparse.get false (g.putExp j e offs now).expParity j := by
  obtain ⟨-, -, -, -, hparity, -⟩ := h
  simp only [Facet.putExp]
  rw [Sparse.get_set _ _ _ hparity, if_pos rfl]
  exact Facet.expParityOf_congr rfl rfl j

/-- The scales of the 25 logical columns that a load record gives, each with its effective exponents. -/
def recordColumns (s : State) (c : Nat) (l : LoadRec) : List (List Nat × List Nat) :=
  (List.range 25).map fun j => (recordScales s c l j, (fp4Column l.blk l.rowCount (recordScales s c l j)).2)

/-- The bits of row r at a load record's source. -/
def recordBits (s : State) (c : Nat) (l : LoadRec) (r : Nat) : Nat :=
  ofBytes (recorded s c l.src (l.pitch * (r - l.rowFirst)) 16)

theorem recordedRow_eq (s : State) (c : Nat) (l : LoadRec) (r : Nat) : recordedRow s c l r =
    if l.loads r = false then 0
    else if l.fmt = 8 then fp4Row l.blk (recordColumns s c l) r (recordBits s c l r)
    else BitVec.ofNat 128 (recordBits s c l r) := rfl

/-- The row is written as its record says. -/
theorem refillRow_open {s : State} (hs : s.faultless) {c f r : Nat} {l : LoadRec}
    (hsrc : l.loads r = true → recordOpen s c l.src (l.pitch * (r - l.rowFirst)) 16)
    (hscale : l.fmt = 8 → ∀ j, j < 25 → recordOpen s c l.scale (64 * j) (ceilDiv l.rowCount l.blk)) :
    ∃ b, refillRow c f r l s = (.bytes [], ({ s with bankIdle := b } : State).modFacet c f fun x =>
      x.putRow r (recordedRow s c l r) s.deviceTime) := by
  rw [recordedRow_eq]
  cases hl : l.loads r with
  | true =>
    obtain ⟨b, hb⟩ := refillRead_open hs (hsrc hl)
    by_cases hf : l.fmt = 8
    · obtain ⟨b', hb'⟩ := refillScales_open (s := { s with bankIdle := b }) hs (List.range 25)
        fun j hj => hscale hf j (List.mem_range.1 hj)
      have hcols : ((List.range 25).map (recordScales { s with bankIdle := b } c l)).map
          (fun v => (v, (fp4Column l.blk l.rowCount v).2)) = recordColumns s c l := List.map_map ..
      refine ⟨b', ?_⟩
      simp only [refillRow, hl, if_true, hb, hf, hb', hcols, Bool.true_eq_false, if_false]
      rfl
    · refine ⟨b, ?_⟩
      simp only [refillRow, hl, if_true, hb, hf, if_false, Bool.true_eq_false]
      rfl
  | false =>
    refine ⟨s.bankIdle, ?_⟩
    simp only [refillRow, hl, if_true, Bool.false_eq_true, if_false]

/-- The entry of the exponent store is written as its record says. -/
theorem refillEntry_open {s : State} (hs : s.faultless) {c f j : Nat} {l : LoadRec}
    (hscale : recordOpen s c l.scale (64 * j) (ceilDiv l.rowCount l.blk)) :
    let e := fp4Column l.blk l.rowCount (recordScales s c l j)
    ∃ b, refillEntry c f j l s = (.bytes [], ({ s with bankIdle := b } : State).modFacet c f fun x =>
      x.putExp j e.1 (e.2.map fun v => v - e.1) s.deviceTime) := by
  obtain ⟨b, hb⟩ := refillScales_open hs [j] fun i hi => by rw [List.mem_singleton.1 hi]; exact hscale
  refine ⟨b, ?_⟩
  simp only [refillEntry, hb]
  rfl

/-! ### Reports of facet care -/

@[simp] theorem State.eventless_logParity (s : State) (c f : Nat) (r : Refill) (b : Bool) :
    (s.logParity c f r b).eventless = s.eventless := State.eventless_setReg ..

@[simp] theorem State.eventless_parityRecord (s : State) (c f : Nat) (r : Refill) (cls : Nat) (b : Bool) :
    (s.parityRecord c f r cls b).eventless = s.eventless := State.eventless_raise ..

@[simp] theorem State.eventless_refillReport (s : State) (c f : Nat) (r : Refill) (cls : Nat) (b : Bool) :
    (s.refillReport c f r cls b).eventless = s.eventless := by
  simp only [State.refillReport, State.eventless_parityRecord]
  split <;> simp

/-- The class of a fault stands in GLB_FAULT_STAT once it is noted. -/
theorem State.noteClass_fld {s : State} (h : Sparse.rising s.regs = true) (cls : Nat) :
    (s.noteClass cls).fld Reg.GLB_FAULT_STAT 1 3 = cls % 8 := by
  have h1 : Sparse.rising (s.setFld Reg.GLB_FAULT_STAT 1 3 cls).regs = true := State.rising_setReg h _ _
  rw [State.noteClass, State.fld, State.setFld, State.reg_setReg h1, if_pos rfl, bits_setBits_other _ _ (by omega) (by omega)]
  exact State.fld_setFld_same h _ _ (by omega)

theorem State.raise_class {s : State} (h : Sparse.rising s.regs = true) {e : Event} (h0 : e.cls ≠ 0) :
    (s.raise e).fld Reg.GLB_FAULT_STAT 1 3 = e.cls % 8 := by
  rw [State.fld, State.raise_classed, State.postEvent_reg (State.rising_classed h _) e (by decide), ← State.noteClass_fld h,
    State.fld, State.classed, if_neg h0]
  split
  · rw [State.reg_count (State.rising_noteClass h _), if_neg (by decide)]
  · rfl

theorem Reg.parityLog_not_raised (c : Nat) : Reg.FCT_PARITY_LOG c ∉ raiseRegs := by
  simp only [raiseRegs, List.mem_cons, List.not_mem_nil, or_false, Reg.FCT_PARITY_LOG, Reg.HQ_EQ_LOST, Reg.GLB_FAULT_STAT,
    Reg.GLB_CONTAINED, coreReg, coreBase]
  omega

theorem State.rising_logParity {s : State} (h : Sparse.rising s.regs = true) (c f : Nat) (r : Refill) (b : Bool) :
    Sparse.rising (s.logParity c f r b).regs = true := State.rising_setReg h _ _

/-- The log after a refill: it follows where it names the finding. -/
theorem State.refillReport_log {s : State} (h : Sparse.rising s.regs = true) (c f : Nat) (r : Refill) (cls : Nat) :
    let log := parityLog f (r.row % 1024) r.segment (decide (1024 ≤ r.row))
    (s.refillReport c f r cls true).reg (Reg.FCT_PARITY_LOG c) =
      if s.reg (Reg.FCT_PARITY_LOG c) = log false then log true else s.reg (Reg.FCT_PARITY_LOG c) := by
  simp only [State.refillReport, State.parityRecord]
  split
  · rw [State.raise_reg (State.rising_logParity h ..) _ (Reg.parityLog_not_raised c), State.logParity, State.reg_setReg h, if_pos rfl]
  · rw [State.raise_reg h _ (Reg.parityLog_not_raised c)]

theorem State.refillReport_class {s : State} (h : Sparse.rising s.regs = true) (c f : Nat) (r : Refill) (b : Bool) :
    (s.refillReport c f r clsCorrected b).fld Reg.GLB_FAULT_STAT 1 3 = clsCorrected := by
  simp only [State.refillReport]
  split
  · exact State.raise_class (State.rising_logParity h ..) (show clsCorrected ≠ 0 by decide)
  · exact State.raise_class h (show clsCorrected ≠ 0 by decide)

/-! ### A refill -/

/-- A facet without its oldest refill. -/
def Facet.refilled (l : List Refill) (g : Facet) : Facet := { g with refills := l }

theorem Facet.expParityOf_refilled (l : List Refill) (g : Facet) (j : Nat) : (g.refilled l).expParityOf j = g.expParityOf j :=
  Facet.expParityOf_congr rfl rfl j

/-- The state once facet f of core c is written again by g and its refill is reported corrected. -/
def State.corrected (s : State) (c f : Nat) (g : Facet → Facet) (r : Refill) (l : List Refill) : State :=
  ((s.modFacet c f g).modFacet c f (·.refilled l)).refillReport c f r clsCorrected true

theorem State.refill_holds {s : State} {c : CoreId} {f : FacetId} {r : Refill} {rest : List Refill} {l : LoadRec}
    (hr : ((s.core c.toNat).facet f.toNat).refills = r :: rest) (hl : ((s.core c.toNat).facet f.toNat).record = some l)
    (hw : s.refillWaits c.toNat f.toNat = true) : s.refill c f = s.hold (.facetRefill c f) := by
  simp only [State.refill, hr, hl, hw, if_true]

theorem State.refill_corrects {s u : State} {c : CoreId} {f : FacetId} {r : Refill} {rest : List Refill} {l : LoadRec}
    {g : Facet → Facet}
    (hr : ((s.core c.toNat).facet f.toNat).refills = r :: rest) (hl : ((s.core c.toNat).facet f.toNat).record = some l)
    (hw : s.refillWaits c.toNat f.toNat = false)
    (hput : (if 1024 ≤ r.row then refillEntry c.toNat f.toNat (r.row - 1024) l s else refillRow c.toNat f.toNat r.row l s) =
      (.bytes [], u.modFacet c.toNat f.toNat g))
    (hpass : (((u.modFacet c.toNat f.toNat g).modFacet c.toNat f.toNat (·.refilled rest)).facet c.toNat f.toNat).passes r.row = true) :
    s.refill c f = u.corrected c.toNat f.toNat g r rest := by
  simp only [State.refill, hr, hl, hw, hput, Bool.false_eq_true, if_false]
  exact if_pos ⟨by simp, hpass⟩

/-- What a corrected refill leaves: one facet as written, the finding in the log, the class of the record. -/
theorem State.corrected_spec {s : State} (hm : s.Maps) (b : Sparse Nat) (c f : Nat) (g : Facet → Facet) (r : Refill) (l : List Refill) :
    let t := ({ s with bankIdle := b } : State).corrected c f g r l
    (∀ y, t.facet c y = if y = f then (g (s.facet c f)).refilled l else s.facet c y) ∧
      (let log := parityLog f (r.row % 1024) r.segment (decide (1024 ≤ r.row))
       t.reg (Reg.FCT_PARITY_LOG c) = if s.reg (Reg.FCT_PARITY_LOG c) = log false then log true
         else s.reg (Reg.FCT_PARITY_LOG c)) ∧ t.fld Reg.GLB_FAULT_STAT 1 3 = clsCorrected ∧
      (∀ d, d ≠ c → t.core d = s.core d) ∧ t.jobs = s.jobs ∧ t.shared = s.shared ∧ t.stacked = s.stacked := by
  intro t
  set u : State := { s with bankIdle := b }
  have hu : u.FacetMaps c := (hm.facetMaps c).of_cores rfl
  set v := u.modFacet c f g with hv
  have hv' : v.FacetMaps c := hu.modFacet f g
  set w := v.modFacet c f (·.refilled l) with hw
  have hwr : Sparse.rising w.regs = true := hm.regs
  have ht : t.eventless = w.eventless := State.eventless_refillReport ..
  have hcore : ∀ d, t.core d = w.core d := fun d => State.keeps_of_eventless (fun s => s.core d) (fun _ => rfl) ht
  refine ⟨fun y => ?_, State.refillReport_log hwr c f r _, State.refillReport_class hwr c f r _, fun d hd => ?_,
    (State.keeps_of_eventless State.jobs (fun _ => rfl) ht).trans rfl, (State.keeps_of_eventless State.shared (fun _ => rfl) ht).trans rfl,
    (State.keeps_of_eventless State.stacked (fun _ => rfl) ht).trans rfl⟩
  · rw [State.facet, hcore]
    show w.facet c y = _
    rw [hw, State.facet_modFacet hv', hv, State.facet_modFacet hu, State.facet_modFacet hu, if_pos rfl]
    split <;> rfl
  · rw [hcore, hw, State.core_modFacet hv'.cores, if_neg hd, hv, State.core_modFacet hu.cores, if_neg hd]
    rfl

theorem Facet.passes_putRow {g : Facet} (h : g.ordered) {r : Nat} (hr : r < 1024) (img : RowImage) (now : Nat) (l : List Refill) :
    ((g.putRow r img now).refilled l).passes r = true := by
  have hseg : ((g.putRow r img now).refilled l).badSegment r = none := Facet.badSegment_putRow h r img now
  rw [Facet.passes, if_neg (by omega), hseg]
  rfl

theorem Facet.passes_putExp {g : Facet} (h : g.ordered) {r : Nat} (hr : 1024 ≤ r) (e : Nat) (offs : List Nat) (now : Nat)
    (l : List Refill) : ((g.putExp (r - 1024) e offs now).refilled l).passes r = true := by
  have hpar := Facet.expParityOf_putExp h (r - 1024) e offs now
  rw [Facet.passes, if_pos hr, beq_iff_eq, Facet.expParityOf_refilled, hpar]
  rfl

/-- The answer to a refill whose state is known. -/
theorem exec_facetRefill {s t : State} {c : CoreId} {f : FacetId} (h : s.refill c f = t) :
    exec (.facetRefill c f) s = .next t := by rw [← h]; rfl

theorem refillWritesTheRecordedRow : RefillWritesTheRecordedRow := by
  intro s c fi r rest l ho hs g hr hl
  have hm := ho.maps
  refine ⟨fun hw => exec_facetRefill (State.refill_holds hr hl hw), fun hw hrow hable hsrc hscale => ?_⟩
  have hg : g.ordered := (hm.core c.toNat).facet fi.toNat
  set n := c.toNat
  set f := fi.toNat
  have hdone : ∀ (b : Sparse Nat) (write : Facet → Facet),
      (if 1024 ≤ r.row then refillEntry n f (r.row - 1024) l s else refillRow n f r.row l s) =
        (.bytes [], ({ s with bankIdle := b } : State).modFacet n f write) →
      ((write g).refilled rest).passes r.row = true →
      s.refill c fi = ({ s with bankIdle := b } : State).corrected n f write r rest := fun b write hput hpass => by
    refine State.refill_corrects hr hl hw hput ?_
    have hu : ({ s with bankIdle := b } : State).FacetMaps n := (hm.facetMaps n).of_cores rfl
    rw [State.facet_modFacet (hu.modFacet ..), if_pos rfl, State.facet_modFacet hu, if_pos rfl]
    exact hpass
  by_cases hentry : 1024 ≤ r.row
  · have hfmt : l.fmt = 8 := by
      rw [Facet.refillable, hl, Option.elim_some, if_pos hentry] at hable
      exact of_decide_eq_true hable
    obtain ⟨b, hb⟩ := refillEntry_open (c := n) (f := f) hs (hscale hfmt (r.row - 1024) (by omega))
    obtain ⟨hfacet, hlog, hcls, hothers, hrest⟩ := State.corrected_spec hm b n f (·.putExp (r.row - 1024)
      (fp4Column l.blk l.rowCount (recordScales s n l (r.row - 1024))).1
      ((fp4Column l.blk l.rowCount (recordScales s n l (r.row - 1024))).2.map fun v =>
        v - (fp4Column l.blk l.rowCount (recordScales s n l (r.row - 1024))).1) s.deviceTime) r rest
    refine ⟨_, exec_facetRefill (hdone b _ ((if_pos hentry).trans hb) (Facet.passes_putExp hg hentry ..)),
      fun h => absurd h (by omega), fun _ => ?_, hlog, hcls, fun y hy => (hfacet y).trans (if_neg hy), hothers, hrest⟩
    exact (hfacet f).trans (if_pos rfl)
  · obtain ⟨b, hb⟩ := refillRow_open (c := n) (f := f) (r := r.row) (l := l) hs (hsrc (by omega)) hscale
    obtain ⟨hfacet, hlog, hcls, hothers, hrest⟩ :=
      State.corrected_spec hm b n f (·.putRow r.row (recordedRow s n l r.row) s.deviceTime) r rest
    refine ⟨_, exec_facetRefill (hdone b _ ((if_neg hentry).trans hb) (Facet.passes_putRow hg (by omega) ..)),
      fun _ => ?_, fun h => absurd h hentry, hlog, hcls, fun y hy => (hfacet y).trans (if_neg hy), hothers, hrest⟩
    exact (hfacet f).trans (if_pos rfl)

end Sys2Proof.Machine
end

section
namespace Sys2Proof.Machine

open Sys2Proof.Certificates.Slice0

/-! ### What facet care leaves -/

/-- A core without its facets. -/
def Core.faceless (k : Core) : Core := { k with facets := [] }

/-- A facet without what a scrub visit may change of it: its state, marks, waiting refills and clean visits. -/
def Facet.unvisited (g : Facet) : Facet := { g with state := .empty, lastClean := [], marks := [], expMarks := [], refills := [] }

/-- A state without cores, the Uarid's fault log, and what event records change. -/
def State.careless (s : State) : State :=
  { s.eventless with cores := [], uarid := { s.uarid with faultLog := [] } }

/-- From s to t facet f of core c alone has been cared for. -/
structure FacetCared (c f : Nat) (s t : State) : Prop where
  maps : t.FacetMaps c
  others : ∀ d, d ≠ c → t.core d = s.core d
  core : (t.core c).faceless = (s.core c).faceless
  facets : ∀ y, y ≠ f → t.facet c y = s.facet c y
  image : (t.facet c f).unvisited = (s.facet c f).unvisited

/-- From s to t the device has cared for facet f of core c: registers outside P stand. -/
structure Cared (P : Nat → Prop) (c f : Nat) (s t : State) : Prop where
  rest : t.careless = s.careless
  regs : Sparse.rising s.regs = true → Sparse.rising t.regs = true ∧ ∀ off, ¬ P off → t.reg off = s.reg off
  cores : s.FacetMaps c → FacetCared c f s t

theorem FacetCared.of_cores {c f : Nat} {s t : State} (hs : s.FacetMaps c) (h : t.cores = s.cores) : FacetCared c f s t where
  maps := hs.of_cores h
  others d _ := by rw [State.core, h]; rfl
  core := by rw [State.core, h]; rfl
  facets y _ := by rw [State.facet, State.core, h]; rfl
  image := by rw [State.facet, State.core, h]; rfl

namespace Cared

variable {P Q : Nat → Prop} {c f : Nat} {s t u : State}

protected theorem refl (P : Nat → Prop) (c f : Nat) (s : State) : Cared P c f s s :=
  ⟨rfl, fun h => ⟨h, fun _ _ => rfl⟩, fun h => .of_cores h rfl⟩

protected theorem trans (h1 : Cared P c f s t) (h2 : Cared P c f t u) : Cared P c f s u where
  rest := h2.rest.trans h1.rest
  regs h := by
    obtain ⟨r1, e1⟩ := h1.regs h
    obtain ⟨r2, e2⟩ := h2.regs r1
    exact ⟨r2, fun off ho => (e2 off ho).trans (e1 off ho)⟩
  cores h := by
    have k1 := h1.cores h
    have k2 := h2.cores k1.maps
    exact ⟨k2.maps, fun d hd => (k2.others d hd).trans (k1.others d hd), k2.core.trans k1.core,
      fun y hy => (k2.facets y hy).trans (k1.facets y hy), k2.image.trans k1.image⟩

theorem mono (h : Cared P c f s t) (hPQ : ∀ off, P off → Q off) : Cared Q c f s t :=
  ⟨h.rest, fun hr => ⟨(h.regs hr).1, fun off ho => (h.regs hr).2 off fun hp => ho (hPQ off hp)⟩, h.cores⟩

theorem setReg (s : State) {off : Nat} (v : Word64) (h : P off) : Cared P c f s (s.setReg off v) where
  rest := rfl
  regs hr := ⟨State.rising_setReg hr _ _, fun i hi => by rw [State.reg_setReg hr, if_neg (by rintro rfl; exact hi h)]⟩
  cores hm := .of_cores hm rfl

theorem count (s : State) {off : Nat} (k : Nat) (h : P off) : Cared P c f s (s.count off k) := setReg s _ h

/-- A facet changed in no more than a visit may change. -/
theorem modFacet (s : State) {g : Facet → Facet} (hg : ∀ x, (g x).unvisited = x.unvisited) : Cared P c f s (s.modFacet c f g) where
  rest := rfl
  regs h := ⟨h, fun _ _ => rfl⟩
  cores h := by
    refine ⟨h.modFacet f g, fun d hd => ?_, ?_, fun y hy => ?_, ?_⟩
    · rw [State.core_modFacet h.cores, if_neg hd]
    · rw [State.core_modFacet h.cores, if_pos rfl]; rfl
    · rw [State.facet_modFacet h, if_neg hy]
    · rw [State.facet_modFacet h, if_pos rfl, hg]

theorem postEvent (s : State) (e : Event) : Cared (· ∈ raiseRegs) c f s (s.postEvent e) where
  rest := congrArg (fun u : State => { u with cores := [], uarid := { u.uarid with faultLog := [] } }) (State.eventless_postEvent s e)
  regs h := ⟨State.rising_postEvent h e, fun off ho => State.postEvent_reg h e fun h' => ho (by rw [h']; decide)⟩
  cores h := .of_cores h (by simp)

theorem raise (s : State) (e : Event) : Cared (· ∈ raiseRegs) c f s (s.raise e) where
  rest := congrArg (fun u : State => { u with cores := [], uarid := { u.uarid with faultLog := [] } }) (State.eventless_raise s e)
  regs h := ⟨State.rising_raise h e, fun _ ho => State.raise_reg h e ho⟩
  cores h := .of_cores h (State.keeps_of_eventless State.cores (fun _ => rfl) (State.eventless_raise s e))

end Cared

/-! ### Marks -/

/-- The state in which the Uarid has logged facet f of core c. -/
def State.logFault (s : State) (c f : Nat) : State := { s with uarid := { s.uarid with faultLog := s.uarid.faultLog ++ [(c, f)] } }

theorem Cared.logFault (P : Nat → Prop) (c f : Nat) (s : State) : Cared P c f s (s.logFault c f) :=
  ⟨rfl, fun h => ⟨h, fun _ _ => rfl⟩, fun h => .of_cores h rfl⟩

/-- A facet in another state. -/
def Facet.inState (st : FacetState) (g : Facet) : Facet := { g with state := st }

theorem State.markFacet_eq (s : State) (c f : Nat) (st : FacetState) (cause job ring : Nat) : s.markFacet c f st cause job ring =
    if (s.facet c f).state = .faulty ∨ (s.facet c f).state = st then s
    else (if st = .faulty then (s.modFacet c f (·.inState st)).logFault c f else s.modFacet c f (·.inState st)).markEvent c f
      (if st = .faulty then 3 else 2) cause job ring := rfl

theorem State.cared_markFacet (s : State) (c f : Nat) (st : FacetState) (cause job ring : Nat) :
    Cared (· ∈ raiseRegs) c f s (s.markFacet c f st cause job ring) := by
  rw [State.markFacet_eq]
  have hput : Cared (· ∈ raiseRegs) c f s (s.modFacet c f (·.inState st)) := Cared.modFacet s fun _ => rfl
  split
  · exact .refl ..
  · split
    · exact (hput.trans (Cared.logFault ..)).trans (Cared.postEvent ..)
    · exact hput.trans (Cared.postEvent ..)

/-- A facet marked STALE. -/
theorem State.facet_markStale {s : State} {c f : Nat} (hs : s.FacetMaps c) (h : (s.facet c f).state = .loaded) :
    (s.markFacet c f .stale 0 0 0).facet c f = (s.facet c f).inState .stale := by
  rw [State.markFacet_eq, if_neg (by rw [h]; simp), if_neg (by simp), State.facet, State.core, State.markEvent, State.postEvent_cores]
  exact (State.facet_modFacet hs f _ f).trans (if_pos rfl)

/-- A facet marked FAULTY, which the Uarid logs. -/
theorem State.facet_markFaulty {s : State} {c f : Nat} (hs : s.FacetMaps c) (h : (s.facet c f).state = .loaded) :
    (s.markFacet c f .faulty 0 0 0).facet c f = (s.facet c f).inState .faulty ∧
      (s.markFacet c f .faulty 0 0 0).uarid.faultLog = s.uarid.faultLog ++ [(c, f)] := by
  rw [State.markFacet_eq, if_neg (by rw [h]; simp), if_pos rfl]
  constructor
  · rw [State.facet, State.core, State.markEvent, State.postEvent_cores]
    exact (State.facet_modFacet hs f _ f).trans (if_pos rfl)
  · rw [State.markEvent, State.keeps_of_eventless (·.uarid.faultLog) (fun _ => rfl) (State.eventless_postEvent _ _)]
    rfl

end Sys2Proof.Machine
end

section
namespace Sys2Proof.Machine

open Sys2Proof.Certificates.Slice0

/-! ### Findings of the scrub -/

/-- The registers that facet care changes once a finding is counted. -/
def noteRegs (c off : Nat) : Prop := off ∈ raiseRegs ∨ off = Reg.FCT_PARITY_LOG c

/-- The registers that a finding of the scrub changes. -/
def findRegs (c off : Nat) : Prop := noteRegs c off ∨ off = Reg.FCT_PARITY_ERRS c

theorem noteRegs_errs (c : Nat) : ¬ noteRegs c (Reg.FCT_PARITY_ERRS c) := by
  simp only [noteRegs, raiseRegs, List.mem_cons, List.not_mem_nil, or_false, Reg.FCT_PARITY_LOG, Reg.FCT_PARITY_ERRS, Reg.HQ_EQ_LOST,
    Reg.GLB_FAULT_STAT, Reg.GLB_CONTAINED, coreReg, coreBase]
  omega

theorem findRegs_rows (c : Nat) : ¬ findRegs c (Reg.FCT_SCRUB_ROWS c) := by
  simp only [findRegs, noteRegs, raiseRegs, List.mem_cons, List.not_mem_nil, or_false, Reg.FCT_PARITY_LOG, Reg.FCT_PARITY_ERRS,
    Reg.HQ_EQ_LOST, Reg.GLB_FAULT_STAT, Reg.GLB_CONTAINED, Reg.FCT_SCRUB_ROWS, coreReg, coreBase]
  omega

theorem Facet.unvisited_mark (r : Nat) (g : Facet) : (g.mark r).unvisited = g.unvisited := by
  unfold Facet.mark; split <;> rfl

/-- A facet with one more finding that waits for its refill. -/
def Facet.awaiting (r : Refill) (g : Facet) : Facet := { g with refills := g.refills ++ [r] }

/-- What a finding leaves once it is counted. -/
def State.parityNoted (s : State) (c f : Nat) (r : Refill) : State :=
  if (s.facet c f).marked r.row then (s.parityReport c f r clsDegraded).markFacet c f .faulty 0 0 0
  else if s.fld (Reg.FCT_CTRL c) 7 1 = 1 ∧ (s.facet c f).refillable r.row then
    ((s.modFacet c f (·.mark r.row)).logParity c f r false).modFacet c f (·.awaiting r)
  else ((s.modFacet c f (·.mark r.row)).parityReport c f r clsContained).markFacet c f .stale 0 0 0

theorem State.parityFound_eq (s : State) (c f : Nat) (r : Refill) :
    s.parityFound c f r = (s.count (Reg.FCT_PARITY_ERRS c) 1).parityNoted c f r := rfl

theorem State.cared_logParity (s : State) (c f : Nat) (r : Refill) (b : Bool) : Cared (noteRegs c) c f s (s.logParity c f r b) :=
  Cared.setReg s _ (.inr rfl)

theorem State.cared_parityReport (s : State) (c f : Nat) (r : Refill) (cls : Nat) :
    Cared (noteRegs c) c f s (s.parityReport c f r cls) :=
  (s.cared_logParity c f r false).trans ((Cared.raise _ _).mono fun _ => .inl)

theorem State.cared_parityNoted (s : State) (c f : Nat) (r : Refill) : Cared (noteRegs c) c f s (s.parityNoted c f r) := by
  have hmark : Cared (noteRegs c) c f s (s.modFacet c f (·.mark r.row)) := Cared.modFacet s (Facet.unvisited_mark r.row)
  unfold State.parityNoted
  split
  · exact (s.cared_parityReport c f r _).trans ((State.cared_markFacet ..).mono fun _ => .inl)
  · split
    · exact (hmark.trans (State.cared_logParity ..)).trans (Cared.modFacet _ fun _ => rfl)
    · exact (hmark.trans (State.cared_parityReport ..)).trans ((State.cared_markFacet ..).mono fun _ => .inl)

theorem State.cared_parityFound (s : State) (c f : Nat) (r : Refill) : Cared (findRegs c) c f s (s.parityFound c f r) := by
  rw [State.parityFound_eq]
  exact (Cared.count s 1 (.inr rfl)).trans ((State.cared_parityNoted ..).mono fun _ => .inl)

/-- A finding is counted once. -/
theorem State.parityFound_errs {s : State} (h : Sparse.rising s.regs = true) (c f : Nat) (r : Refill) :
    (s.parityFound c f r).reg (Reg.FCT_PARITY_ERRS c) = s.reg (Reg.FCT_PARITY_ERRS c) + 1 := by
  rw [State.parityFound_eq, ((State.cared_parityNoted _ c f r).regs (State.rising_count h _ _)).2 _ (noteRegs_errs c),
    State.reg_count h, if_pos rfl]
  rfl

/-- What a finding of row r leaves of its facet. -/
structure RowFound (s t : State) (c f : Nat) (r : Refill) : Prop where
  log : t.reg (Reg.FCT_PARITY_LOG c) = parityLog f r.row r.segment false false
  again : r.row ∈ (s.facet c f).marks → (t.facet c f).state = .faulty ∧ t.uarid.faultLog = s.uarid.faultLog ++ [(c, f)]
  first : r.row ∉ (s.facet c f).marks → (t.facet c f).marks = (s.facet c f).marks ++ [r.row]
  waits : r.row ∉ (s.facet c f).marks → s.fld (Reg.FCT_CTRL c) 7 1 = 1 → (s.facet c f).refillable r.row = true →
    (t.facet c f).state = (s.facet c f).state ∧ (t.facet c f).refills = (s.facet c f).refills ++ [r] ∧ t.eq = s.eq
  stale : r.row ∉ (s.facet c f).marks → ¬(s.fld (Reg.FCT_CTRL c) 7 1 = 1 ∧ (s.facet c f).refillable r.row = true) →
    (t.facet c f).state = .stale

theorem State.parityReport_facet (s : State) (c f : Nat) (r : Refill) (cls : Nat) (y : Nat) :
    (s.parityReport c f r cls).facet c y = s.facet c y :=
  State.keeps_of_eventless (fun u => u.facet c y) (fun _ => rfl)
    ((State.eventless_parityRecord ..).trans (State.eventless_logParity ..))

theorem State.parityReport_faultLog (s : State) (c f : Nat) (r : Refill) (cls : Nat) :
    (s.parityReport c f r cls).uarid.faultLog = s.uarid.faultLog :=
  State.keeps_of_eventless (·.uarid.faultLog) (fun _ => rfl) ((State.eventless_parityRecord ..).trans (State.eventless_logParity ..))

theorem State.logParity_reg {s : State} (h : Sparse.rising s.regs = true) (c f : Nat) {r : Refill} (hr : r.row < 1024) :
    (s.logParity c f r false).reg (Reg.FCT_PARITY_LOG c) = parityLog f r.row r.segment false false := by
  rw [State.logParity, State.reg_setReg h, if_pos rfl, Nat.mod_eq_of_lt hr, decide_eq_false (by omega)]

/-- A report and the mark after it leave the log of the finding. -/
theorem State.reported_log {s : State} (h : Sparse.rising s.regs = true) (c f : Nat) {r : Refill} (hr : r.row < 1024) (cls : Nat)
    (st : FacetState) : ((s.parityReport c f r cls).markFacet c f st 0 0 0).reg (Reg.FCT_PARITY_LOG c) =
      parityLog f r.row r.segment false false := by
  have h1 : Sparse.rising (s.logParity c f r false).regs = true := State.rising_logParity h ..
  have h2 : Sparse.rising (s.parityReport c f r cls).regs = true := State.rising_raise h1 _
  rw [((State.cared_markFacet ..).regs h2).2 _ (Reg.parityLog_not_raised c), State.parityReport, State.parityRecord,
    State.raise_reg h1 _ (Reg.parityLog_not_raised c), State.logParity_reg h c f hr]

theorem State.rowFound {s : State} {c f : Nat} (hs : s.FacetMaps c) (hr : Sparse.rising s.regs = true)
    (hstate : (s.facet c f).state = .loaded) {r : Refill} (hrow : r.row < 1024) : RowFound s (s.parityNoted c f r) c f r := by
  have hmarked : (s.facet c f).marked r.row = true ↔ r.row ∈ (s.facet c f).marks := by
    rw [Facet.marked, if_neg (by omega), List.contains_iff_mem]
  set m := s.modFacet c f (·.mark r.row) with hm
  have hms : m.FacetMaps c := hs.modFacet ..
  have hmf : m.facet c f = { s.facet c f with marks := (s.facet c f).marks ++ [r.row] } := by
    rw [hm, State.facet_modFacet hs, if_pos rfl, Facet.mark, if_neg (by omega)]
  by_cases hin : r.row ∈ (s.facet c f).marks
  · have hnote : s.parityNoted c f r = (s.parityReport c f r clsDegraded).markFacet c f .faulty 0 0 0 := if_pos (hmarked.2 hin)
    have hrep := ((s.cared_parityReport c f r clsDegraded).cores hs).maps
    obtain ⟨hfacet, hlog⟩ := State.facet_markFaulty hrep (f := f) (by rw [State.parityReport_facet]; exact hstate)
    rw [hnote]
    refine ⟨State.reported_log hr c f hrow .., fun _ => ⟨by rw [hfacet]; rfl, by rw [hlog, State.parityReport_faultLog]⟩,
      fun h => absurd hin h, fun h => absurd hin h, fun h => absurd hin h⟩
  · by_cases hrefill : s.fld (Reg.FCT_CTRL c) 7 1 = 1 ∧ (s.facet c f).refillable r.row = true
    · have hnote : s.parityNoted c f r = (m.logParity c f r false).modFacet c f (·.awaiting r) :=
        (if_neg (mt hmarked.1 hin)).trans (if_pos hrefill)
      have hfacet : (s.parityNoted c f r).facet c f = (m.facet c f).awaiting r := by
        have hlm : (m.logParity c f r false).FacetMaps c := hms.of_cores rfl
        rw [hnote, State.facet_modFacet hlm, if_pos rfl]; rfl
      have hring : (s.parityNoted c f r).eq = s.eq := by rw [hnote]; rfl
      rw [hmf] at hfacet
      refine ⟨?_, fun h => absurd h hin, fun _ => by rw [hfacet]; rfl,
        fun _ _ _ => ⟨by rw [hfacet]; rfl, by rw [hfacet]; rfl, hring⟩, fun _ h => absurd hrefill h⟩
      rw [hnote]
      exact State.logParity_reg (s := m) hr c f hrow
    · have hnote : s.parityNoted c f r = (m.parityReport c f r clsContained).markFacet c f .stale 0 0 0 :=
        (if_neg (mt hmarked.1 hin)).trans (if_neg hrefill)
      have hrep := ((m.cared_parityReport c f r clsContained).cores hms).maps
      have hfacet : (s.parityNoted c f r).facet c f = (m.facet c f).inState .stale := by
        rw [hnote, State.facet_markStale hrep (by rw [State.parityReport_facet, hmf]; exact hstate), State.parityReport_facet]
      refine ⟨?_, fun h => absurd h hin, fun _ => by rw [hfacet, hmf]; rfl,
        fun _ h1 h2 => absurd ⟨h1, h2⟩ hrefill, fun _ _ => by rw [hfacet]; rfl⟩
      rw [hnote]
      exact State.reported_log (s := m) hr c f hrow ..

/-! ### The fields of the log -/

theorem parityLog_fields (f row seg : Nat) : let w := parityLog f row seg false false
    w.getLsbD 20 = true ∧ bits w 0 5 = f % 32 ∧ bits w 5 10 = row % 1024 ∧ bits w 15 3 = seg % 8 := by
  intro w
  have hw : w.toNat = f % 32 + row % 1024 * 32 + seg % 8 * 32768 + 1048576 := by
    simp only [w, parityLog, place, Bool.toNat_false, Nat.shiftLeft_eq, BitVec.toNat_ofNat]
    omega
  refine ⟨?_, ?_, ?_, ?_⟩
  · rw [BitVec.getLsbD, hw, Nat.testBit_eq_decide_div_mod_eq, decide_eq_true_eq]; omega
  all_goals simp only [bits, hw, Nat.shiftRight_eq_div_pow]; omega

/-! ### Visits -/

/-- From s to t facet f of core c has been visited, clean: nothing but the times of the keys in P is noted. -/
structure Visited (P : Nat → Prop) [DecidablePred P] (c f : Nat) (s t : State) : Prop where
  rest : t = { s with cores := t.cores }
  facet : s.FacetMaps c → t.facet c f = { s.facet c f with lastClean := (t.facet c f).lastClean }
  clean : s.FacetMaps c → Sparse.rising (s.facet c f).lastClean = true → Sparse.rising (t.facet c f).lastClean = true ∧
    ∀ y, Sparse.get 0 (t.facet c f).lastClean y = if P y then s.deviceTime else Sparse.get 0 (s.facet c f).lastClean y

/-- A facet whose row, or entry, r is noted clean at a time. -/
def Facet.cleanAt (r now : Nat) (g : Facet) : Facet := { g with lastClean := Sparse.set 0 g.lastClean r now }

theorem State.visited_cleanAt (s : State) (c f r : Nat) : Visited (· = r) c f s (s.modFacet c f (·.cleanAt r s.deviceTime)) where
  rest := rfl
  facet h := by rw [State.facet_modFacet h, if_pos rfl]; rfl
  clean h hr := by
    rw [State.facet_modFacet h, if_pos rfl]
    exact ⟨Sparse.rising_set _ _ _ hr, Sparse.get_set _ _ _ hr⟩

theorem Visited.trans {P Q : Nat → Prop} [DecidablePred P] [DecidablePred Q] {c f : Nat} {s t u : State} (h1 : Visited P c f s t)
    (hm : s.FacetMaps c → t.FacetMaps c) (h2 : Visited Q c f t u) : Visited (fun y => P y ∨ Q y) c f s u where
  rest := by rw [h2.rest, h1.rest]
  facet h := by rw [h2.facet (hm h), h1.facet h]
  clean h hr := by
    obtain ⟨r1, e1⟩ := h1.clean h hr
    obtain ⟨r2, e2⟩ := h2.clean (hm h) r1
    have htime : t.deviceTime = s.deviceTime := by rw [h1.rest]; rfl
    refine ⟨r2, fun y => ?_⟩
    rw [e2, e1, htime]
    by_cases hq : Q y <;> by_cases hp : P y <;> simp [hp, hq]

theorem State.scrubRow_clean {s : State} {c f r : Nat} (h : (s.facet c f).badSegment r = none) :
    s.scrubRow c f r = s.modFacet c f (·.cleanAt r s.deviceTime) := by
  rw [State.facet] at h
  simp only [State.scrubRow, h]
  rfl

theorem State.scrubRow_found {s : State} {c f r n : Nat} (h : (s.facet c f).badSegment r = some n) :
    s.scrubRow c f r = s.parityFound c f ⟨r, n, Sparse.get 0 (s.facet c f).lastClean r⟩ := by
  rw [State.facet] at h
  simp only [State.scrubRow, h]
  rfl

/-- Whether the parity of entry j of a facet's exponent store holds. -/
def Facet.entryGood (g : Facet) (j : Nat) : Bool := decide (g.expParityOf j = Sparse.get false g.expParity j)

theorem Facet.entryGood_unvisited (g : Facet) (j : Nat) : g.unvisited.entryGood j = g.entryGood j := by
  have : g.unvisited.expParityOf j = g.expParityOf j := Facet.expParityOf_congr rfl rfl j
  rw [Facet.entryGood, this]; rfl

theorem Facet.entryGood_congr {g g' : Facet} (h : g'.unvisited = g.unvisited) (j : Nat) : g'.entryGood j = g.entryGood j := by
  rw [← Facet.entryGood_unvisited, h, Facet.entryGood_unvisited]

theorem State.scrubEntry_clean {s : State} {c f j : Nat} (h : (s.facet c f).entryGood j = true) :
    s.scrubEntry c f j = s.modFacet c f (·.cleanAt (1024 + j) s.deviceTime) := if_pos (of_decide_eq_true h)

theorem State.scrubEntry_found {s : State} {c f j : Nat} (h : (s.facet c f).entryGood j = false) :
    s.scrubEntry c f j = s.parityFound c f ⟨1024 + j, 0, Sparse.get 0 (s.facet c f).lastClean (1024 + j)⟩ :=
  if_neg (of_decide_eq_false h)

theorem State.cared_cleanAt (P : Nat → Prop) (s : State) (c f r : Nat) : Cared P c f s (s.modFacet c f (·.cleanAt r s.deviceTime)) :=
  Cared.modFacet s fun _ => rfl

theorem State.cared_scrubRow (s : State) (c f r : Nat) : Cared (findRegs c) c f s (s.scrubRow c f r) := by
  cases h : (s.facet c f).badSegment r with
  | none => rw [State.scrubRow_clean h]; exact State.cared_cleanAt ..
  | some n => rw [State.scrubRow_found h]; exact State.cared_parityFound ..

theorem State.cared_scrubEntry (s : State) (c f j : Nat) : Cared (findRegs c) c f s (s.scrubEntry c f j) := by
  cases h : (s.facet c f).entryGood j with
  | true => rw [State.scrubEntry_clean h]; exact State.cared_cleanAt ..
  | false => rw [State.scrubEntry_found h]; exact State.cared_parityFound ..

/-- The entries below n of a facet's exponent store visited. -/
def State.scrubEntries (s : State) (c f n : Nat) : State := (List.range n).foldl (fun s j => s.scrubEntry c f j) s

theorem State.scrubEntries_succ (s : State) (c f n : Nat) :
    s.scrubEntries c f (n + 1) = (s.scrubEntries c f n).scrubEntry c f n := by
  simp only [State.scrubEntries, List.range_succ, List.foldl_concat]

theorem State.cared_scrubEntries (s : State) (c f n : Nat) : Cared (findRegs c) c f s (s.scrubEntries c f n) := by
  induction n with
  | zero => exact .refl ..
  | succ n ih => rw [State.scrubEntries_succ]; exact ih.trans (State.cared_scrubEntry ..)

theorem State.scrubEntries_entryGood {s : State} {c f : Nat} (h : s.FacetMaps c) (n j : Nat) :
    ((s.scrubEntries c f n).facet c f).entryGood j = (s.facet c f).entryGood j :=
  Facet.entryGood_congr ((s.cared_scrubEntries c f n).cores h).image j

/-- The exponent store's failing entries are counted. -/
theorem State.scrubEntries_errs {s : State} {c f : Nat} (h : s.FacetMaps c) (hr : Sparse.rising s.regs = true) (n : Nat) :
    (s.scrubEntries c f n).reg (Reg.FCT_PARITY_ERRS c) = s.reg (Reg.FCT_PARITY_ERRS c) +
      BitVec.ofNat 64 ((List.range n).countP fun j => !(s.facet c f).entryGood j) := by
  induction n with
  | zero => simp [State.scrubEntries]
  | succ n ih =>
    rw [State.scrubEntries_succ, List.range_succ, List.countP_append]
    have hgood := State.scrubEntries_entryGood (f := f) h n n
    cases hg : (s.facet c f).entryGood n with
    | true =>
      rw [State.scrubEntry_clean (hgood.trans hg)]
      refine Eq.trans (b := (s.scrubEntries c f n).reg _) rfl (ih.trans ?_)
      simp [hg]
    | false =>
      rw [State.scrubEntry_found (hgood.trans hg), State.parityFound_errs ((s.cared_scrubEntries c f n).regs hr).1, ih]
      simp [hg, BitVec.ofNat_add, BitVec.add_assoc]

/-- Entries of good parity are noted clean. -/
theorem State.scrubEntries_clean {s : State} {c f : Nat} (h : s.FacetMaps c) {n : Nat}
    (hgood : ∀ j, j < n → (s.facet c f).entryGood j = true) :
    Visited (fun y => 1024 ≤ y ∧ y < 1024 + n) c f s (s.scrubEntries c f n) := by
  induction n with
  | zero => exact ⟨rfl, fun _ => rfl, fun _ hr => ⟨hr, fun y => (if_neg (by omega)).symm⟩⟩
  | succ n ih =>
    have hn := (State.scrubEntries_entryGood (f := f) h n n).trans (hgood n (by omega))
    rw [State.scrubEntries_succ, State.scrubEntry_clean hn]
    have hv := (ih fun j hj => hgood j (by omega)).trans (fun h => ((s.cared_scrubEntries c f n).cores h).maps)
      (State.visited_cleanAt (s.scrubEntries c f n) c f (1024 + n))
    refine ⟨hv.rest, hv.facet, fun h hr => ⟨(hv.clean h hr).1, fun y => ?_⟩⟩
    rw [(hv.clean h hr).2]
    simp only [show (1024 ≤ y ∧ y < 1024 + n ∨ y = 1024 + n) ↔ 1024 ≤ y ∧ y < 1024 + (n + 1) by omega]

/-! ### A scrub read -/

theorem Core.scrubNext_loaded {k : Core} {f r : Nat} (h : k.scrubNext = some (f, r)) :
    (k.facet f).state = .loaded ∧ r < 1024 := by
  have hmem : ∀ f' ∈ k.loaded, (k.facet f').state = .loaded := fun f' h' =>
    of_decide_eq_true (List.mem_filter.1 h').2
  unfold Core.scrubNext at h
  split at h
  next hc =>
    obtain ⟨rfl, rfl⟩ := Prod.mk.inj (Option.some.inj h)
    exact hc
  next =>
    split at h
    next f' hf =>
      obtain ⟨rfl, rfl⟩ := Prod.mk.inj (Option.some.inj h)
      exact ⟨hmem _ (List.mem_of_find?_eq_some hf), by omega⟩
    next =>
      obtain ⟨f', hf, e⟩ := Option.map_eq_some_iff.1 h
      obtain ⟨rfl, rfl⟩ := Prod.mk.inj e
      exact ⟨hmem _ (List.mem_of_head? hf), by omega⟩

/-- A core whose scrub goes on behind row r of facet f. -/
def Core.scrubbedTo (f r : Nat) (k : Core) : Core := { k with scrubFacet := f, scrubRow := r + 1, scrubDue := false }

/-- The state in which the scrub of core c makes its read of row r of facet f, counted. -/
def State.scrubMoved (s : State) (c f r : Nat) : State :=
  (s.modCore c (Core.scrubbedTo f r)).count (Reg.FCT_SCRUB_ROWS c) 1

theorem State.scrub_stands {s : State} {c : Nat} (h : (s.core c).scrubDue = false ∨ s.clockStopped c = true) : s.scrub c = s := by
  refine if_pos ?_
  rcases h with h | h <;> simp [h]

theorem State.scrubMoved_eq (s : State) (c f r : Nat) :
    s.scrubMoved c f r = { s with cores := (s.scrubMoved c f r).cores, regs := (s.scrubMoved c f r).regs } := rfl

/-- What the move of the scrub leaves. -/
theorem State.scrubMoved_spec {s : State} {c : Nat} (hm : s.Maps) (f r : Nat) : let w := s.scrubMoved c f r
    w.FacetMaps c ∧ Sparse.rising w.regs = true ∧ (∀ off, w.reg off =
      if off = Reg.FCT_SCRUB_ROWS c then s.reg (Reg.FCT_SCRUB_ROWS c) + 1 else s.reg off) ∧
      w.core c = (s.core c).scrubbedTo f r ∧ ∀ d, d ≠ c → w.core d = s.core d := by
  intro w
  have hcore : ∀ d, w.core d = if d = c then (s.core c).scrubbedTo f r else s.core d := State.core_modCore hm.cores c _
  refine ⟨⟨State.rising_modCore hm.cores c _, ?_⟩, State.rising_count (s := s.modCore c (Core.scrubbedTo f r)) hm.regs _ _,
    fun off => ?_, by rw [hcore, if_pos rfl], fun d hd => by rw [hcore, if_neg hd]⟩
  · rw [hcore, if_pos rfl]; exact (hm.core c).facets
  · exact State.reg_count (s := s.modCore c (Core.scrubbedTo f r)) hm.regs _ _ off

/-- A due scrub read of row r of facet f of core c. -/
structure ScrubRead (s : State) (c f r : Nat) : Prop where
  maps : s.Maps
  due : (s.core c).scrubDue = true
  on : s.fld (Reg.FCT_CTRL c) 1 1 = 1
  clock : s.clockStopped c = false
  alive : s.module.fatal = false
  next : (s.core c).scrubNext = some (f, r)

namespace ScrubRead

variable {s : State} {c f r : Nat}

theorem facetMaps (h : ScrubRead s c f r) : (s.scrubMoved c f r).FacetMaps c := (State.scrubMoved_spec h.maps f r).1

theorem regs (h : ScrubRead s c f r) : Sparse.rising (s.scrubMoved c f r).regs = true := (State.scrubMoved_spec h.maps f r).2.1

theorem reg (h : ScrubRead s c f r) (off : Nat) : (s.scrubMoved c f r).reg off =
    if off = Reg.FCT_SCRUB_ROWS c then s.reg (Reg.FCT_SCRUB_ROWS c) + 1 else s.reg off := (State.scrubMoved_spec h.maps f r).2.2.1 off

theorem core (h : ScrubRead s c f r) : (s.scrubMoved c f r).core c = (s.core c).scrubbedTo f r :=
  (State.scrubMoved_spec h.maps f r).2.2.2.1

theorem facet (h : ScrubRead s c f r) (y : Nat) : (s.scrubMoved c f r).facet c y = s.facet c y := by
  rw [State.facet, h.core]; rfl

theorem image_row (h : ScrubRead s c f r) :
    (((s.scrubMoved c f r).scrubRow c f r).facet c f).unvisited = (s.facet c f).unvisited := by
  rw [((State.cared_scrubRow _ c f r).cores h.facetMaps).image, h.facet]

/-- The read visits its row, and with row 0 of an FP4 facet the exponent store. -/
theorem eq (h : ScrubRead s c f r) : s.scrub c =
    if r = 0 ∧ (s.facet c f).fmt = 8 then ((s.scrubMoved c f r).scrubRow c f r).scrubEntries c f 25
    else (s.scrubMoved c f r).scrubRow c f r := by
  have hfmt : (((s.scrubMoved c f r).scrubRow c f r).facet c f).fmt = (s.facet c f).fmt := (congrArg Facet.fmt h.image_row :)
  rw [← hfmt]
  simp only [State.scrub, h.due, h.on, h.clock, h.alive, h.next, Option.filter_some, decide_true, if_true, Bool.not_true,
    Bool.false_eq_true, or_self, if_false]
  rfl

theorem cared (h : ScrubRead s c f r) : Cared (findRegs c) c f (s.scrubMoved c f r) (s.scrub c) := by
  rw [h.eq]
  split
  · exact (State.cared_scrubRow ..).trans (State.cared_scrubEntries ..)
  · exact State.cared_scrubRow ..

theorem errs (h : ScrubRead s c f r) :
    (s.scrubMoved c f r).reg (Reg.FCT_PARITY_ERRS c) = s.reg (Reg.FCT_PARITY_ERRS c) := by
  rw [h.reg, if_neg (by simp only [Reg.FCT_PARITY_ERRS, Reg.FCT_SCRUB_ROWS, coreReg]; omega)]

theorem position (h : ScrubRead s c f r) : ((s.scrub c).core c).faceless = ((s.core c).scrubbedTo f r).faceless := by
  rw [(h.cared.cores h.facetMaps).core, h.core]

theorem image (h : ScrubRead s c f r) : ((s.scrub c).facet c f).unvisited = (s.facet c f).unvisited := by
  rw [(h.cared.cores h.facetMaps).image, h.facet]

/-- A row of good parity, and a whole exponent store of it, is noted clean. -/
theorem visited (h : ScrubRead s c f r) (hrow : (s.facet c f).badSegment r = none)
    (hall : r = 0 ∧ (s.facet c f).fmt = 8 → ∀ j, j < 25 → (s.facet c f).entryGood j = true) :
    Visited (fun y => y = r ∨ (r = 0 ∧ (s.facet c f).fmt = 8) ∧ 1024 ≤ y ∧ y < 1049) c f (s.scrubMoved c f r) (s.scrub c) := by
  have hclean := State.scrubRow_clean (s := s.scrubMoved c f r) (c := c) (f := f) (r := r) (by rw [h.facet]; exact hrow)
  have hone := (s.scrubMoved c f r).visited_cleanAt c f r
  rw [← hclean] at hone
  rw [h.eq]
  split
  next hw =>
    have hmaps := ((State.cared_scrubRow (s.scrubMoved c f r) c f r).cores h.facetMaps).maps
    have hent := State.scrubEntries_clean hmaps (n := 25) fun j hj =>
      (Facet.entryGood_congr h.image_row j).trans (hall hw j hj)
    have hboth := hone.trans (fun _ => hmaps) hent
    refine ⟨hboth.rest, hboth.facet, fun hm hr => ⟨(hboth.clean hm hr).1, fun y => ?_⟩⟩
    rw [(hboth.clean hm hr).2]
    simp only [hw, and_self, true_and]
  next hw =>
    refine ⟨hone.rest, hone.facet, fun hm hr => ⟨(hone.clean hm hr).1, fun y => ?_⟩⟩
    rw [(hone.clean hm hr).2]
    simp only [hw, false_and, or_false]

/-- The failing entries of the exponent store are counted. -/
theorem counted (h : ScrubRead s c f r) (hw : r = 0 ∧ (s.facet c f).fmt = 8) (hrow : (s.facet c f).badSegment r = none) :
    (s.scrub c).reg (Reg.FCT_PARITY_ERRS c) = s.reg (Reg.FCT_PARITY_ERRS c) +
      BitVec.ofNat 64 ((List.range 25).countP fun j => !(s.facet c f).entryGood j) := by
  have hclean := State.scrubRow_clean (s := s.scrubMoved c f r) (c := c) (f := f) (r := r) (by rw [h.facet]; exact hrow)
  have hcared := State.cared_scrubRow (s.scrubMoved c f r) c f r
  have herrs : ((s.scrubMoved c f r).scrubRow c f r).reg (Reg.FCT_PARITY_ERRS c) = s.reg (Reg.FCT_PARITY_ERRS c) := by
    rw [hclean]; exact h.errs
  rw [h.eq, if_pos hw, State.scrubEntries_errs (hcared.cores h.facetMaps).maps (hcared.regs h.regs).1, herrs]
  simp only [Facet.entryGood_congr h.image_row]

/-- A row that fails is counted and reported. -/
theorem found (h : ScrubRead s c f r) (hw : ¬(r = 0 ∧ (s.facet c f).fmt = 8)) {n : Nat}
    (hrow : (s.facet c f).badSegment r = some n) :
    (s.scrub c).reg (Reg.FCT_PARITY_ERRS c) = s.reg (Reg.FCT_PARITY_ERRS c) + 1 ∧
      RowFound s (s.scrub c) c f ⟨r, n, Sparse.get 0 (s.facet c f).lastClean r⟩ := by
  obtain ⟨hload, hr⟩ := Core.scrubNext_loaded h.next
  have hfound := State.scrubRow_found (s := s.scrubMoved c f r) (c := c) (f := f) (r := r) (by rw [h.facet]; exact hrow)
  rw [h.eq, if_neg hw, hfound, h.facet]
  refine ⟨by rw [State.parityFound_errs h.regs, h.errs], ?_⟩
  rw [State.parityFound_eq]
  obtain ⟨v, hv⟩ : ∃ v, v = (s.scrubMoved c f r).count (Reg.FCT_PARITY_ERRS c) 1 := ⟨_, rfl⟩
  rw [← hv]
  have hcores : v.cores = (s.scrubMoved c f r).cores := by rw [hv, State.count_cores]
  have hvf : v.facet c f = s.facet c f := by rw [State.facet, State.core, hcores]; exact h.facet f
  have hctrl : v.fld (Reg.FCT_CTRL c) 7 1 = s.fld (Reg.FCT_CTRL c) 7 1 := by
    rw [State.fld, hv, State.reg_count h.regs, if_neg (by simp only [Reg.FCT_PARITY_ERRS, Reg.FCT_CTRL, coreReg]; omega), h.reg,
      if_neg (by simp only [Reg.FCT_SCRUB_ROWS, Reg.FCT_CTRL, coreReg]; omega), State.fld]
  have hlogged : v.uarid = s.uarid := by rw [hv, State.count_uarid, State.scrubMoved, State.count_uarid, State.modCore_uarid]
  have hring : v.eq = s.eq := by rw [hv, State.count_eq, State.scrubMoved, State.count_eq, State.modCore_eq]
  have hvr : Sparse.rising v.regs = true := by rw [hv]; exact State.rising_count h.regs _ _
  obtain ⟨hlog, hagain, hfirst, hwaits, hstale⟩ := State.rowFound (h.facetMaps.of_cores hcores) hvr (f := f)
    (by rw [hvf]; exact hload) (r := ⟨r, n, Sparse.get 0 (s.facet c f).lastClean r⟩) hr
  rw [hvf] at hfirst
  rw [hvf, hlogged] at hagain
  rw [hvf, hctrl, hring] at hwaits
  rw [hvf, hctrl] at hstale
  exact ⟨hlog, hagain, hfirst, hwaits, hstale⟩

end ScrubRead

theorem Facet.badSegment_lt {g : Facet} {r n : Nat} (h : g.badSegment r = some n) : n < 8 :=
  List.mem_range.1 (List.mem_of_find?_eq_some h)

/-- The answer to a scrub read. -/
theorem exec_scrubRead (s : State) (c : CoreId) : exec (.scrubRead c) s = .next (s.scrub c.toNat) := rfl

theorem scrubReadVisitsTheNextRow : ScrubReadVisitsTheNextRow := by
  intro s cid ho
  have hm := ho.maps
  set c := cid.toNat
  refine ⟨fun h => by rw [exec_scrubRead, State.scrub_stands h], fun f r hdue hon hclk hfatal hnext => ?_⟩
  intro k g whole
  obtain ⟨hload, hr⟩ := Core.scrubNext_loaded hnext
  have h : ScrubRead s c f r := ⟨hm, hdue, hon, hclk, hfatal, hnext⟩
  have hcore := h.cared.cores h.facetMaps
  refine ⟨hload, hr, s.scrub c, exec_scrubRead s cid, (congrArg Core.scrubFacet h.position :), (congrArg Core.scrubRow h.position :),
    (congrArg Core.scrubDue h.position :), ?_, fun y hy => (hcore.facets y hy).trans (h.facet y),
    fun d hd => (hcore.others d hd).trans ((State.scrubMoved_spec hm f r).2.2.2.2 d hd), (congrArg Facet.rows h.image :),
    (congrArg State.jobs h.cared.rest :), fun hgood hall => ?_, fun hwhole hgood => ?_, fun hpart n hbad => ?_⟩
  · rw [(h.cared.regs h.regs).2 _ (findRegs_rows c), h.reg, if_pos rfl]
  · have hv := h.visited hgood fun hw j hj => decide_eq_true (hall hw j hj)
    have hregs : (s.scrub c).regs = (s.scrubMoved c f r).regs := by rw [hv.rest]
    refine ⟨?_, fun off hoff => ?_, ?_, fun y => ?_⟩
    · rw [hregs]
      exact hv.rest.trans (congrArg (fun u : State => { u with cores := (s.scrub c).cores }) (State.scrubMoved_eq s c f r))
    · rw [State.reg, hregs]; exact (h.reg off).trans (if_neg hoff)
    · exact (hv.facet h.facetMaps).trans (by rw [h.facet]; rfl)
    · have hlast : Sparse.rising ((s.scrubMoved c f r).facet c f).lastClean = true := by
        rw [h.facet]; exact ((hm.core c).facet f).2.2.2.2.2
      exact ((hv.clean h.facetMaps hlast).2 y).trans (by rw [h.facet]; rfl)
  · refine (h.counted hwhole hgood).trans ?_
    simp only [Facet.entryGood, decide_not]
    rfl
  · obtain ⟨herrs, hfound⟩ := h.found hpart hbad
    obtain ⟨hlog, hagain, hfirst, hwaits, hstale⟩ := hfound
    obtain ⟨h20, hf, hrow, hseg⟩ := parityLog_fields f r n
    refine ⟨herrs, by rw [hlog]; exact h20, by rw [State.fld, hlog]; exact hf, ?_, ?_,
      fun hin => ⟨hfirst hin, fun hc => ?_, fun hc => ?_⟩, hagain⟩
    · rw [State.fld, hlog, hrow, Nat.mod_eq_of_lt hr]
    · rw [State.fld, hlog, hseg, Nat.mod_eq_of_lt (Facet.badSegment_lt hbad)]
    · obtain ⟨hstate, hrefills, heq⟩ := hwaits hin hc.1 hc.2
      exact ⟨hstate.trans hload, hrefills, heq⟩
    · refine hstale hin fun hboth => ?_
      rcases hc with hc | hc
      · rw [hc] at hboth; exact absurd hboth.1 (by decide)
      · exact absurd (hc.symm.trans hboth.2) (by decide)

end Sys2Proof.Machine

open Sys2Proof Sys2Proof.Machine Sys2Proof.Certificates.Slice0

/-- Settles O29: the scrub read by what each visit leaves, the refill by what it reads and writes. -/
theorem scrubAndRefill : Obligations.ScrubAndRefill := ⟨scrubReadVisitsTheNextRow, refillWritesTheRecordedRow⟩

end

section
namespace Sys2Proof.Machine

open Sys2Proof.Certificates.Slice0

/-! ### A device with one core and one job

The two refutations below give their counterexamples on a device that runs job 1 on core 0. -/

/-- Job 1 on core 0: a list of 8 commands. -/
def soloJob : Job :=
  { num := 1, ring := 0, idx := 0
    desc := { desc2 2 with coreCount := 1, cmdCount := 8, listStride := 16, epoch := 0xFFFFFFFF }
    phase := .running, status := none, flags := .none, faultCore := 0, faultSeq := 0, epoch := 0, frozen := []
    replays := 0, journalOk := true, journal := [], contained := none, tagWait := none, forceCheck := [], syncDevs := []
    observed := [], saved := [], savedCmds := [] }

/-- Core 0 at its first command, its slot 0 FULL. -/
def soloCore : Core :=
  { Core.reset with job := 1, seqState := .running, task := TaskRec.initial, full := [(0, true)] }

/-- A device that runs a job on a core of the running cluster 0; its ring may use every facet, and core and stacked memory. -/
def soloState (j : Job) (k : Core) : State :=
  let power := { Power.reset with clusters := { ClusterClk.reset with stopped := false } :: List.replicate 31 ClusterClk.reset }
  let s : State := { State.reset with jobs := [j], cores := [(0, k)], power := power }
  ((s.setReg (Reg.HQ_SQ_FACETS 0) 0xFFFFFFFF).setReg (Reg.HQ_LIM_END 0 0) 524288).setReg (Reg.HQ_LIM_END 0 2) 0x100000000

/-- The maps of a state beside cores and jobs stand in order. -/
def State.orderedBeside (s : State) : Prop :=
  s.memOk ∧ s.sideOk ∧ s.uarid.ordered ∧ s.shaped ∧ Sparse.rising s.regs = true ∧ Sparse.rising s.rings = true ∧
    Sparse.rising s.ports = true ∧ Sparse.rising s.sync = true ∧ Sparse.rising s.expo = true ∧ Sparse.rising s.pregs = true ∧
    Sparse.rising s.vectors = true

theorem State.orderedBeside.ordered {s : State} {k : Core} {j : Job} (h : s.orderedBeside) (hcores : s.cores = [(0, k)])
    (hjobs : s.jobs = [j]) (hk : k.ordered) (hj : j.saved = []) : s.ordered := by
  obtain ⟨hmem, hside, hsecure, hshape, hregs, hrings, hports, hsync, hexpo, hpregs, hvectors⟩ := h
  refine ⟨hmem, hside, hsecure, hshape, hregs, by rw [hcores]; rfl, hrings, hports, hsync, hexpo, hpregs, hvectors,
    fun e he => ?_, fun i hi e he => ?_⟩
  · rw [hcores] at he; rw [List.mem_singleton.1 he]; exact hk
  · rw [hjobs] at hi; rw [List.mem_singleton.1 hi, hj] at he; cases he

theorem State.faultless_solo {s : State} {k : Core} (hcores : s.cores = [(0, k)]) (hk : k.ecc = [] ∧ k.acmParity = [])
    (h1 : s.sharedEcc = []) (h2 : s.stackedEcc = []) (h3 : s.banks = []) (h4 : s.hostPages = []) : s.faultless := by
  refine ⟨h1, h2, h3, h4, fun c => ?_⟩
  rw [State.core, hcores]
  cases c with
  | zero => exact hk
  | succ n => exact ⟨rfl, rfl⟩

/-! ### A command that starts after its job has a status -/

/-- Job 1 under replay, still executing although a status stands. -/
def endedJob : Job := { soloJob with status := some .ok, desc := { soloJob.desc with replay := true } }

/-- The device that runs it. -/
def endedState : State := soloState endedJob soloCore

/-- The header of a command with its commit flag. -/
def commitHdr : Hdr := { hdrOf 0 with commit := true }

/-- A FIRE of facet 0 with one INT8 activation from slot 0, into row 0. -/
def oneFire : FireArgs := { fireOf 0 with afmt := 4, kRows := 1, m := 1, mValid := 1, vpitch := 1 }

/-- That FIRE as a command of core 0. -/
def oneFireInstr : Instr := .fire 0 commitHdr oneFire

theorem soloCore_ordered : soloCore.ordered := by
  unfold Core.ordered Facet.ordered Issued.ordered
  decide +kernel

theorem endedState_orderedBeside : endedState.orderedBeside := by
  unfold State.orderedBeside State.memOk State.sideOk Uarid.ordered State.shaped Port.shaped
  decide +kernel

theorem endedState_starts : Starts endedState endedJob 0 commitHdr oneFireInstr where
  job := by decide +kernel
  clock := by decide +kernel
  idle := by decide +kernel
  free := by decide +kernel
  more := by decide +kernel
  turn := by decide +kernel
  fits := by decide +kernel
  banks := by decide +kernel
  free_ := by decide +kernel

theorem endedState_rowsReady : RowsReady endedState endedJob 0 commitHdr oneFireInstr [0] where
  toStarts := endedState_starts
  order := endedState_orderedBeside.ordered rfl rfl soloCore_ordered rfl
  sound := State.faultless_solo rfl ⟨rfl, rfl⟩ rfl rfl rfl rfl
  reach := by unfold opersReady; decide +kernel
  unchecked := by decide +kernel
  range := by decide +kernel
  room := by unfold State.journalRoom; decide +kernel

/-- No commit point is counted: the job has a status, so its completed command commits nothing (R204, R321). -/
theorem exec_endedState_commits {t : State} (h : exec oneFireInstr endedState = .next t) :
    t.reg (Reg.ACM_COMMITS 0) = endedState.reg (Reg.ACM_COMMITS 0) := by
  have hcount : (match exec oneFireInstr endedState with
      | .next t => decide (t.reg (Reg.ACM_COMMITS 0) = endedState.reg (Reg.ACM_COMMITS 0))
      | _ => true) = true := by decide +kernel
  rw [h] at hcount
  exact of_decide_eq_true hcount

/-! ### A stacked source behind a task base within a slot -/

/-- Core 0 with a task entry of stacked memory that begins 8 bytes behind a slot's first byte. -/
def strayCore : Core := { soloCore with task := { TaskRec.initial with stBase := 8, stBound := 0x10000000 } }

/-- The device that runs job 1 on it: the first two pages of stacked addresses lie in frames 0 and 5, and the first byte of frame 5
is 1. -/
def strayState : State :=
  { soloState soloJob strayCore with tlb := [(0, some (0, true)), (1, some (5, true))], stacked := [(5 * 2 ^ 21, 1)] }

/-- The last 16 bytes of the first page of the task's stacked memory, which the task's base moves across the end of the page. -/
def straySource : Opnd := ⟨3, 0, 2 ^ 21 - 16⟩

/-- An FLOAD of one row of INT4 from there into facet 0. -/
def strayLoad : FloadArgs :=
  { facet := 0, fmt := 2, rowFirst := 0, rowCount := 1, zeroRest := false, retain := false
    src := BitVec.ofNat 64 (3 * 2 ^ 60 + (2 ^ 21 - 16)), pitch := 16, blk := 0, stag := 2, scale := 0 }

/-- That FLOAD as a command of core 0. -/
def strayInstr : Instr := .fload 0 (hdrOf 0) strayLoad

theorem strayCore_ordered : strayCore.ordered := by
  unfold Core.ordered Facet.ordered Issued.ordered
  decide +kernel

theorem strayState_orderedBeside : strayState.orderedBeside := by
  unfold State.orderedBeside State.memOk State.sideOk Uarid.ordered State.shaped Port.shaped
  decide +kernel

theorem strayState_starts : Starts strayState soloJob 0 (hdrOf 0) strayInstr where
  job := by decide +kernel
  clock := by decide +kernel
  idle := by decide +kernel
  free := by decide +kernel
  more := by decide +kernel
  turn := by decide +kernel
  fits := by decide +kernel
  banks := by decide +kernel
  free_ := by decide +kernel

theorem strayState_dataReady : DataReady strayState soloJob 0 (hdrOf 0) strayInstr where
  toStarts := strayState_starts
  order := strayState_orderedBeside.ordered rfl rfl strayCore_ordered rfl
  sound := State.faultless_solo rfl ⟨rfl, rfl⟩ rfl rfl rfl rfl
  reach := by unfold opersReady; decide +kernel
  unchecked := by decide +kernel

/-- The row holds what stands behind frame 0: the access translates the first byte of its piece alone. -/
theorem exec_strayState_row {t : State} (h : exec strayInstr strayState = .next t) :
    Sparse.get 0 ((t.core 0).facet 0).rows 0 = 0 := by
  have hrow : (match exec strayInstr strayState with
      | .next t => decide (Sparse.get 0 ((t.core 0).facet 0).rows 0 = 0)
      | _ => true) = true := by decide +kernel
  rw [h] at hrow
  exact of_decide_eq_true hrow

/-- The row that the statement expects: the byte of frame 5 is its byte 8. -/
theorem strayState_image : BitVec.ofNat 128 (ofBytes (bytesIn strayState strayState
    (headCx strayState soloJob 0 (hdrOf 0) strayInstr) false straySource 0 16)) = (BitVec.ofNat 128 (2 ^ 64) : RowImage) := by
  decide +kernel

end Sys2Proof.Machine

open Sys2Proof Sys2Proof.Machine Sys2Proof.Certificates.Slice0

/-- Refutes O7: no hypothesis says that the job has no status. Job 1 still executes with one, under replay; its FIRE carries the
commit flag and completes, but commits nothing (R204, R321), where the statement counts a commit point. -/
theorem not_fireContributesItsRuns : ¬ Obligations.FireContributesItsRuns := by
  intro h
  obtain ⟨t, hexec, -, -, hrows, -⟩ := h endedState endedJob 0 commitHdr oneFire false oneFireInstr 0 rfl
    endedState_rowsReady (.inl (by decide +kernel)) (by decide +kernel) (.inr (by decide +kernel)) (by decide +kernel)
    (by decide +kernel) (.inl (by decide +kernel))
  obtain ⟨-, -, -, hcommit⟩ := hrows
  have hcounted : t.reg (Reg.ACM_COMMITS 0) = _ := (hcommit rfl rfl).2.2
  rw [exec_endedState_commits hexec] at hcounted
  exact absurd hcounted (by decide +kernel)

/-- Refutes O13: no hypothesis says that the bases of the task record are multiples of 64, as TASK would have them (R219). Behind a
base of 8 a row of 16 bytes crosses the end of a page; the access reads on in the frame behind the first page's, where the
statement reads the frame of the second page. -/
theorem not_floadFillsItsFacet : ¬ Obligations.FloadFillsItsFacet := by
  intro h
  obtain ⟨t, hexec, hloaded, -⟩ := h strayState soloJob 0 (hdrOf 0) strayLoad straySource straySource strayState_dataReady
    (by decide +kernel) (by decide +kernel) (fun h8 => absurd h8 (by decide))
  obtain ⟨-, -, -, -, -, hrow⟩ := hloaded
  have himage : Sparse.get 0 ((t.core 0).facet 0).rows 0 = BitVec.ofNat 128 (ofBytes (bytesIn strayState strayState
      (headCx strayState soloJob 0 (hdrOf 0) strayInstr) false straySource 0 16)) := (hrow 0 (by omega)).1
  rw [exec_strayState_row hexec, strayState_image] at himage
  exact absurd himage (by decide)

end

section
namespace Sys2Proof.Machine

open Sys2Proof.Certificates.Slice0

/-! ### One device for the commands of the tile rows

The refutations below share one device. Its job 1 executes under the replay flag although a status stands, and a command of such a
job commits nothing at its completion (R204, R321). The operations of the model give a job its status as they stop it, but no
hypothesis of the statements says so. -/

/-- The job of `endedJob`, without a journal. -/
def unjournalledJob : Job := { endedJob with journalOk := false }

/-- Core 0 with a compressed tile of two INT4 weights in slot 0, a float row 1, pair 2 dirty for the job, and a message of one
integer row on chain 7. -/
def stockedCore : Core :=
  { soloCore with
    mem := Sparse.setList 0 [] 0 (compressTile 2 1 2 [0xF1]), full := [(0, true), (1, true)]
    acmWord := [(1, 1)], dirty := [(2, [1])], rxBuf := [⟨0, 7, 1, [⟨0, List.replicate 64 1⟩]⟩] }

/-- The device that runs that job on that core. -/
def stockedState : State := soloState unjournalledJob stockedCore

theorem stockedCore_ordered : stockedCore.ordered := by
  unfold Core.ordered Facet.ordered Issued.ordered
  decide +kernel

theorem stockedState_orderedBeside : stockedState.orderedBeside := by
  unfold State.orderedBeside State.memOk State.sideOk Uarid.ordered State.shaped Port.shaped
  decide +kernel

theorem stockedState_ordered : stockedState.ordered :=
  stockedState_orderedBeside.ordered rfl rfl stockedCore_ordered rfl

theorem stockedState_inTurn : InTurn stockedState unjournalledJob 0 where
  job := by decide +kernel
  clock := by decide +kernel
  idle := by decide +kernel
  free := by decide +kernel
  more := by decide +kernel

/-- What a command of the device has still to show to be ready at the head of its buffer. -/
def standsReady (h : Hdr) (i : Instr) (rows : List Nat) : Bool :=
  let s := stockedState
  let t := s.issued unjournalledJob 0 h i
  let x := headCx s unjournalledJob 0 h i
  decide (leastCause (headCauses s unjournalledJob 0 h i) = none) &&
    (t.issuedOf 0 h.seq.toNat).all (fun r => r.banks.all fun b => s.bankReady b.1) && ready t (x.fresh t) i &&
    opersOk s t x i && rows.all fun t => decide (t ≤ 255)

theorem stockedState_rowsReady {h : Hdr} {i : Instr} {rows : List Nat} (hr : standsReady h i rows = true) :
    RowsReady stockedState unjournalledJob 0 h i rows := by
  simp only [standsReady, Bool.and_eq_true, decide_eq_true_eq, Option.all_eq_true, List.all_eq_true] at hr
  obtain ⟨⟨⟨⟨hfits, hbanks⟩, hfree⟩, hreach⟩, hrange⟩ := hr
  exact
    { stockedState_inTurn with
      turn := by decide +kernel
      fits := hfits
      banks := hbanks
      free_ := hfree
      order := stockedState_ordered
      sound := State.faultless_solo rfl ⟨rfl, rfl⟩ rfl rfl rfl rfl
      reach := hreach
      unchecked := rfl
      range := hrange
      room := fun hj => absurd hj (by decide) }

/-- Whether a command of the device counts no commit point and inverts no live bit. -/
def uncommitted (i : Instr) : Bool :=
  match exec i stockedState with
  | .next t => decide (t.reg (Reg.ACM_COMMITS 0) = stockedState.reg (Reg.ACM_COMMITS 0) ∧ (t.core 0).live = stockedCore.live)
  | _ => true

theorem uncommitted.keeps {i : Instr} {t : State} (hi : uncommitted i = true) (ht : exec i stockedState = .next t) :
    t.reg (Reg.ACM_COMMITS 0) = stockedState.reg (Reg.ACM_COMMITS 0) ∧ (t.core 0).live = stockedCore.live := by
  simpa only [uncommitted, ht, decide_eq_true_eq] using hi

/-- A command that counts no commit point has not written one row with its commit flag as `rowsWritten` asks. -/
theorem uncommitted.not_rowsWritten {i : Instr} {t : State} (hi : uncommitted i = true) (ht : exec i stockedState = .next t)
    (r : Nat) : ¬ rowsWritten stockedState t unjournalledJob 0 true [r] := by
  rintro ⟨-, -, -, hcommit⟩
  have hcounted : t.reg (Reg.ACM_COMMITS 0) = stockedState.reg (Reg.ACM_COMMITS 0) + 1 := (hcommit rfl rfl).2.2
  rw [(uncommitted.keeps hi ht).1] at hcounted
  exact absurd hcounted (by simp)

/-! ### The commands -/

/-- ACMINIT of row 0 as a row of integers. -/
def oneInit : AcminitArgs := ⟨0, 1, 0, 0, 0⟩

/-- ACMOUT of one output of row 2 in FP32. -/
def oneOut : AcmoutArgs := { acmoutOf 0 0 with acmRow := 2, m := 1, mValid := 1, ofmt := 0xF, dst := 512, opitch := 4 }

/-- REFMM of 1 × 1 × 1 INT8 elements of slot 0 into row 0. -/
def oneProduct : RefmmArgs := { refmmOf 0 0 with afmt := 4, bfmt := 4, apitch := 1, bpitch := 1 }

/-- The header of a command with its commit flag and one parameter record. -/
def commitHdr1 : Hdr := { commitHdr with prmN := 1, prm := 16 }

/-- REDUCE SUM of one FP32 element of slot 0 into row 1. -/
def oneSum : ReduceArgs := { reduceOf 0 with sfmt := 15, acmRow := 1, lpitch := 4 }

/-- TRANSIT MERGE of the message of chain 7 into row 0. -/
def oneMerge : TransitArgs := { transitOf 0 with chain := 7, role := 1, tseq := 1 }

/-- GATHER SPT of the tile in slot 0 with one vector of slot 1 into row 0. -/
def oneGather : GatherSptArgs := { sptOf 0 with afmt := 4, vpitch := 1, vec := 64 }

end Sys2Proof.Machine

open Sys2Proof Sys2Proof.Machine Sys2Proof.Certificates.Slice0

/-- Refutes O6: no hypothesis says that the job has no status. An ACMINIT with the commit flag completes and commits nothing (R204,
R321), where the statement counts a commit point. -/
theorem not_acminitSetsItsRows : ¬ Obligations.AcminitSetsItsRows := by
  intro h
  obtain ⟨t, hexec, -, hrows, -⟩ := h stockedState unjournalledJob 0 commitHdr oneInit (stockedState_rowsReady (by decide +kernel))
  exact uncommitted.not_rowsWritten (by decide +kernel) hexec 0 hrows

/-- Refutes O9: no hypothesis says that the job has no status. An ACMOUT of a row that the job holds dirty completes and commits
nothing (R204, R321), where the statement inverts the live bit of the pair. -/
theorem not_acmoutWritesItsLines : ¬ Obligations.AcmoutWritesItsLines := by
  intro h
  obtain ⟨t, hexec, -, -, -, -, hlive, -⟩ := h stockedState unjournalledJob 0 commitHdr oneOut 0 none ⟨0, 0, 512⟩
    (stockedState_rowsReady (by decide +kernel)) rfl (.inl ⟨by decide +kernel, rfl⟩)
    (.inl ⟨by decide +kernel, by decide +kernel⟩) (by decide +kernel) (by decide +kernel)
  have hpair : (t.core 0).live.getLsbD 2 = _ := (hlive rfl).1 2 (by decide)
  rw [(uncommitted.keeps (by decide +kernel) hexec).2] at hpair
  exact absurd hpair (by decide +kernel)

/-- Refutes O10: no hypothesis says that the job has no status. A REFMM with the commit flag completes and commits nothing (R204,
R321), where the statement counts a commit point. -/
theorem not_refmmAddsTreeByTree : ¬ Obligations.RefmmAddsTreeByTree := by
  intro h
  obtain ⟨t, hexec, -, hrows, -⟩ := h stockedState unjournalledJob 0 commitHdr1 oneProduct ⟨0, 0, 0⟩ ⟨0, 0, 0⟩
    (stockedState_rowsReady (by decide +kernel)) (by decide +kernel) (by decide +kernel) (by decide) (by decide) (by decide +kernel)
  exact uncommitted.not_rowsWritten (by decide +kernel) hexec 0 hrows

/-- Refutes O12: no hypothesis says that the job has no status. A REDUCE SUM with the commit flag completes and commits nothing
(R204, R321), where the statement counts a commit point. -/
theorem not_reduceFoldsItsLines : ¬ Obligations.ReduceFoldsItsLines := by
  intro h
  obtain ⟨t, hexec, -, -, -, hrows, -⟩ := h stockedState unjournalledJob 0 commitHdr oneSum ⟨0, 0, 0⟩ ⟨0, 0, 0⟩
    (stockedState_rowsReady (by decide +kernel)) (by decide +kernel) (fun hmode => absurd hmode (by decide)) (by decide +kernel)
  exact uncommitted.not_rowsWritten (by decide +kernel) hexec 1 hrows

/-- Refutes O15: no hypothesis says that the job has no status. A TRANSIT MERGE with the commit flag completes and commits nothing
(R204, R321), where the statement counts a commit point. -/
theorem not_transitSendsAndMerges : ¬ Obligations.TransitSendsAndMerges := by
  intro h
  obtain ⟨-, hmerge⟩ := h stockedState unjournalledJob 0 commitHdr oneMerge (stockedState_rowsReady (by decide +kernel)) rfl
  obtain ⟨t, hexec, -, hrows, -⟩ := hmerge ⟨0, 7, 1, [⟨0, List.replicate 64 1⟩]⟩ (.inl rfl) (by decide +kernel)
    (by decide +kernel) (by decide +kernel) rfl rfl (by decide +kernel) (by decide +kernel)
  exact uncommitted.not_rowsWritten (by decide +kernel) hexec 0 hrows

/-- Refutes O20: no hypothesis says that the job has no status. A GATHER SPT with the commit flag completes and commits nothing
(R204, R321), where the statement counts a commit point. -/
theorem not_gatherSptContributesItsRuns : ¬ Obligations.GatherSptContributesItsRuns := by
  intro h
  obtain ⟨t, hexec, -, hrows, -⟩ := h stockedState unjournalledJob 0 commitHdr oneGather ⟨0, 0, 0⟩ ⟨0, 0, 64⟩
    ⟨2, false, 1, 2, 2, 27⟩ 0 (stockedState_rowsReady (by decide +kernel)) (by decide +kernel) (by decide +kernel)
    (by decide +kernel) (by decide +kernel) (by decide +kernel) (.inl (by decide +kernel))
  exact uncommitted.not_rowsWritten (by decide +kernel) hexec 0 hrows

end

section
namespace Sys2Proof.Machine

open Sys2Proof.Certificates.Slice0

/-! ### A ring number beyond the 32 rings

The limits of a ring of that number stand at the register offset of a core's counter of discarded pairs. A fetched job's ring is
one of the 32, but no hypothesis of the statement says so. -/

/-- Job 1 under replay, contained by detector 4, on a ring of number 0xEFF5. -/
def farRingJob : Job :=
  { soloJob with ring := 0xEFF5, phase := .stopped, contained := some ⟨4, 0, 0, 0⟩, desc := { soloJob.desc with replay := true } }

/-- Core 0 of that job, stopped: its slot 0 FULL, its pair 3 dirty for the job. -/
def dirtyCore : Core := { soloCore with seqState := .idle, dirty := [(3, [1])] }

/-- The device with that job on that core; the CORE limits of its ring end with byte 62. -/
def farRingState : State := (soloState farRingJob dirtyCore).setReg (Reg.HQ_LIM_END 0xEFF5 0) 63

theorem dirtyCore_ordered : dirtyCore.ordered := by
  unfold Core.ordered Facet.ordered Issued.ordered
  decide +kernel

theorem farRingState_orderedBeside : farRingState.orderedBeside := by
  unfold State.orderedBeside State.memOk State.sideOk Uarid.ordered State.shaped Port.shaped
  decide +kernel

/-- The start of the replay counts the discarded pair first, and empties slot 0 within the limits that it then reads. -/
theorem exec_farRingState_isFull {t : State} (h : exec (.replayStart 1) farRingState = .next t) : (t.core 0).isFull 0 = false := by
  have hfull : (match exec (.replayStart 1) farRingState with
      | .next t => (t.core 0).isFull 0
      | _ => false) = false := by decide +kernel
  rwa [h] at hfull

end Sys2Proof.Machine

open Sys2Proof Sys2Proof.Machine Sys2Proof.Certificates.Slice0

/-- Refutes O31: no hypothesis bounds the ring of the job. The CORE limit of a ring of number 0xEFF5 stands where core 0 counts its
discarded pairs, so the discard of a dirty pair moves the limit behind slot 0, which the statement leaves FULL. -/
theorem not_retriesAndReplays : ¬ Obligations.RetriesAndReplays := by
  rintro ⟨-, hreplay⟩
  obtain ⟨hstart, -⟩ := hreplay farRingState 1 farRingJob ⟨4, 0, 0, 0⟩
    (farRingState_orderedBeside.ordered rfl rfl dirtyCore_ordered rfl) (by decide +kernel) rfl rfl (by decide +kernel)
    (by decide +kernel) (by decide +kernel)
  obtain ⟨t, hexec, -, hcores, -⟩ := hstart (by decide) (by decide) (by decide) (by decide +kernel) (by decide +kernel)
  obtain ⟨-, -, -, -, -, -, hfull⟩ := hcores 0 (by decide +kernel)
  have hslot := hfull 0
  rw [exec_farRingState_isFull hexec] at hslot
  exact absurd hslot (by decide +kernel)

end

section
namespace Sys2Proof.Machine

open Sys2Proof.Certificates.Slice0

/-! ### Sparse maps: entries taken out, values changed -/

/-- What is left at a key once entries have been taken out. -/
theorem Sparse.get_filter {α : Type} (d : α) (p : Nat × α → Bool) {m : Sparse α} (h : Sparse.rising m = true) (k : Nat) :
    Sparse.get d (m.filter p) k = if p (k, Sparse.get d m k) then Sparse.get d m k else d := by
  induction m with
  | nil => exact (ite_self d).symm
  | cons e m ih =>
    obtain ⟨k', v⟩ := e
    obtain ⟨ha, hm⟩ := Sparse.rising_tail h
    rcases lt_trichotomy k k' with hk | rfl | hk
    · have hout : Sparse.get d ((k', v) :: m) k = d := by simp [Sparse.get, hk.ne, hk]
      have hrest : Sparse.get d (m.filter p) k = d := Sparse.get_below d (Sparse.above_filter p ha hm) hk.le
      rw [hout, List.filter_cons]
      split <;> simp [Sparse.get, hk.ne, hk, hrest]
    · have hrest : Sparse.get d (m.filter p) k = d := Sparse.get_below d (Sparse.above_filter p ha hm) le_rfl
      rw [List.filter_cons]
      by_cases hp : p (k, v) = true <;> simp [Sparse.get, hp, hrest]
    · have hin : Sparse.get d ((k', v) :: m) k = Sparse.get d m k := by simp [Sparse.get, hk.ne', hk.not_gt]
      rw [hin, ← ih hm, List.filter_cons]
      split
      · simp [Sparse.get, hk.ne', hk.not_gt]
      · rfl

/-- A change of values that keeps the default is read at every key. -/
theorem Sparse.get_map {α : Type} {d : α} (f : α → α) (hd : f d = d) (m : Sparse α) (k : Nat) :
    Sparse.get d (m.map fun e => (e.1, f e.2)) k = f (Sparse.get d m k) := by
  induction m with
  | nil => exact hd.symm
  | cons e m ih =>
    simp only [List.map_cons, Sparse.get, ih]
    split
    · rfl
    · split
      · exact hd.symm
      · rfl

/-- Every key of a rising map is above a bound of its first one. -/
theorem Sparse.lt_of_above {α : Type} {lo : Nat} {m : Sparse α} (ha : Sparse.above lo m = true) (h : Sparse.rising m = true) :
    ∀ e ∈ m, lo < e.1 := by
  induction m generalizing lo with
  | nil => intro e he; cases he
  | cons e' m ih =>
    have hlo : lo < e'.1 := by simpa [Sparse.above] using ha
    obtain ⟨ha', hm⟩ := Sparse.rising_tail h
    exact List.forall_mem_cons.mpr ⟨hlo, fun e he => hlo.trans (ih ha' hm e he)⟩

/-- An entry of a rising map is what is read at its key. -/
theorem Sparse.get_of_mem {α : Type} (d : α) {m : Sparse α} (h : Sparse.rising m = true) {e : Nat × α} (he : e ∈ m) :
    Sparse.get d m e.1 = e.2 := by
  induction m with
  | nil => cases he
  | cons e' m ih =>
    obtain ⟨ha, hm⟩ := Sparse.rising_tail h
    rcases List.mem_cons.mp he with rfl | he
    · simp [Sparse.get]
    · have hlt : e'.1 < e.1 := Sparse.lt_of_above ha hm e he
      simp [Sparse.get, hlt.ne', hlt.not_gt, ih hm he]

/-- What reads as another value than the default is listed. -/
theorem Sparse.mem_of_get {α : Type} {d : α} {m : Sparse α} {k : Nat} (h : Sparse.get d m k ≠ d) : (k, Sparse.get d m k) ∈ m := by
  induction m with
  | nil => exact absurd rfl h
  | cons e m ih =>
    simp only [Sparse.get] at h ⊢
    split_ifs at h ⊢ with h1 h2
    · subst h1; exact List.mem_cons_self
    · exact absurd rfl h
    · exact List.mem_cons_of_mem _ (ih h)

/-! ### Dirty pairs that a job gives up -/

/-- The pairs that a job holds dirty on a core whose marks stand in order. -/
theorem Core.mem_dirtyPairs {k : Core} (h : Sparse.rising k.dirty = true) (num p : Nat) :
    p ∈ k.dirtyPairs num (fun _ => true) ↔ num ∈ k.holders p := by
  simp only [Core.dirtyPairs, Bool.and_true, List.mem_map, List.mem_filter, List.contains_iff_mem, Core.holders]
  constructor
  · rintro ⟨e, ⟨he, hnum⟩, rfl⟩
    rwa [Sparse.get_of_mem [] h he]
  · intro hnum
    exact ⟨_, ⟨Sparse.mem_of_get (List.ne_nil_of_mem hnum), hnum⟩, rfl⟩

/-- A core on which a job gives up its dirty pairs (R69). -/
def Core.undirtied (k : Core) (num : Nat) : Core :=
  { k with dirty := k.dirty.filter fun e => !(k.dirtyPairs num fun _ => true).contains e.1 }

/-- A core on which a job commits its dirty pairs (R68). -/
def Core.committed (k : Core) (num : Nat) : Core :=
  { k.undirtied num with
    live := (k.dirtyPairs num fun _ => true).foldl (fun l p => l ^^^ (BitVec.ofNat 256 (2 ^ p))) k.live }

theorem Core.holders_undirtied {k : Core} (h : Sparse.rising k.dirty = true) (num p : Nat) :
    (k.undirtied num).holders p = if num ∈ k.holders p then [] else k.holders p := by
  have hread : (k.undirtied num).holders p = if !(k.dirtyPairs num fun _ => true).contains p then k.holders p else [] :=
    Sparse.get_filter [] _ h p
  rw [hread]
  have hp := Core.mem_dirtyPairs h num p
  by_cases hnum : num ∈ k.holders p
  · simp [hnum, hp.mpr hnum]
  · simp [hnum, mt hp.mp hnum]

/-- The pairs given up are no longer dirty for the job. -/
theorem Core.dirtyPairs_undirtied (k : Core) (num : Nat) : (k.undirtied num).dirtyPairs num (fun _ => true) = [] := by
  simp only [Core.dirtyPairs, Core.undirtied, Bool.and_true, List.map_eq_nil_iff, List.filter_eq_nil_iff, List.mem_filter,
    Bool.not_eq_true', List.contains_eq_mem, decide_eq_true_eq, decide_eq_false_iff_not, List.mem_map, not_exists, not_and]
  rintro e ⟨he, hkept⟩ hnum
  exact hkept e ⟨he, hnum⟩ rfl

theorem Core.undirtied_undirtied (k : Core) (num : Nat) : (k.undirtied num).undirtied num = k.undirtied num := by
  rw [Core.undirtied, Core.dirtyPairs_undirtied]
  simp

theorem Core.dirtyPairs_committed (k : Core) (num : Nat) : (k.committed num).dirtyPairs num (fun _ => true) = [] :=
  Core.dirtyPairs_undirtied k num

theorem Core.committed_committed (k : Core) (num : Nat) : (k.committed num).committed num = k.committed num := by
  rw [Core.committed, Core.undirtied, Core.dirtyPairs_committed]
  simp

/-- One bit inverted for each of a list of different bits. -/
theorem getLsbD_flips (ps : List Nat) (h : ps.Nodup) (l : BitVec 256) {p : Nat} (hp : p < 256) :
    (ps.foldl (fun l p => l ^^^ (BitVec.ofNat 256 (2 ^ p))) l).getLsbD p = (l.getLsbD p != decide (p ∈ ps)) := by
  induction ps generalizing l with
  | nil => simp
  | cons q ps ih =>
    obtain ⟨hq, hps⟩ := List.nodup_cons.mp h
    have hbit : (BitVec.ofNat 256 (2 ^ q)).getLsbD p = decide (p = q) := by
      rw [BitVec.getLsbD_ofNat, Nat.testBit_two_pow]
      simp [hp, eq_comm]
    rw [List.foldl_cons, ih hps, BitVec.getLsbD_xor, hbit]
    by_cases hpq : p = q
    · subst hpq; simp [hq]
    · simp [hpq]

theorem Core.live_committed {k : Core} (h : Sparse.rising k.dirty = true) (num : Nat) {p : Nat} (hp : p < 256) :
    (k.committed num).live.getLsbD p = (k.live.getLsbD p != decide (num ∈ k.holders p)) := by
  have hnodup : (k.dirtyPairs num fun _ => true).Nodup := Sparse.nodup_keys (Sparse.rising_filter _ h)
  rw [Core.committed, getLsbD_flips _ hnodup _ hp]
  simp only [Core.mem_dirtyPairs h]

/-! ### What comes before a report -/

/-- The registers that the end of a job may change before its report. -/
def endReg (off : Nat) : Prop := off = Reg.SYN_OPS ∨ ∃ c, off = Reg.ACM_COMMITS c ∨ off = Reg.ACM_DISCARDS c

/-- A register of a ring whose number ends otherwise is none of them. -/
theorem ringReg_not_endReg (n : Nat) {o : Nat} (ho : o < 0x40 ∨ 0x48 < o) (ho' : o < 0x100) : ¬ endReg (ringReg n o) := by
  simp only [endReg, ringReg, Reg.SYN_OPS, Reg.ACM_COMMITS, Reg.ACM_DISCARDS, coreReg, coreBase, not_or, not_exists]
  exact ⟨by omega, fun c => ⟨by omega, by omega⟩⟩

/-- Between s and u only cores, registers, exposure slots and counters have changed; no core has changed its job, and no
register but those that the end of a job counts in. -/
structure Prepared (s u : State) : Prop where
  rest : u = { s with cores := u.cores, regs := u.regs, expo := u.expo, sync := u.sync }
  cores : Sparse.rising s.cores = true → Sparse.rising u.cores = true ∧ ∀ c, (u.core c).job = (s.core c).job
  regs : Sparse.rising s.regs = true → Sparse.rising u.regs = true ∧ ∀ off, ¬ endReg off → u.reg off = s.reg off

/-- The discard of a job's dirty pairs: on each of its cores, then counted for its saved contexts (R69). -/
theorem State.discardJob_eq (s : State) (j : Job) : s.discardJob j =
    j.saved.foldl (fun s e => s.count (Reg.ACM_DISCARDS e.1) (e.2.dirtyPairs j.num fun _ => true).length)
      ((s.coresOf j).foldl (fun s c => s.discard c j.num fun _ => true) s) := rfl

namespace Prepared

variable {s u v : State}

theorem refl (s : State) : Prepared s s := ⟨rfl, fun h => ⟨h, fun _ => rfl⟩, fun h => ⟨h, fun _ _ => rfl⟩⟩

theorem trans (h1 : Prepared s u) (h2 : Prepared u v) : Prepared s v where
  rest := by rw [h2.rest, h1.rest]
  cores h := ⟨(h2.cores (h1.cores h).1).1, fun c => ((h2.cores (h1.cores h).1).2 c).trans ((h1.cores h).2 c)⟩
  regs h := ⟨(h2.regs (h1.regs h).1).1, fun off ho => ((h2.regs (h1.regs h).1).2 off ho).trans ((h1.regs h).2 off ho)⟩

theorem foldl {α : Type} (f : State → α → State) (h : ∀ u a, Prepared u (f u a)) (l : List α) (s : State) :
    Prepared s (l.foldl f s) :=
  List.foldlRecOn l f (motive := Prepared s) (refl s) fun _ hu a _ => hu.trans (h _ a)

theorem count (s : State) {off : Nat} (k : Nat) (h : endReg off) : Prepared s (s.count off k) where
  rest := rfl
  cores hc := ⟨hc, fun _ => rfl⟩
  regs hr := ⟨State.rising_count hr off k, fun i hi => by rw [State.reg_count hr, if_neg (by rintro rfl; exact hi h)]⟩

theorem setCore (s : State) (c : Nat) {k : Core} (h : k.job = (s.core c).job) : Prepared s (s.setCore c k) where
  rest := rfl
  cores hc := ⟨State.rising_setCore hc c k, fun d => by
    rw [State.core_setCore hc]
    split
    · next hd => rw [h, hd]
    · rfl⟩
  regs hr := ⟨hr, fun _ _ => rfl⟩

theorem discard (s : State) (c num : Nat) (q : Nat → Bool) : Prepared s (s.discard c num q) :=
  (setCore s c (k := { s.core c with dirty := (s.core c).dirty.filter fun e => !((s.core c).dirtyPairs num q).contains e.1 })
    rfl).trans (count _ _ (.inr ⟨c, .inr rfl⟩))

theorem commit (s : State) (c num : Nat) (q : Nat → Bool) : Prepared s (s.commit c num q) :=
  (setCore s c (k := { s.core c with
      live := ((s.core c).dirtyPairs num q).foldl (fun l p => l ^^^ (BitVec.ofNat 256 (2 ^ p))) (s.core c).live
      dirty := (s.core c).dirty.filter fun e => !((s.core c).dirtyPairs num q).contains e.1 }) rfl).trans
    (count _ _ (.inr ⟨c, .inl rfl⟩))

theorem discardJob (s : State) (j : Job) : Prepared s (s.discardJob j) := by
  rw [State.discardJob_eq]
  refine (foldl _ (fun u c => ?_) _ s).trans (foldl _ (fun u e => ?_) _ _)
  · exact discard u c _ _
  · exact count u _ (.inr ⟨e.1, .inr rfl⟩)

theorem setExpoSlot (s : State) (n : Nat) (e : ExpoSlot) : Prepared s (s.setExpoSlot n e) where
  rest := rfl
  cores hc := ⟨hc, fun _ => rfl⟩
  regs hr := ⟨hr, fun _ _ => rfl⟩

theorem updateSlots (s : State) (j : Job) : Prepared s (s.updateSlots j) :=
  foldl _ (fun u z => by
    split
    · exact setExpoSlot _ _ _
    · exact refl u) j.frozen s

end Prepared

/-! ### Counters that end waits -/

theorem Core.wake_job (n : Nat) (v : Word64) (k : Core) : (k.wake n v).job = k.job := by
  unfold Core.wake
  split
  · split <;> rfl
  · rfl

theorem Core.wake_of_not_waiting {k : Core} (h : k.waitOn = none) (n : Nat) (v : Word64) : k.wake n v = k := by
  simp [Core.wake, h]

theorem rising_wakes (n : Nat) (v : Word64) {m : Sparse Core} (h : Sparse.rising m = true) :
    Sparse.rising (m.map fun e => (e.1, e.2.wake n v)) = true :=
  (Sparse.rising_map (fun e : Nat × Core => e.2.wake n v) m).trans h

/-- After a change of a counter every core is woken from its wait on it, or as before (R307). -/
theorem State.core_setCtr {s : State} (h : Sparse.rising s.cores = true) (n : Nat) (v : Word64) (c : Nat) :
    (s.setCtr n v).core c = (s.core c).wake n v := by
  have hwake : Sparse.get Core.reset (s.cores.map fun e => (e.1, e.2.wake n v)) c = (s.core c).wake n v :=
    Sparse.get_map (d := Core.reset) (Core.wake n v) (Core.wake_of_not_waiting rfl n v) s.cores c
  simp only [State.core, State.setCtr, wakeCores, Sparse.get_filter _ _ (rising_wakes n v h), decide_eq_true_eq]
  rw [hwake]
  split
  · rfl
  · next hreset => exact (not_not.mp hreset).symm

theorem Prepared.setCtr (s : State) (n : Nat) (v : Word64) : Prepared s (s.setCtr n v) where
  rest := rfl
  cores hc := ⟨Sparse.rising_filter _ (rising_wakes n v hc), fun c => by rw [State.core_setCtr hc, Core.wake_job]⟩
  regs hr := ⟨hr, fun _ _ => rfl⟩

theorem Prepared.ctrOp (s : State) (op : CtrOp) (n : Nat) (a cmp : Word64) : Prepared s (s.ctrOp op n a cmp) :=
  (Prepared.setCtr s n _).trans (.count _ 1 (.inl rfl))

/-! ### Folds over the cores of a job -/

/-- A fold that changes each core of a list, in a way that repeats without effect. -/
theorem State.core_foldl {step : State → Nat → State} {f : Core → Core} (hf : ∀ k, f (f k) = f k)
    (hstep : ∀ s c, Sparse.rising s.cores = true → Sparse.rising (step s c).cores = true ∧
      ∀ d, (step s c).core d = if d = c then f (s.core d) else s.core d) (cs : List Nat) :
    ∀ {s : State}, Sparse.rising s.cores = true → ∀ d, (cs.foldl step s).core d = if d ∈ cs then f (s.core d) else s.core d := by
  induction cs with
  | nil => intro s _ d; simp
  | cons c cs ih =>
    intro s hs d
    obtain ⟨hrising, hcore⟩ := hstep s c hs
    rw [List.foldl_cons, ih hrising, hcore]
    by_cases hc : d = c <;> by_cases hd : d ∈ cs <;> simp [hc, hd, hf]

theorem State.core_discard {s : State} (h : Sparse.rising s.cores = true) (c num d : Nat) :
    (s.discard c num fun _ => true).core d = if d = c then (s.core d).undirtied num else s.core d := by
  have hset : (s.discard c num fun _ => true).core d = (s.setCore c ((s.core c).undirtied num)).core d := rfl
  rw [hset, State.core_setCore h]
  split
  · next hd => rw [hd]
  · rfl

theorem State.core_commit {s : State} (h : Sparse.rising s.cores = true) (c num d : Nat) :
    (s.commit c num fun _ => true).core d = if d = c then (s.core d).committed num else s.core d := by
  have hset : (s.commit c num fun _ => true).core d = (s.setCore c ((s.core c).committed num)).core d := rfl
  rw [hset, State.core_setCore h]
  split
  · next hd => rw [hd]
  · rfl

theorem State.core_discardJob {s : State} (h : Sparse.rising s.cores = true) (j : Job) (d : Nat) :
    (s.discardJob j).core d = if d ∈ s.coresOf j then (s.core d).undirtied j.num else s.core d := by
  have hsaved : (s.discardJob j).cores = ((s.coresOf j).foldl (fun s c => s.discard c j.num fun _ => true) s).cores := by
    rw [State.discardJob_eq]
    refine foldl_keeps State.cores _ (fun u e => ?_) _ _
    rfl
  rw [State.core, hsaved]
  exact State.core_foldl (f := fun k => k.undirtied j.num) (fun k => k.undirtied_undirtied j.num)
    (fun u c hu => ⟨((Prepared.discard u c j.num fun _ => true).cores hu).1, State.core_discard hu c j.num⟩) _ h d

/-! ### The update of exposure slots -/

/-- A slot after the end of a job that has frozen it (R117). -/
def ExpoSlot.afterJob (e : ExpoSlot) (j : Job) (z : Frozen) (now : Nat) : ExpoSlot :=
  if z.anchored then e.update (j.observedOf z.slot) z.retries now else e

/-- The update of one slot that a job has frozen. -/
def State.updateSlot (s : State) (j : Job) (z : Frozen) : State :=
  if z.anchored then s.setExpoSlot z.slot ((s.expoSlot z.slot).update (j.observedOf z.slot) z.retries s.deviceTime) else s

theorem State.updateSlots_eq (s : State) (j : Job) : s.updateSlots j = j.frozen.foldl (fun s z => s.updateSlot j z) s := rfl

theorem State.expoSlot_updateSlot {s : State} (h : Sparse.rising s.expo = true) (j : Job) (z : Frozen) (n : Nat) :
    (s.updateSlot j z).expoSlot n = if n = z.slot then (s.expoSlot n).afterJob j z s.deviceTime else s.expoSlot n := by
  unfold State.updateSlot ExpoSlot.afterJob
  split
  · rw [State.expoSlot_setExpoSlot h]
    split
    · next hn => rw [hn]
    · rfl
  · rw [ite_self]

theorem State.rising_updateSlot {s : State} (h : Sparse.rising s.expo = true) (j : Job) (z : Frozen) :
    Sparse.rising (s.updateSlot j z).expo = true := by
  unfold State.updateSlot
  split
  · exact Sparse.rising_set _ _ _ h
  · exact h

theorem State.deviceTime_updateSlot (s : State) (j : Job) (z : Frozen) : (s.updateSlot j z).deviceTime = s.deviceTime := by
  unfold State.updateSlot
  split <;> rfl

/-- Each of different frozen slots is updated once, and no other slot. -/
theorem State.expoSlot_foldl_updateSlot (j : Job) (l : List Frozen) (hl : (l.map (·.slot)).Nodup) :
    ∀ {s : State}, Sparse.rising s.expo = true →
      (∀ z ∈ l, (l.foldl (fun s z => s.updateSlot j z) s).expoSlot z.slot = (s.expoSlot z.slot).afterJob j z s.deviceTime) ∧
        ∀ n, n ∉ l.map (·.slot) → (l.foldl (fun s z => s.updateSlot j z) s).expoSlot n = s.expoSlot n := by
  induction l with
  | nil => intro s _; exact ⟨fun z hz => absurd hz List.not_mem_nil, fun n _ => rfl⟩
  | cons y l ih =>
    intro s hs
    obtain ⟨hy, hl⟩ := List.nodup_cons.mp hl
    obtain ⟨hin, hout⟩ := ih hl (State.rising_updateSlot hs j y)
    simp only [State.expoSlot_updateSlot hs, State.deviceTime_updateSlot] at hin hout
    refine ⟨fun z hz => ?_, fun n hn => ?_⟩
    · rcases List.mem_cons.mp hz with rfl | hz
      · rw [List.foldl_cons, hout _ hy, if_pos rfl]
      · rw [List.foldl_cons, hin z hz, if_neg fun hslot => hy (List.mem_map.mpr ⟨z, hz, hslot⟩)]
    · obtain ⟨hny, hnl⟩ : n ≠ y.slot ∧ n ∉ l.map (·.slot) := by simpa using hn
      rw [List.foldl_cons, hout n hnl, if_neg hny]

theorem State.slotsUpdated_updateSlots {s : State} (h : Sparse.rising s.expo = true) {j : Job}
    (hj : (j.frozen.map (·.slot)).Nodup) : slotsUpdated s (s.updateSlots j) j := by
  rw [State.updateSlots_eq]
  exact State.expoSlot_foldl_updateSlot j j.frozen hj h

/-! ### The last commit points -/

theorem State.mem_of_findJob {s : State} {num : Nat} {j : Job} (h : s.findJob num = some j) : j.num = num ∧ num ≠ 0 := by
  have := List.find?_some h
  simpa using this

/-- A job that is not replayable has no record written (R325). -/
theorem State.journal_not_replayable {s : State} {num : Nat} {j : Job} (h : s.findJob num = some j) (hj : j.replayable = false)
    (r : JRec) : s.journal num r = s := by
  simp [State.journal, h, hj]

theorem State.commitPoint_not_replayable {s : State} {num : Nat} {j : Job} (h : s.findJob num = some j)
    (hj : j.replayable = false) (c seq : Nat) (q : Nat → Bool) : s.commitPoint num c seq q = s.commit c num q := by
  simp only [State.commitPoint, State.journal_not_replayable h hj, ite_self]

theorem State.closeGroup_none {s : State} {c : Nat} (h : (s.core c).group = none) (num : Nat) (q : Nat → Bool) :
    s.closeGroup num c q = s := by
  simp [State.closeGroup, h]

/-- The commit points of a job that is not replayable, on cores without a rescale group (R68). -/
theorem State.commitAll_eq {s : State} {j : Job} (hcores : Sparse.rising s.cores = true) (h : s.findJob j.num = some j)
    (hj : j.replayable = false) (hgroup : ∀ c ∈ j.cores, (s.core c).group = none) :
    s.commitAll j = j.cores.foldl (fun s c => s.commit c j.num fun _ => true) s := by
  unfold State.commitAll
  generalize j.cores = cs at hgroup
  induction cs generalizing s with
  | nil => rfl
  | cons c cs ih =>
    have hstays : ∀ d, (s.core d).group = none → ((s.commit c j.num fun _ => true).core d).group = none := by
      intro d hd
      rw [State.core_commit hcores]
      split <;> exact hd
    rw [List.foldl_cons, List.foldl_cons, State.commitPoint_not_replayable h hj,
      State.closeGroup_none (hstays c (hgroup c List.mem_cons_self))]
    exact ih ((Prepared.commit s c j.num _).cores hcores).1 h fun d hd => hstays d (hgroup d (List.mem_cons_of_mem _ hd))

/-! ### A completion record -/

/-- The host address at which the next record of a ring is written (R262). -/
def State.recordAddr (s : State) (n : Nat) : Nat :=
  (s.reg (Reg.HQ_CQ_BASE n)).toNat + (if s.isV1 n then 16 else 32) * (s.ring n).cqTail

/-- The record that reports a job now (R278, R292). -/
def State.recordNow (s : State) (j : Job) (st : Status) : List Byte :=
  recordBytes (s.isV1 j.ring) j st (s.ring j.ring).sqHead s.deviceTime j.epoch (s.ring j.ring).phase

/-- A ring after one more completion record (R262). -/
def State.ringRecorded (s : State) (n : Nat) : Ring :=
  let r := s.ring n
  let tail := (r.cqTail + 1) % s.ringSize n
  { r with cqTail := tail, cqUsed := r.cqUsed + 1, phase := if tail = 0 then !r.phase else r.phase
           lastRecord := s.ticks, noticed := false }

/-- A record written and counted (R262, R293). -/
def State.recorded (s : State) (j : Job) (st : Status) : State :=
  ((s.putHost (s.recordAddr j.ring) (s.recordNow j st)).setRing j.ring (s.ringRecorded j.ring)).count (Reg.HQ_JOBS j.ring) 1

/-- The record of a job that has started is written and counted; LOST is counted too, and a notice may follow (R262, R287). -/
theorem State.writeRecord_cases (s : State) {j : Job} (hj : j.num ≠ 0) (st : Status) :
    ∃ u, (u = s.recorded j st ∨ u = (s.recorded j st).count Reg.GLB_LOST 1) ∧
      (s.writeRecord j st = u ∨ s.writeRecord j st = u.sendMsix j.ring) := by
  have hnotice : ∀ (p : Prop) [Decidable p] (u : State), (if p then u.sendMsix j.ring else u) = u ∨
      (if p then u.sendMsix j.ring else u) = u.sendMsix j.ring := fun p _ u => (ite_eq_or_eq p _ _).symm
  refine ⟨if st = .lost then (s.recorded j st).count Reg.GLB_LOST 1 else s.recorded j st, (ite_eq_or_eq _ _ _).symm, ?_⟩
  simp only [State.writeRecord, State.recordEpoch, if_neg hj]
  exact hnotice _ _

/-- What a function of the state that sees neither registers, vectors nor output finds after a record. -/
theorem State.writeRecord_keeps {α : Type} (f : State → α) (s : State) {j : Job} (hj : j.num ≠ 0) (st : Status)
    (h1 : ∀ s off v, f (State.setReg s off v) = f s) (h2 : ∀ s v x, f (State.setVector s v x) = f s)
    (h3 : ∀ s o, f (State.emit s o) = f s) :
    f (s.writeRecord j st) = f ((s.putHost (s.recordAddr j.ring) (s.recordNow j st)).setRing j.ring (s.ringRecorded j.ring)) := by
  have hrec : f (s.recorded j st) = f ((s.putHost (s.recordAddr j.ring) (s.recordNow j st)).setRing j.ring
    (s.ringRecorded j.ring)) := h1 _ _ _
  obtain ⟨u, hu, hw⟩ := s.writeRecord_cases hj st
  have hfu : f u = f (s.recorded j st) := by
    rcases hu with rfl | rfl
    · rfl
    · exact h1 _ _ _
  rw [← hrec, ← hfu]
  rcases hw with hw | hw
  · rw [hw]
  · rw [hw, State.sendMsix_keeps f _ _ h2 h3]

/-- A record is counted once (R293). -/
theorem State.writeRecord_jobs {s : State} (h : Sparse.rising s.regs = true) {j : Job} (hj : j.num ≠ 0) (st : Status) :
    (s.writeRecord j st).reg (Reg.HQ_JOBS j.ring) = s.reg (Reg.HQ_JOBS j.ring) + 1 := by
  have hlost : Reg.HQ_JOBS j.ring ≠ Reg.GLB_LOST := by unfold Reg.HQ_JOBS ringReg Reg.GLB_LOST; omega
  have hrec : (s.recorded j st).reg (Reg.HQ_JOBS j.ring) = s.reg (Reg.HQ_JOBS j.ring) + 1 := by
    rw [State.recorded, State.reg_count (by simpa using h), if_pos rfl]
    simp [State.reg]
  obtain ⟨u, hu, hw⟩ := s.writeRecord_cases hj st
  have hru : u.reg (Reg.HQ_JOBS j.ring) = (s.recorded j st).reg (Reg.HQ_JOBS j.ring) := by
    rcases hu with rfl | rfl
    · rfl
    · rw [State.reg_count (s := s.recorded j st) (State.rising_count h _ _), if_neg hlost]
  rw [← hrec, ← hru]
  rcases hw with hw | hw
  · rw [hw]
  · rw [hw, State.sendMsix_keeps (State.reg · _) _ _ (fun _ _ _ => rfl) fun _ _ => rfl]

/-! ### A report -/

theorem State.settle_of_not_aborting {s : State} {n : Nat} (h : (s.ring n).aborting = false) : s.settle n = s := by
  simp [State.settle, h]

/-- A core that a reported job has left (R281). -/
def Core.freed (k : Core) : Core := { k.halt with job := 0 }

/-- What a report has done to the device before the clusters note that they idle: its windows are closed, its page requests
dropped, its record written, its cores free. -/
def State.released (s : State) (j : Job) (st : Status) : State :=
  (s.coresOf j).foldl (fun s c => s.modCore c Core.freed) (((s.closeWindows j.num).dropPages j.num).writeRecord j st)

theorem State.released_keeps {α : Type} (f : State → α) (hf : ∀ s c k, f (State.setCore s c k) = f s) (s : State) (j : Job)
    (st : Status) : f (s.released j st) = f (((s.closeWindows j.num).dropPages j.num).writeRecord j st) :=
  foldl_keeps f _ (fun u c => hf u c _) _ _

/-- The device after that, the job forgotten and its clusters idling. -/
def State.relieved (s : State) (j : Job) (st : Status) : State :=
  State.idleClusters { s.released j st with
    jobs := (s.released j st).jobs.filter fun k => !decide (k.ring = j.ring ∧ k.idx = j.idx)
    requests := (s.released j st).requests.filter fun r => !decide (r.job = j.num ∧ j.num ≠ 0) } (s.coresOf j)

/-- A state without what a report changes beside host memory and its ring: registers, vectors, output and cores. -/
def State.unreported (s : State) : State := { s with regs := [], vectors := [], out := [], cores := [] }

theorem State.unreported_released (s : State) {j : Job} (hj : j.num ≠ 0) (st : Status) :
    (s.released j st).unreported = ((((s.closeWindows j.num).dropPages j.num).putHost (s.recordAddr j.ring)
      (s.recordNow j st)).setRing j.ring (s.ringRecorded j.ring)).unreported :=
  (s.released_keeps State.unreported (fun _ _ _ => rfl) j st).trans
    (State.writeRecord_keeps State.unreported _ hj st (fun _ _ _ => rfl) (fun _ _ _ => rfl) fun _ _ => rfl)

/-- What a function of the state that sees none of that finds. -/
theorem State.released_rest {α : Type} (f : State → α) (hf : ∀ u : State, f u.unreported = f u) (s : State) {j : Job}
    (hj : j.num ≠ 0) (st : Status) : f (s.released j st) = f ((((s.closeWindows j.num).dropPages j.num).putHost
      (s.recordAddr j.ring) (s.recordNow j st)).setRing j.ring (s.ringRecorded j.ring)) := by
  rw [← hf, State.unreported_released s hj st, hf]

theorem State.released_ring {s : State} (h : Sparse.rising s.rings = true) {j : Job} (hj : j.num ≠ 0) (st : Status) :
    (s.released j st).ring j.ring = s.ringRecorded j.ring := by
  have hrings : (s.released j st).rings = (s.setRing j.ring (s.ringRecorded j.ring)).rings :=
    State.released_rest State.rings (fun _ => rfl) s hj st
  rw [State.ring, hrings]
  exact (State.ring_setRing h _ _ _).trans (if_pos rfl)

/-- A report of a job that no other device knows, on a ring that is not aborting. -/
theorem State.report_eq {s : State} {j : Job} (st : Status) (h : Sparse.rising s.rings = true) (hj : j.num ≠ 0)
    (habort : (s.ring j.ring).aborting = false) (hsync : j.syncDevs = []) :
    s.report j st = { s.relieved j st with power := (s.report j st).power } := by
  have hstays : ((s.relieved j st).ring j.ring).aborting = false :=
    (congrArg Ring.aborting (State.released_ring h hj st)).trans habort
  have hreport : s.report j st = if ((s.relieved j st).settle j.ring).jobs = [] then
      { (s.relieved j st).settle j.ring with
        power := { ((s.relieved j st).settle j.ring).power with idleFrom := ((s.relieved j st).settle j.ring).ticks } }
      else (s.relieved j st).settle j.ring := by
    unfold State.report
    rw [hsync]
    rfl
  rw [State.settle_of_not_aborting hstays] at hreport
  rw [hreport]
  split <;> rfl

/-- What a function of the state that sees neither jobs, requests nor power finds after a report. -/
theorem State.report_keeps {α : Type} (f : State → α)
    (hf : ∀ (u : State) l q p, f { u with jobs := l, requests := q, power := p } = f u) {s : State} {j : Job} {st : Status}
    (hrep : s.report j st = { s.relieved j st with power := (s.report j st).power }) :
    f (s.report j st) = f (s.released j st) := by
  rw [hrep]
  exact hf (s.released j st) _ _ _

/-! ### A report after what comes before it -/

namespace Prepared

variable {s u : State}

theorem jobs (h : Prepared s u) : u.jobs = s.jobs := (congrArg State.jobs h.rest :)
theorem rings (h : Prepared s u) : u.rings = s.rings := (congrArg State.rings h.rest :)
theorem host (h : Prepared s u) : u.host = s.host := (congrArg State.host h.rest :)
theorem windows (h : Prepared s u) : u.windows = s.windows := (congrArg State.windows h.rest :)
theorem shared (h : Prepared s u) : u.shared = s.shared := (congrArg State.shared h.rest :)
theorem stacked (h : Prepared s u) : u.stacked = s.stacked := (congrArg State.stacked h.rest :)
theorem ticks (h : Prepared s u) : u.ticks = s.ticks := (congrArg State.ticks h.rest :)
theorem deviceTime (h : Prepared s u) : u.deviceTime = s.deviceTime := (congrArg State.deviceTime h.rest :)
theorem ring (h : Prepared s u) (n : Nat) : u.ring n = s.ring n := (congrArg (State.ring · n) h.rest :)

theorem ringReg (h : Prepared s u) (hr : Sparse.rising s.regs = true) (n : Nat) {o : Nat} (ho : o < 0x40 ∨ 0x48 < o)
    (ho' : o < 0x100) : u.reg (ringReg n o) = s.reg (ringReg n o) := (h.regs hr).2 _ (ringReg_not_endReg n ho ho')

theorem coresOf (h : Prepared s u) (hc : Sparse.rising s.cores = true) (j : Job) : u.coresOf j = s.coresOf j := by
  simp only [State.coresOf, (h.cores hc).2]

theorem sqCtrl (h : Prepared s u) (hr : Sparse.rising s.regs = true) (n lo len : Nat) :
    u.fld (Reg.HQ_SQ_CTRL n) lo len = s.fld (Reg.HQ_SQ_CTRL n) lo len :=
  congrArg (bits · lo len) (h.ringReg hr n (.inl (by decide)) (by decide))

theorem cqBase (h : Prepared s u) (hr : Sparse.rising s.regs = true) (n : Nat) :
    u.reg (Reg.HQ_CQ_BASE n) = s.reg (Reg.HQ_CQ_BASE n) := h.ringReg hr n (.inl (by decide)) (by decide)

theorem isV1 (h : Prepared s u) (hr : Sparse.rising s.regs = true) (n : Nat) : u.isV1 n = s.isV1 n := by
  rw [State.isV1, h.sqCtrl hr, State.isV1]

theorem recordAddr (h : Prepared s u) (hr : Sparse.rising s.regs = true) (n : Nat) : u.recordAddr n = s.recordAddr n := by
  simp only [State.recordAddr, h.isV1 hr, h.cqBase hr, h.ring]

theorem recordNow (h : Prepared s u) (hr : Sparse.rising s.regs = true) (j : Job) (st : Status) :
    u.recordNow j st = s.recordNow j st := by
  simp only [State.recordNow, h.isV1 hr, h.ring, h.deviceTime]

theorem ringRecorded (h : Prepared s u) (hr : Sparse.rising s.regs = true) (n : Nat) : u.ringRecorded n = s.ringRecorded n := by
  rw [State.ringRecorded, State.ringSize, h.sqCtrl hr, h.ring, h.ticks, State.ringRecorded, State.ringSize]

end Prepared

/-- Between s and t, job j has been reported with a status: its record stands at the tail of its completion ring, which has moved
on and counted it, its windows are closed, and it is forgotten (R246, R262, R278, R281). -/
structure Reports (s t : State) (j : Job) (st : Status) : Prop where
  record : t.getHost (s.recordAddr j.ring) (s.recordNow j st).length = s.recordNow j st
  host : ∀ a, a < s.recordAddr j.ring ∨ s.recordAddr j.ring + (s.recordNow j st).length ≤ a → t.cell (.host a) = s.cell (.host a)
  ring : t.ring j.ring = s.ringRecorded j.ring
  count : t.reg (Reg.HQ_JOBS j.ring) = s.reg (Reg.HQ_JOBS j.ring) + 1
  jobs : t.jobs = s.jobs.filter fun k => !decide (k.ring = j.ring ∧ k.idx = j.idx)
  windows : t.windows = s.windows.filter fun w => w.2.job ≠ j.num
  shared : t.shared = s.shared
  stacked : t.stacked = s.stacked

theorem State.released_reg {s : State} (h : Sparse.rising s.regs = true) {j : Job} (hj : j.num ≠ 0) (st : Status) :
    (s.released j st).reg (Reg.HQ_JOBS j.ring) = s.reg (Reg.HQ_JOBS j.ring) + 1 :=
  (s.released_keeps (State.reg · (Reg.HQ_JOBS j.ring)) (fun _ _ _ => rfl) j st).trans
    (State.writeRecord_jobs (s := (s.closeWindows j.num).dropPages j.num) h hj st)

theorem State.released_core {s : State} (h : Sparse.rising s.cores = true) {j : Job} (hj : j.num ≠ 0) (st : Status) (c : Nat) :
    (s.released j st).core c = if c ∈ s.coresOf j then (s.core c).freed else s.core c := by
  have hcores : (((s.closeWindows j.num).dropPages j.num).writeRecord j st).cores = s.cores := by
    rw [State.writeRecord_keeps State.cores _ hj st (fun _ _ _ => rfl) (fun _ _ _ => rfl) fun _ _ => rfl]
    simp
  have hfold := State.core_foldl (step := fun s c => s.modCore c Core.freed) (f := Core.freed) (fun _ => rfl)
    (fun u c hu => ⟨State.rising_modCore hu c _, fun d => by
      rw [State.core_modCore hu]
      split
      · next hd => rw [hd]
      · rfl⟩) (s.coresOf j) (s := ((s.closeWindows j.num).dropPages j.num).writeRecord j st) (by rw [hcores]; exact h) c
  rw [show (((s.closeWindows j.num).dropPages j.num).writeRecord j st).core c = s.core c from
    congrArg (Sparse.get Core.reset · c) hcores] at hfold
  exact hfold

/-- What the report of a job does to the device, to the counters and the cores (R246, R262, R278, R281). -/
theorem State.report_spec {s : State} {j : Job} (st : Status) (hcores : Sparse.rising s.cores = true)
    (hregs : Sparse.rising s.regs = true) (hrings : Sparse.rising s.rings = true) (hhost : Sparse.rising s.host = true)
    (hj : j.num ≠ 0) (habort : (s.ring j.ring).aborting = false) (hsync : j.syncDevs = []) :
    Reports s (s.report j st) j st ∧ (s.report j st).sync = s.sync ∧ (s.report j st).expo = s.expo ∧
      ∀ c, (s.report j st).core c = if c ∈ s.coresOf j then (s.core c).freed else s.core c := by
  have hrep := State.report_eq st hrings hj habort hsync
  have hrest : ∀ {α : Type} (f : State → α), (∀ u : State, f u.unreported = f u) → f (s.released j st) = _ :=
    fun f hf => State.released_rest f hf s hj st
  have hkeeps : ∀ {α : Type} (f : State → α),
      (∀ (u : State) l q p, f { u with jobs := l, requests := q, power := p } = f u) →
        f (s.report j st) = f (s.released j st) := fun f hf => State.report_keeps f hf hrep
  have hto : (s.report j st).host = Sparse.setList 0 s.host (s.recordAddr j.ring) (s.recordNow j st) :=
    by rw [hkeeps State.host fun _ _ _ _ => rfl, hrest State.host fun _ => rfl]; simp [State.putHost]
  have hjobs : (s.released j st).jobs = s.jobs := by
    rw [hrest State.jobs fun _ => rfl]; simp
  refine ⟨{ record := ?record, host := fun a ha => ?host, ring := ?ring, count := ?count, jobs := ?jobs, windows := ?windows
            shared := ?shared, stacked := ?stacked }, ?sync, ?expo, fun c => ?core⟩
  case record => rw [State.getHost, hto, Sparse.getList_setList 0 _ _ hhost]
  case host => exact (congrArg (Sparse.get 0 · a) hto).trans (Sparse.get_setList_outside 0 _ _ hhost ha)
  case ring => exact (hkeeps (State.ring · j.ring) fun _ _ _ _ => rfl).trans (State.released_ring hrings hj st)
  case count => exact (hkeeps (State.reg · _) fun _ _ _ _ => rfl).trans (State.released_reg hregs hj st)
  case jobs => rw [hrep, ← hjobs]; rfl
  case windows => rw [hkeeps State.windows fun _ _ _ _ => rfl, hrest State.windows fun _ => rfl]; simp [State.closeWindows]
  case shared => rw [hkeeps State.shared fun _ _ _ _ => rfl, hrest State.shared fun _ => rfl]; simp
  case stacked => rw [hkeeps State.stacked fun _ _ _ _ => rfl, hrest State.stacked fun _ => rfl]; simp
  case sync => rw [hkeeps State.sync fun _ _ _ _ => rfl, hrest State.sync fun _ => rfl]; simp
  case expo => rw [hkeeps State.expo fun _ _ _ _ => rfl, hrest State.expo fun _ => rfl]; simp
  case core => exact (hkeeps (State.core · c) fun _ _ _ _ => rfl).trans (State.released_core hcores hj st c)

/-- What the report of a job does, told of the state before all that its end has changed before. -/
theorem Prepared.report {s u : State} (hp : Prepared s u) (hm : s.Maps) {j : Job} (st : Status) (hj : j.num ≠ 0)
    (habort : (s.ring j.ring).aborting = false) (hsync : j.syncDevs = []) :
    Reports s (u.report j st) j st ∧ (u.report j st).sync = u.sync ∧ (u.report j st).expo = u.expo ∧
      ∀ c, (u.report j st).core c = if c ∈ s.coresOf j then (u.core c).freed else u.core c := by
  obtain ⟨hreports, hrest⟩ := State.report_spec st (hp.cores hm.cores).1 (hp.regs hm.regs).1 (by rw [hp.rings]; exact hm.rings)
    (by rw [hp.host]; exact hm.host) hj (by rw [hp.ring]; exact habort) hsync
  rw [hp.coresOf hm.cores] at hrest
  obtain ⟨hrecord, hhost, hring, hcount, hjobs, hwindows, hshared, hstacked⟩ := hreports
  rw [hp.recordAddr hm.regs, hp.recordNow hm.regs] at hrecord hhost
  have hcell : ∀ a, u.cell (.host a) = s.cell (.host a) := fun a => by simp only [State.cell, hp.host]
  exact ⟨⟨hrecord, fun a ha => (hhost a ha).trans (hcell a), hring.trans (hp.ringRecorded hm.regs _),
    hcount.trans (congrArg (· + 1) (hp.ringReg hm.regs _ (.inr (by decide)) (by decide))), by rw [hjobs, hp.jobs],
    by rw [hwindows, hp.windows], hshared.trans hp.shared, hstacked.trans hp.stacked⟩, hrest⟩

/-! ### JOB_COMPLETE -/

/-- JOB_COMPLETE of a job that has a status and has come to rest. -/
theorem State.complete_of_status {s : State} {num : Nat} {j : Job} {st : Status} (hfind : s.findJob num = some j)
    (hst : j.status = some st) (hsettled : s.settled j = true) (habort : (s.ring j.ring).aborting = false)
    (hdrained : s.drained j = true) (hchecks : ∀ c ∈ s.coresOf j, (s.core c).check = none) :
    s.complete num = s.reportEnded j st := by
  have hnamed : s.named num = some j := by rw [State.named, if_neg (State.mem_of_findJob hfind).2, hfind]
  have hall : ((s.coresOf j).all fun c => (s.core c).check.isNone) = true :=
    List.all_eq_true.mpr fun c hc => by rw [hchecks c hc]; rfl
  simp [State.complete, hnamed, habort, hsettled, hst, hdrained, hall]

/-- JOB_COMPLETE of a job that has completed every command. -/
theorem State.complete_of_finished {s : State} {num : Nat} {j : Job} (hfind : s.findJob num = some j) (hst : j.status = none)
    (hsettled : s.settled j = true) (habort : (s.ring j.ring).aborting = false) (hfinished : s.finished j = true) :
    s.complete num = s.reportOk num := by
  have hnamed : s.named num = some j := by rw [State.named, if_neg (State.mem_of_findJob hfind).2, hfind]
  simp [State.complete, hnamed, habort, hsettled, hst, hfinished]

theorem State.finished_status {s : State} {j : Job} (h : s.finished j = true) : j.status = none := by
  simp only [State.finished, Bool.and_eq_true, Option.isNone_iff_eq_none] at h
  obtain ⟨⟨⟨-, hst⟩, -⟩, -⟩ := h
  exact hst

theorem State.finished_core {s : State} {j : Job} (h : s.finished j = true) {c : Nat} (hc : c ∈ j.cores) :
    (s.core c).job = j.num := by
  simp only [State.finished, Bool.and_eq_true, List.all_eq_true, decide_eq_true_eq] at h
  obtain ⟨-, hcores⟩ := h
  obtain ⟨⟨⟨hjob, -⟩, -⟩, -⟩ := hcores c hc
  exact hjob

/-- What a function of the state that sees neither cores nor registers finds after the discard of a job's pairs. -/
theorem State.discardJob_keeps {α : Type} (f : State → α) (h1 : ∀ s c k, f (State.setCore s c k) = f s)
    (h2 : ∀ s off k, f (State.count s off k) = f s) (s : State) (j : Job) : f (s.discardJob j) = f s := by
  rw [State.discardJob_eq]
  refine (foldl_keeps f _ (fun u e => ?_) _ _).trans (foldl_keeps f _ (fun u c => ?_) _ _)
  · exact h2 _ _ _
  · exact (h2 _ _ _).trans (h1 _ _ _)

/-- What a function of the state that sees no exposure slot finds after their update. -/
theorem State.updateSlots_keeps {α : Type} (f : State → α) (hf : ∀ s n e, f (State.setExpoSlot s n e) = f s) (s : State)
    (j : Job) : f (s.updateSlots j) = f s := by
  refine foldl_keeps f _ (fun u z => ?_) _ _
  split
  · exact hf _ _ _
  · rfl

/-- The update of a job's slots is about nothing but the slots before and after, and the time. -/
theorem slotsUpdated_of_expo {s s' t t' : State} {j : Job} (h : slotsUpdated s t j) (hs : s.expo = s'.expo)
    (ht : t'.expo = t.expo) (hd : s.deviceTime = s'.deviceTime) : slotsUpdated s' t' j := by
  simpa only [slotsUpdated, State.expoSlot, hs, ht, hd] using h

theorem State.ordered.expo {s : State} (h : s.ordered) : Sparse.rising s.expo = true := by
  obtain ⟨-, -, -, -, -, -, -, -, -, hexpo, -⟩ := h
  exact hexpo

theorem State.ordered.sync {s : State} (h : s.ordered) : Sparse.rising s.sync = true := by
  obtain ⟨-, -, -, -, -, -, -, -, hsync, -⟩ := h
  exact hsync

theorem Core.ordered.dirty {k : Core} (h : k.ordered) : Sparse.rising k.dirty = true := by
  obtain ⟨-, -, -, -, -, -, hdirty, -⟩ := h
  exact hdirty

/-! ### A job that ended with a status -/

/-- The device before the report of a job with a status: its dirty pairs are dropped, and its slots updated if it has not failed
(R117, R203). -/
def State.endedWith (s : State) (j : Job) (st : Status) : State :=
  if st.failed then s.discardJob j else (s.discardJob j).updateSlots j

theorem State.endedWith_keeps {α : Type} (f : State → α) (hf : ∀ s n e, f (State.setExpoSlot s n e) = f s) (s : State) (j : Job)
    (st : Status) : f (s.endedWith j st) = f (s.discardJob j) := by
  unfold State.endedWith
  split
  · rfl
  · exact State.updateSlots_keeps f hf _ j

theorem Prepared.endedWith (s : State) (j : Job) (st : Status) : Prepared s (s.endedWith j st) := by
  unfold State.endedWith
  split
  · exact .discardJob s j
  · exact (Prepared.discardJob s j).trans (.updateSlots _ j)

theorem State.slotsUpdated_endedWith {s : State} (h : Sparse.rising s.expo = true) {j : Job} {st : Status}
    (hst : st.failed = false) (hj : (j.frozen.map (·.slot)).Nodup) : slotsUpdated s (s.endedWith j st) j := by
  have hexpo : (s.discardJob j).expo = s.expo := State.discardJob_keeps State.expo (fun _ _ _ => rfl) (fun _ _ _ => rfl) s j
  have hslots := State.slotsUpdated_updateSlots (s := s.discardJob j) (by rw [hexpo]; exact h) hj
  refine slotsUpdated_of_expo hslots hexpo ?_ (Prepared.discardJob s j).deviceTime
  simp [State.endedWith, hst]

/-- A job with a status: its pairs are dropped, and its report follows. -/
theorem endedJobIsReported : EndedJobIsReported := by
  intro s job j st hord _ hfind hst hsettled habort hsync hdrained hchecks
  have hm := hord.maps
  have hj : j.num ≠ 0 := by
    obtain ⟨hnum, hne⟩ := State.mem_of_findJob hfind
    rwa [hnum]
  obtain ⟨hreports, htsync, htexpo, htcore⟩ := (Prepared.endedWith s j st).report hm st hj habort hsync
  obtain ⟨hrecord, hhost, hring, hcount, hjobs, hwindows, hshared, hstacked⟩ := hreports
  have hcore : ∀ c, ((s.endedWith j st).report j st).core c =
      if c ∈ s.coresOf j then ((s.core c).undirtied j.num).freed else s.core c := fun c => by
    rw [htcore, State.endedWith_keeps (State.core · c) (fun _ _ _ => rfl), State.core_discardJob hm.cores]
    split <;> rfl
  have hcomplete : s.complete job.toNat = (s.endedWith j st).report j st :=
    State.complete_of_status hfind hst hsettled habort hdrained hchecks
  refine ⟨_, congrArg Host.Outcome.next hcomplete, hrecord, hhost,
    congrArg Ring.cqTail hring, congrArg Ring.cqUsed hring, congrArg Ring.phase hring, hcount, hjobs, fun c => ?core,
    fun c hc p => ?holders, hwindows, hshared, hstacked, ?sync, fun hfailed => ?expo, fun hnot hslots => ?slots⟩
  case core =>
    rw [hcore]
    split <;> rfl
  case holders =>
    rw [hcore, if_pos hc]
    exact Core.holders_undirtied (hm.core c).dirty j.num p
  case sync =>
    refine htsync.trans ((State.endedWith_keeps State.sync (fun _ _ _ => rfl) s j st).trans ?_)
    exact State.discardJob_keeps State.sync (fun _ _ _ => rfl) (fun _ _ _ => rfl) s j
  case expo =>
    refine htexpo.trans ?_
    rw [State.endedWith, if_pos hfailed]
    exact State.discardJob_keeps State.expo (fun _ _ _ => rfl) (fun _ _ _ => rfl) s j
  case slots => exact slotsUpdated_of_expo (State.slotsUpdated_endedWith hord.expo hnot hslots) rfl htexpo rfl

/-! ### A job that has completed its lists -/

/-- The device before the report of a completed job: its last commit points made, its slots updated, its done counter raised
(R68, R117, R281). -/
def State.endedOk (s : State) (j : Job) : State :=
  let s := (s.commitAll j).updateSlots j
  if j.desc.doneEn then s.ctrOp .add j.desc.doneCtr 1 0 else s

section

variable {s : State} {j : Job} (hord : s.ordered) (hfind : s.findJob j.num = some j) (hj : j.replayable = false)
  (hgroup : ∀ c ∈ j.cores, (s.core c).group = none)

include hord hfind hj hgroup

theorem Prepared.commitAll : Prepared s (s.commitAll j) := by
  rw [State.commitAll_eq hord.maps.cores hfind hj hgroup]
  exact .foldl _ (fun u c => .commit u c _ _) _ s

theorem State.core_commitAll (c : Nat) :
    (s.commitAll j).core c = if c ∈ j.cores then (s.core c).committed j.num else s.core c := by
  rw [State.commitAll_eq hord.maps.cores hfind hj hgroup]
  exact State.core_foldl (f := fun k => k.committed j.num) (fun k => k.committed_committed j.num)
    (fun u c hu => ⟨((Prepared.commit u c j.num fun _ => true).cores hu).1, State.core_commit hu c j.num⟩) _ hord.maps.cores c

theorem State.commitAll_keeps {α : Type} (f : State → α) (h1 : ∀ s c k, f (State.setCore s c k) = f s)
    (h2 : ∀ s off k, f (State.count s off k) = f s) : f (s.commitAll j) = f s := by
  rw [State.commitAll_eq hord.maps.cores hfind hj hgroup]
  exact foldl_keeps f _ (fun u c => (h2 _ _ _).trans (h1 _ _ _)) _ _

theorem Prepared.endedOk : Prepared s (s.endedOk j) := by
  have hslots := (Prepared.commitAll hord hfind hj hgroup).trans (.updateSlots _ j)
  unfold State.endedOk
  split
  · exact hslots.trans (.ctrOp _ _ _ _ _)
  · exact hslots

/-- A job that has completed its lists is reported OK after that. -/
theorem State.reportOk_eq : s.reportOk j.num = (s.endedOk j).report j .ok := by
  have hstays : (s.commitAll j).findJob j.num = some j := by
    rw [State.commitAll_keeps hord hfind hj hgroup (State.findJob · j.num) (fun _ _ _ => rfl) fun _ _ _ => rfl, hfind]
  simp only [State.reportOk, hfind, hstays, Option.getD_some]
  rfl

theorem State.core_endedOk {c : Nat} (hc : c ∈ j.cores) (hwait : (s.core c).waitOn = none) :
    (s.endedOk j).core c = (s.core c).committed j.num := by
  have hslots : ((s.commitAll j).updateSlots j).core c = (s.core c).committed j.num := by
    rw [State.updateSlots_keeps (State.core · c) (fun _ _ _ => rfl), State.core_commitAll hord hfind hj hgroup, if_pos hc]
  have hrising := ((Prepared.commitAll hord hfind hj hgroup).trans (.updateSlots _ j)).cores hord.maps.cores
  unfold State.endedOk
  split
  · refine (State.core_setCtr hrising.1 _ _ c).trans ?_
    rw [hslots]
    exact Core.wake_of_not_waiting (k := (s.core c).committed j.num) hwait _ _
  · exact hslots

theorem State.ctr_endedOk (m : Nat) :
    (s.endedOk j).ctr m = if j.desc.doneEn = true ∧ m = j.desc.doneCtr then s.ctr m + 1 else s.ctr m := by
  have hsync : ((s.commitAll j).updateSlots j).sync = s.sync := by
    rw [State.updateSlots_keeps State.sync fun _ _ _ => rfl,
      State.commitAll_keeps hord hfind hj hgroup State.sync (fun _ _ _ => rfl) fun _ _ _ => rfl]
  have hctr : ∀ n, ((s.commitAll j).updateSlots j).ctr n = s.ctr n := fun n => congrArg (Sparse.get 0 · n) hsync
  unfold State.endedOk
  by_cases hdone : j.desc.doneEn = true
  · rw [if_pos hdone]
    refine (State.ctr_set (by rw [hsync]; exact hord.sync) j.desc.doneCtr _ m).trans ?_
    by_cases hm : m = j.desc.doneCtr
    · rw [if_pos hm, if_pos ⟨hdone, hm⟩, hm, hctr]; rfl
    · rw [if_neg hm, if_neg fun h => hm h.2, hctr]
  · rw [if_neg hdone, if_neg fun h => hdone h.1, hctr]

theorem State.slotsUpdated_endedOk (hslots : (j.frozen.map (·.slot)).Nodup) : slotsUpdated s (s.endedOk j) j := by
  have hexpo : (s.commitAll j).expo = s.expo :=
    State.commitAll_keeps hord hfind hj hgroup State.expo (fun _ _ _ => rfl) fun _ _ _ => rfl
  have hupdated := State.slotsUpdated_updateSlots (s := s.commitAll j) (by rw [hexpo]; exact hord.expo) hslots
  refine slotsUpdated_of_expo hupdated hexpo ?_ (Prepared.commitAll hord hfind hj hgroup).deviceTime
  unfold State.endedOk
  split <;> rfl

end

/-- A job that has completed its lists: its last commits, its slots and its done counter, then its report. -/
theorem finishedJobIsReportedOk : FinishedJobIsReportedOk := by
  intro s job j hord hfind hj hslots hsettled hfinished habort hsync _ hcores
  have hm := hord.maps
  obtain ⟨hnum, hne⟩ := State.mem_of_findJob hfind
  rw [← hnum] at hfind hne
  have hgroup : ∀ c ∈ j.cores, (s.core c).group = none := fun c hc => (hcores c hc).1
  have hcomplete : s.complete job.toNat = (s.endedOk j).report j .ok := by
    rw [← hnum, State.complete_of_finished hfind (State.finished_status hfinished) hsettled habort hfinished,
      State.reportOk_eq hord hfind hj hgroup]
  obtain ⟨hreports, htsync, htexpo, htcore⟩ := (Prepared.endedOk hord hfind hj hgroup).report hm .ok hne habort hsync
  have hcore : ∀ c ∈ j.cores, ((s.endedOk j).report j .ok).core c = ((s.core c).committed j.num).freed := fun c hc => by
    have hheld : c ∈ s.coresOf j := List.mem_filter.mpr ⟨hc, decide_eq_true ⟨State.finished_core hfinished hc, hne⟩⟩
    rw [htcore, if_pos hheld, State.core_endedOk hord hfind hj hgroup hc (hcores c hc).2]
  refine ⟨_, congrArg Host.Outcome.next hcomplete, hreports.record, hreports.jobs, fun m => ?ctr, fun c hc => ?core, ?slots,
    hreports.count⟩
  case ctr => exact (congrArg (Sparse.get 0 · m) htsync).trans (State.ctr_endedOk hord hfind hj hgroup m)
  case core =>
    rw [hcore c hc]
    exact ⟨rfl, rfl, fun p hp => Core.live_committed (hm.core c).dirty j.num hp, fun q => rfl⟩
  case slots => exact slotsUpdated_of_expo (State.slotsUpdated_endedOk hord hfind hj hgroup hslots) rfl htexpo rfl

end Sys2Proof.Machine

open Sys2Proof Sys2Proof.Machine Sys2Proof.Certificates.Slice0

/-- Settles O24: what comes before a report changes nothing that the report reads, and the report writes one record. -/
theorem endedJobsAreReported : Obligations.EndedJobsAreReported := ⟨endedJobIsReported, finishedJobIsReportedOk⟩

end

section
namespace Sys2Proof.Machine

open Sys2Proof.Certificates.Slice0

/-! ### What a command leaves, checked -/

/-- Whether a next state passes a check. -/
def Answer.leaves (check : State → Bool) : Answer → Bool
  | .next t => check t
  | _ => true

theorem Answer.leaves_next {check : State → Bool} {a : Answer} {t : State} (hleaves : a.leaves check = true) (h : a = .next t) :
    check t = true := by rwa [h] at hleaves

/-! ### A ring whose limits its job's own commands move

The lower limit of core memory of a ring of number 0xEFF8 stands at the register offset at which core 0 counts its issued commands.
A fetched job's ring is one of the 32 (R255), but no hypothesis of the statement says so. -/

/-- Job 1 on a ring of number 0xEFF8. -/
def movingJob : Job := { soloJob with ring := 0xEFF8 }

/-- The device that runs that job on core 0; its ring may use core memory from byte 0 on. -/
def movingState : State := (soloState movingJob soloCore).setReg (Reg.HQ_LIM_END 0xEFF8 0) 524288

/-- REFEW ABS of one INT8 element, from byte 0 to byte 1 of core memory. -/
def oneAbs : RefewArgs := { refewOf 0 0 with op := 6, fmtA := 4, fmtO := 4, out := 1 }

/-- That REFEW as a command of core 0. -/
def oneAbsInstr : Instr := .refew 0 (hdrOf 0) oneAbs

theorem movingState_orderedBeside : movingState.orderedBeside := by
  unfold State.orderedBeside State.memOk State.sideOk Uarid.ordered State.shaped Port.shaped
  decide +kernel

theorem movingState_starts : Starts movingState movingJob 0 (hdrOf 0) oneAbsInstr where
  job := by decide +kernel
  clock := by decide +kernel
  idle := by decide +kernel
  free := by decide +kernel
  more := by decide +kernel
  turn := by decide +kernel
  fits := by decide +kernel
  banks := by decide +kernel
  free_ := by decide +kernel

theorem movingState_dataReady : DataReady movingState movingJob 0 (hdrOf 0) oneAbsInstr where
  toStarts := movingState_starts
  order := movingState_orderedBeside.ordered rfl rfl soloCore_ordered rfl
  sound := State.faultless_solo rfl ⟨rfl, rfl⟩ rfl rfl rfl rfl
  reach := by unfold opersReady; decide +kernel
  unchecked := by decide +kernel

/-- The command ends with a resource fault: once it is counted, byte 0 lies below the ring's lower limit. -/
theorem exec_movingState_faults {t : State} (h : exec oneAbsInstr movingState = .next t) :
    t.reg Reg.GLB_RES_FAULTS = 1 :=
  of_decide_eq_true (Answer.leaves_next (check := fun t => decide (t.reg Reg.GLB_RES_FAULTS = 1)) (by decide +kernel) h)

/-! ### An exposure record across the end of a page

The device of `strayState` again: the task's base of 8 moves a record that ends with a page 8 bytes into the next page, which lies in
another frame. -/

/-- The last slot of the first page of the task's stacked memory. -/
def strayExpo : ExpoArgs := { first := 0, count := 1, tag := 2, addr := BitVec.ofNat 64 (3 * 2 ^ 60 + (2 ^ 21 - 64)) }

/-- An EXPO SAVE of exposure slot 0 to there. -/
def straySave : Instr := .expoSave 0 (hdrOf 0) strayExpo

theorem strayState_save_dataReady : DataReady strayState soloJob 0 (hdrOf 0) straySave where
  toInTurn := strayState_starts.toInTurn
  turn := strayState_starts.turn
  fits := by decide +kernel
  banks := by decide +kernel
  free_ := by decide +kernel
  order := strayState_dataReady.order
  sound := strayState_dataReady.sound
  reach := by unfold opersReady; decide +kernel
  unchecked := strayState_dataReady.unchecked

/-- Byte 56 of the record, its version 1 (R120), stands at the first byte behind frame 0: the access translates the first byte of
its piece alone. -/
theorem exec_straySave_cell {t : State} (h : exec straySave strayState = .next t) : t.cell (.stacked (2 ^ 21)) = 1 :=
  of_decide_eq_true (Answer.leaves_next (check := fun t => decide (t.cell (.stacked (2 ^ 21)) = 1)) (by decide +kernel) h)

end Sys2Proof.Machine

open Sys2Proof Sys2Proof.Machine Sys2Proof.Certificates.Slice0

/-- Refutes O11: no hypothesis bounds the ring of the job. The lower CORE limit of a ring of number 0xEFF8 stands where core 0 counts
its issued commands, so the issue of a REFEW moves the limit behind byte 0 of its source, and the command ends with a resource fault
(R220, R257) where the statement has it complete. -/
theorem not_refewComputesElementwise : ¬ Obligations.RefewComputesElementwise := by
  intro h
  obtain ⟨t, hexec, -, -, -, -, hdone⟩ := h movingState movingJob 0 (hdrOf 0) oneAbs ⟨0, 0, 0⟩ ⟨0, 0, 0⟩ ⟨0, 0, 0⟩ ⟨0, 0, 1⟩ 0
    movingState_dataReady (by decide +kernel) (fun hb => absurd hb (by decide)) (fun hc => absurd hc (by decide))
    (by decide +kernel) (fun hop => absurd hop (by decide))
  obtain ⟨-, -, hregs, -⟩ := hdone
  have hfaults := hregs Reg.GLB_RES_FAULTS (by decide) (by decide)
  rw [exec_movingState_faults hexec] at hfaults
  exact absurd hfaults (by decide +kernel)

/-- Refutes O14: no hypothesis says that the bases of the task record are multiples of 64, as TASK would have them (R219). Behind a
base of 8 a saved record crosses the end of a page; the access writes on in the frame behind the first page's, where the statement
leaves every byte that the operand does not cover. -/
theorem not_expoSavesRestoresClears : ¬ Obligations.ExpoSavesRestoresClears := by
  intro h
  obtain ⟨-, hsave, -⟩ := h strayState soloJob 0 (hdrOf 0) strayExpo ⟨3, 0, 2 ^ 21 - 64⟩ (by decide +kernel)
    (by unfold State.journalRoom; decide +kernel)
  obtain ⟨t, hexec, -, honly, -⟩ := hsave strayState_save_dataReady (by decide +kernel)
  have hkept : t.cell (.stacked (2 ^ 21)) = strayState.cell (.stacked (2 ^ 21)) :=
    honly (.stacked (2 ^ 21)) (by decide +kernel) trivial
  rw [exec_straySave_cell hexec] at hkept
  exact absurd hkept (by decide +kernel)

end

section
namespace Sys2Proof.Machine

open Sys2Proof.Certificates.Slice0

/-! ### A vector that the parallax draw samples, on the ring whose limits move

The device of `movingState` again: its job's ring may use facet 0 besides, and parallax is on with a seed whose draw samples the one
vector of a FIRE. -/

/-- That device. -/
def movingSampledState : State :=
  ((movingState.setReg (Reg.HQ_SQ_FACETS 0xEFF8) 1).setReg Reg.PLX_CTRL 1).setReg Reg.PLX_SEED 1

/-- The FIRE of one vector from slot 0 as a command of core 0, without its commit flag. -/
def sampledFire : Instr := .fire 0 (hdrOf 0) oneFire

theorem movingSampledState_orderedBeside : movingSampledState.orderedBeside := by
  unfold State.orderedBeside State.memOk State.sideOk Uarid.ordered State.shaped Port.shaped
  decide +kernel

theorem movingSampledState_starts : Starts movingSampledState movingJob 0 (hdrOf 0) sampledFire where
  job := by decide +kernel
  clock := by decide +kernel
  idle := by decide +kernel
  free := by decide +kernel
  more := by decide +kernel
  turn := by decide +kernel
  fits := by decide +kernel
  banks := by decide +kernel
  free_ := by decide +kernel

theorem movingSampledState_rowsReady : RowsReady movingSampledState movingJob 0 (hdrOf 0) sampledFire [0] where
  toStarts := movingSampledState_starts
  order := movingSampledState_orderedBeside.ordered rfl rfl soloCore_ordered rfl
  sound := State.faultless_solo rfl ⟨rfl, rfl⟩ rfl rfl rfl rfl
  reach := by unfold opersReady; decide +kernel
  unchecked := by decide +kernel
  range := by decide +kernel
  room := fun hj => absurd hj (by decide)

/-- The draw samples vector 0, which no replay has to check (R144). -/
theorem movingSampledState_sampled :
    movingSampledState.mustCheck (headCx movingSampledState movingJob 0 (hdrOf 0) sampledFire) = none ∧
      (headCx movingSampledState movingJob 0 (hdrOf 0) sampledFire).sampled 1 = some 0 := by decide +kernel

/-- The FIRE ends with a resource fault before its vector leaves the drain: once it is counted, byte 0 lies below the ring's lower
limit (R203, R257). -/
theorem exec_sampledFire_faults {t : State} (h : exec sampledFire movingSampledState = .next t) :
    t.reg Reg.GLB_RES_FAULTS = 1 ∧ (t.core 0).check = none :=
  of_decide_eq_true (Answer.leaves_next
    (check := fun t => decide (t.reg Reg.GLB_RES_FAULTS = 1 ∧ (t.core 0).check = none)) (by decide +kernel) h)

end Sys2Proof.Machine

open Sys2Proof Sys2Proof.Machine Sys2Proof.Certificates.Slice0

/-- Refutes O30: no hypothesis bounds the ring of the job. The lower CORE limit of a ring of number 0xEFF8 stands where core 0 counts
its issued commands, so the issue of a FIRE moves the limit behind the first byte of its sampled vector, and the command ends with a
resource fault (R203, R257) where the statement has the vector captured. -/
theorem not_parallaxSamplesAndChecks : ¬ Obligations.ParallaxSamplesAndChecks := by
  rintro ⟨hcaptured, -⟩
  obtain ⟨hnone, hdrawn⟩ := movingSampledState_sampled
  obtain ⟨t, hexec, -, hcheck⟩ := hcaptured movingSampledState movingJob 0 (hdrOf 0) oneFire false false sampledFire 0 0 rfl
    movingSampledState_rowsReady (fun _ => rfl) (.inl (by decide +kernel)) (by decide +kernel)
    (.inr (by decide +kernel)) (by decide) (.inl ⟨hnone, hdrawn, rfl⟩) (.inl (by decide)) (.inl (by decide +kernel))
  have hpending : (t.core 0).check = none := (exec_sampledFire_faults hexec).2
  exact absurd (hpending.symm.trans hcheck) nofun

end

section
namespace Sys2Proof.Machine

/-! ### Digits of a number -/

/-- Digit i of a number given by its digits. -/
theorem ofDigits_div_pow_mod {b : Nat} (l : List Nat) (hl : ∀ x ∈ l, x < b) {i : Nat} (hi : i < l.length) :
    Nat.ofDigits b l / b ^ i % b = l[i] := by
  have hb : l[i] < b := hl _ (List.getElem_mem hi)
  rw [Nat.ofDigits_div_pow_eq_ofDigits_drop i (by omega) l hl, List.drop_eq_getElem_cons hi, Nat.ofDigits_cons,
    Nat.add_mul_mod_self_left, Nat.mod_eq_of_lt hb]

/-- Bytes are the digits of their number (R10). -/
theorem ofBytes_eq_ofDigits (bs : List Byte) : ofBytes bs = Nat.ofDigits 256 (bs.map (·.toNat)) := by
  induction bs with
  | nil => rfl
  | cons b bs ih => rw [ofBytes, ih, List.map_cons, Nat.ofDigits_cons]

theorem toNat_lt_of_mem_map (bs : List Byte) : ∀ x ∈ bs.map (·.toNat), x < 256 := by
  intro x hx
  obtain ⟨b, -, rfl⟩ := List.mem_map.1 hx
  exact b.isLt

theorem ofBytes_drop (bs : List Byte) (i : Nat) : ofBytes (bs.drop i) = ofBytes bs / 256 ^ i := by
  rw [ofBytes_eq_ofDigits, ofBytes_eq_ofDigits, List.map_drop,
    Nat.ofDigits_div_pow_eq_ofDigits_drop i (by omega) _ (toNat_lt_of_mem_map bs)]

theorem ofBytes_take (bs : List Byte) (i : Nat) : ofBytes (bs.take i) = ofBytes bs % 256 ^ i := by
  rw [ofBytes_eq_ofDigits, ofBytes_eq_ofDigits, List.map_take,
    Nat.ofDigits_mod_pow_eq_ofDigits_take i (by omega) _ (toNat_lt_of_mem_map bs)]

/-- A number of n bytes is read back from them (R10). -/
theorem ofBytes_toBytes_of_lt {n x : Nat} (h : x < 256 ^ n) : ofBytes (toBytes n x) = x := by
  induction n generalizing x with
  | zero => simp at h; simp [toBytes, ofBytes, h]
  | succ n ih =>
    have hx : x / 256 < 256 ^ n := Nat.div_lt_of_lt_mul (by rwa [← Nat.pow_succ'])
    rw [toBytes, ofBytes, ih hx, BitVec.toNat_ofNat]
    omega

/-! ### Pieces of equal length -/

/-- Piece i of pieces of m elements that stand one after another. -/
theorem take_drop_flatMap {α β : Type} (g : α → List β) (m : Nat) (hg : ∀ a, (g a).length = m) (l : List α) (r : List β)
    {i : Nat} (hi : i < l.length) : ((l.flatMap g ++ r).drop (m * i)).take m = g l[i] := by
  induction l generalizing i with
  | nil => cases hi
  | cons a l ih =>
    rw [List.flatMap_cons, List.append_assoc]
    cases i with
    | zero => rw [Nat.mul_zero, List.drop_zero]; exact List.take_left' (hg a)
    | succ i =>
      rw [Nat.mul_succ, Nat.add_comm, ← List.drop_drop, List.drop_left' (hg a)]
      exact ih (Nat.lt_of_succ_lt_succ hi)

theorem length_flatMap_of_const {α β : Type} (g : α → List β) (m : Nat) (hg : ∀ a, (g a).length = m) (l : List α) :
    (l.flatMap g).length = m * l.length := by
  simp [List.length_flatMap, hg, Nat.mul_comm]

/-- Elements of a list from one index on, each taken by its own index. -/
theorem map_range_getElem {α β : Type} (l : List α) (g : α → β) (d : α) (lo m : Nat) (h : lo + m ≤ l.length) :
    (List.range m).map (fun i => g (l.getD (lo + i) d)) = ((l.drop lo).take m).map g := by
  apply List.ext_getElem
  · simp; omega
  · intro i h1 h2
    simp only [List.length_map, List.length_range] at h1
    simp [List.getD_eq_getElem?_getD, show lo + i < l.length by omega]

/-! ### Streams of elements (R96) -/

theorem packStream_eq (w : Nat) (xs : List Nat) :
    packStream w xs = toBytes (ceilDiv (w * xs.length) 8) (Nat.ofDigits (2 ^ w) (xs.map (· % 2 ^ w))) := by
  rw [packStream, Nat.ofDigits_eq_foldr, List.foldr_map]
  rfl

theorem le_ceilDiv_mul (x : Nat) : x ≤ 8 * ceilDiv x 8 := by unfold ceilDiv; omega

/-- An element of a packed stream is read back. -/
theorem streamElem_packStream {w : Nat} (hw : 0 < w) (xs : List Nat) {i : Nat} (hi : i < xs.length) :
    streamElem w (packStream w xs) i = xs[i] % 2 ^ w := by
  have hdigits : ∀ x ∈ xs.map (· % 2 ^ w), x < 2 ^ w := by
    intro x hx
    obtain ⟨y, -, rfl⟩ := List.mem_map.1 hx
    exact Nat.mod_lt _ (Nat.two_pow_pos w)
  have hlt : Nat.ofDigits (2 ^ w) (xs.map (· % 2 ^ w)) < 256 ^ ceilDiv (w * xs.length) 8 := by
    refine (Nat.ofDigits_lt_base_pow_length (Nat.one_lt_two_pow hw.ne') hdigits).trans_le ?_
    rw [List.length_map, ← Nat.pow_mul, show (256 : Nat) = 2 ^ 8 from rfl, ← Nat.pow_mul]
    exact Nat.pow_le_pow_right (by omega) (le_ceilDiv_mul _)
  have hdigit := ofDigits_div_pow_mod (xs.map (· % 2 ^ w)) hdigits (i := i) (by simpa using hi)
  rw [List.getElem_map] at hdigit
  rw [streamElem, ofBytes_take, ofBytes_drop, packStream_eq, ofBytes_toBytes_of_lt hlt, ← hdigit,
    show (256 : Nat) = 2 ^ 8 from rfl, ← Nat.pow_mul, ← Nat.pow_mul, ← Nat.pow_mul]
  refine Nat.eq_of_testBit_eq fun k => ?_
  have hbit : 8 * (w * i / 8) + w * i % 8 = w * i := Nat.div_add_mod _ 8
  simp only [Nat.testBit_mod_two_pow, Nat.testBit_shiftRight, Nat.testBit_div_two_pow]
  by_cases hk : k < w
  · simp only [hk, show w * i % 8 + k < 8 * (w / 8 + 2) by omega, decide_true, Bool.true_and]
    congr 1
    omega
  · simp [hk]

/-! ### Integer formats of weights -/

/-- The formats of compressed tiles: their elements are as wide as a facet's weights, and a row image has room for all of its
columns (R16, R95, R180). -/
theorem tileFmt_widths {fmt : Nat} (h : fmt ∈ [0, 1, 2, 4]) :
    fmtWidth fmt = facetQ fmt ∧ 0 < facetQ fmt ∧ facetQ fmt * facetL fmt = 128 ∧ facetL fmt ≤ 64 ∧ fmt < 16 := by
  revert fmt
  decide

/-- The weight of a column is the integer that its bits encode (R16, R95). -/
theorem weightOf_eq_decodeInt {fmt : Nat} (h : fmt ∈ [0, 1, 2, 4]) (img : RowImage) (j : Nat) :
    weightOf fmt img j = decodeInt fmt (bits img (facetQ fmt * j) (facetQ fmt)) := by
  simp only [List.mem_cons, List.not_mem_nil, or_false] at h
  rcases h with rfl | rfl | rfl | rfl
  · have hnext : img.toNat / 2 ^ (2 * j + 1) = img.toNat / 2 ^ (2 * j) / 2 := by rw [Nat.pow_succ, Nat.div_div_eq_div_mul]
    simp only [weightOf, decodeInt, facetQ, bits, Nat.shiftRight_eq_div_pow, hnext]
    omega
  all_goals rfl

theorem signed_emod (n x : Nat) : signed n x % ((2 ^ n : Nat) : Int) = ((x % 2 ^ n : Nat) : Int) := by
  simp only [signed]
  split
  · rw [Int.sub_emod_right, Int.natCast_mod, Int.emod_emod_of_dvd _ dvd_rfl]
  · rw [Int.natCast_mod, Int.emod_emod_of_dvd _ dvd_rfl]

theorem unsigned_signed (n x : Nat) : unsigned n (signed n x) = x % 2 ^ n := by
  rw [unsigned, signed_emod, Int.toNat_natCast]

theorem signed_mod (n x : Nat) : signed n (x % 2 ^ n) = signed n x := by
  simp only [signed, Nat.mod_mod]

/-- What the bits of an element decode to is encoded in as many bits, which decode to it again (R95, R97). -/
theorem decode_encode {fmt : Nat} (h : fmt ∈ [0, 1, 2, 4]) (x : Nat) :
    encodeInt fmt (decodeInt fmt x) < 2 ^ facetQ fmt ∧
      decodeInt fmt (encodeInt fmt (decodeInt fmt x)) = decodeInt fmt x := by
  have hsigned : ∀ n, unsigned n (signed n x) < 2 ^ n ∧ signed n (unsigned n (signed n x)) = signed n x := fun n => by
    rw [unsigned_signed, signed_mod]
    exact ⟨Nat.mod_lt _ (Nat.two_pow_pos n), rfl⟩
  simp only [List.mem_cons, List.not_mem_nil, or_false] at h
  rcases h with rfl | rfl | rfl | rfl
  · have hx : x % 2 = 0 ∨ x % 2 = 1 := by omega
    have hx' : x / 2 % 2 = 0 ∨ x / 2 % 2 = 1 := by omega
    rcases hx with hx | hx <;> rcases hx' with hx' | hx' <;> simp [decodeInt, encodeInt, facetQ, hx, hx']
  · exact hsigned 2
  · exact hsigned 4
  · exact hsigned 8

end Sys2Proof.Machine
end

section
namespace Sys2Proof.Machine

/-! ### Headers of compressed tiles -/

/-- The bytes of a tile's header (R180). -/
def TileHeader.bytes (h : TileHeader) : List Byte :=
  toBytes 16 (1 + place h.fmt 8 4 + h.dense.toNat * 2 ^ 12 + place (h.kRows - 1) 16 10 + place (h.nCols - 1) 26 6
    + place h.nnz 32 16 + place h.length 48 16)

@[simp] theorem TileHeader.bytes_length (h : TileHeader) : h.bytes.length = 16 := toBytes_length 16 _

/-- A header within the bounds of its fields, of a format with a compressed form, whose length is the one that R181 gives. -/
structure TileHeader.Sound (h : TileHeader) : Prop where
  fmt : h.fmt ∈ [0, 1, 2, 4]
  rows : 0 < h.kRows ∧ h.kRows ≤ 1024
  cols : 0 < h.nCols ∧ h.nCols ≤ facetL h.fmt
  nnz : h.nnz < 2 ^ 16
  short : h.length < 2 ^ 16
  length : h.length = h.wanted

theorem place_of_lt {v n : Nat} (lo : Nat) (h : v < 2 ^ n) : place v lo n = v * 2 ^ lo := by
  rw [place, Nat.mod_eq_of_lt h, Nat.shiftLeft_eq]

/-- The fields of a header's number. -/
theorem header_number_fields {f d k n z l : Nat} (hf : f < 2 ^ 4) (hd : d < 2) (hk : k < 2 ^ 10) (hn : n < 2 ^ 6)
    (hz : z < 2 ^ 16) (hl : l < 2 ^ 16) :
    let v := 1 + f * 2 ^ 8 + d * 2 ^ 12 + k * 2 ^ 16 + n * 2 ^ 26 + z * 2 ^ 32 + l * 2 ^ 48
    v < 256 ^ 16 ∧ v % 2 ^ 8 = 1 ∧ v / 2 ^ 8 % 2 ^ 4 = f ∧ v / 2 ^ 12 % 2 ^ 1 = d ∧ v / 2 ^ 13 % 2 ^ 3 = 0 ∧
      v / 2 ^ 16 % 2 ^ 10 = k ∧ v / 2 ^ 26 % 2 ^ 6 = n ∧ v / 2 ^ 32 % 2 ^ 16 = z ∧ v / 2 ^ 48 % 2 ^ 16 = l ∧
      v / 2 ^ 64 % 2 ^ 64 = 0 := by
  refine ⟨?_, ?_, ?_, ?_, ?_, ?_, ?_, ?_, ?_, ?_⟩ <;> omega

theorem TileHeader.Sound.readHeader_bytes {h : TileHeader} (hs : h.Sound) : readHeader h.bytes = some h := by
  obtain ⟨hfmt, ⟨hrow, hrows⟩, ⟨hcol, hcols⟩, hnnz, hshort, hlength⟩ := hs
  obtain ⟨-, -, -, hl64, hfmt16⟩ := tileFmt_widths hfmt
  have hdense : h.dense.toNat < 2 := Bool.toNat_lt h.dense
  obtain ⟨hlt, hversion, hf, hd, hres, hk, hn, hz, hl, hhigh⟩ := header_number_fields (f := h.fmt) (d := h.dense.toNat)
    (k := h.kRows - 1) (n := h.nCols - 1) hfmt16 hdense (by omega) (by omega) hnnz hshort
  have hnumber : ofBytes (h.bytes.take 16) = 1 + h.fmt * 2 ^ 8 + h.dense.toNat * 2 ^ 12 + (h.kRows - 1) * 2 ^ 16
      + (h.nCols - 1) * 2 ^ 26 + h.nnz * 2 ^ 32 + h.length * 2 ^ 48 := by
    rw [List.take_of_length_le h.bytes_length.le, TileHeader.bytes, place_of_lt 8 hfmt16, place_of_lt 16 (by omega),
      place_of_lt 26 (by omega), place_of_lt 32 hnnz, place_of_lt 48 hshort, ofBytes_toBytes_of_lt hlt]
  have hflag : decide (h.dense.toNat = 1) = h.dense := by cases h.dense <;> rfl
  simp only [readHeader, hnumber, Nat.shiftRight_eq_div_pow, Nat.pow_zero, Nat.div_one, hversion, hf, hd, hres, hk, hn, hz, hl,
    hhigh, hflag, Nat.sub_add_cancel hrow, Nat.sub_add_cancel hcol]
  rw [if_pos ⟨trivial, by simpa using hfmt, trivial, trivial, hcols, hlength⟩]

/-! ### Columns of a tile with stored weights (R181, R184) -/

/-- Where column j begins among the entries of all columns. -/
def columnStart (cols : List (List (Nat × Nat))) (j : Nat) : Nat := ((cols.take j).map List.length).sum

/-- The bytes behind the header of a tile that stores entries: the columns' first entries, the entries' rows, their codes. -/
def entryBytes (w : Nat) (cols : List (List (Nat × Nat))) : List Byte :=
  ((List.range (cols.length + 1)).map (columnStart cols)).flatMap (toBytes 2) ++ (cols.flatten.flatMap (fun e => toBytes 2 e.1)
    ++ packStream w (cols.flatten.map (·.2)))

theorem length_columnStarts (cols : List (List (Nat × Nat))) :
    (((List.range (cols.length + 1)).map (columnStart cols)).flatMap (toBytes 2)).length = 2 * (cols.length + 1) := by
  rw [length_flatMap_of_const _ 2 fun a => toBytes_length 2 a, List.length_map, List.length_range]

theorem length_entryRows (es : List (Nat × Nat)) : (es.flatMap fun e => toBytes 2 e.1).length = 2 * es.length :=
  length_flatMap_of_const _ 2 (fun e : Nat × Nat => toBytes_length 2 e.1) _

theorem columnStart_le (cols : List (List (Nat × Nat))) (j : Nat) : columnStart cols j ≤ cols.flatten.length := by
  rw [List.length_flatten, columnStart, List.map_take]
  exact (List.take_sublist _ _).sum_le_sum fun _ _ => Nat.zero_le _

theorem columnStart_succ {cols : List (List (Nat × Nat))} {j : Nat} (hj : j < cols.length) :
    columnStart cols (j + 1) = columnStart cols j + cols[j].length := by
  rw [columnStart, List.take_succ_eq_append_getElem hj, List.map_append, List.sum_append, List.map_singleton, List.sum_singleton,
    columnStart]

/-- The entries of column j are a slice of the entries of all. -/
theorem take_drop_columnStart {cols : List (List (Nat × Nat))} {j : Nat} (hj : j < cols.length) :
    (cols.flatten.drop (columnStart cols j)).take cols[j].length = cols[j] := by
  have h := List.drop_sum_flatten cols j
  rw [← List.map_take] at h
  rw [columnStart, h, List.drop_eq_getElem_cons hj, List.flatten_cons, List.take_left' rfl]

theorem length_entryBytes (w : Nat) (cols : List (List (Nat × Nat))) : (entryBytes w cols).length =
    2 * (cols.length + 1) + 2 * cols.flatten.length + ceilDiv (cols.flatten.length * w) 8 := by
  have hpack : (packStream w (cols.flatten.map (·.2))).length = ceilDiv (cols.flatten.length * w) 8 := by
    rw [packStream, toBytes_length, List.length_map, Nat.mul_comm]
  rw [entryBytes, List.length_append, List.length_append, length_columnStarts, length_entryRows, hpack, Nat.add_assoc]

/-- A 16-bit entry of a list of them is read back. -/
theorem ofBytes_take_drop_entries {α : Type} (l : List α) (g : α → Nat) (r : List Byte) {i : Nat} (hi : i < l.length)
    (hg : g l[i] < 2 ^ 16) : ofBytes (((l.flatMap fun a => toBytes 2 (g a)) ++ r |>.drop (2 * i)).take 2) = g l[i] := by
  rw [take_drop_flatMap (fun a => toBytes 2 (g a)) 2 (fun a => toBytes_length 2 _) l r hi]
  exact ofBytes_toBytes_of_lt hg

section
variable {h : TileHeader} {hb : List Byte} {cols : List (List (Nat × Nat))}

/-- The pointer of column j as a tile's reader finds it. -/
theorem u16_pointer (w : Nat) (hhb : hb.length = 16) (hnnz : cols.flatten.length < 2 ^ 16) {j : Nat} (hj : j ≤ cols.length) :
    Tile.u16 ⟨h, hb ++ entryBytes w cols⟩ (16 + 2 * j) = columnStart cols j := by
  have hlt : columnStart cols j < 2 ^ 16 := (columnStart_le cols j).trans_lt hnnz
  have hget : ((List.range (cols.length + 1)).map (columnStart cols))[j]'(by simpa using Nat.lt_succ_of_le hj) =
      columnStart cols j := by rw [List.getElem_map, List.getElem_range]
  rw [Tile.u16, ← List.drop_drop, List.drop_left' hhb, entryBytes]
  exact (ofBytes_take_drop_entries _ id _ _ (hget.trans_lt hlt)).trans hget

/-- The row of entry k as a tile's reader finds it. -/
theorem u16_entry (w : Nat) (hhb : hb.length = 16) {k : Nat} (hk : k < cols.flatten.length) (hrow : cols.flatten[k].1 < 2 ^ 16) :
    Tile.u16 ⟨h, hb ++ entryBytes w cols⟩ (16 + 2 * (cols.length + 1) + 2 * k) = cols.flatten[k].1 := by
  rw [Tile.u16, Nat.add_assoc, ← List.drop_drop, List.drop_left' hhb, entryBytes, ← List.drop_drop,
    List.drop_left' (length_columnStarts cols)]
  exact ofBytes_take_drop_entries cols.flatten Prod.fst _ hk hrow

/-- The codes of a tile's entries stand behind their rows. -/
theorem drop_entryBytes (w : Nat) (hhb : hb.length = 16) :
    (hb ++ entryBytes w cols).drop (16 + 2 * (cols.length + 1) + 2 * cols.flatten.length) =
      packStream w (cols.flatten.map (·.2)) := by
  rw [Nat.add_assoc, ← List.drop_drop, List.drop_left' hhb, entryBytes, ← List.drop_drop,
    List.drop_left' (length_columnStarts cols), List.drop_left' (length_entryRows cols.flatten)]

/-- A reader of a tile finds each column's entries, decoded. -/
theorem column_entryBytes (hhb : hb.length = 16) (hdense : h.dense = false) (hcols : h.nCols = cols.length)
    (hcount : h.nnz = cols.flatten.length) (hnnz : cols.flatten.length < 2 ^ 16) (hw : 0 < facetQ h.fmt)
    (hentry : ∀ e ∈ cols.flatten, e.1 < 1024 ∧ e.2 < 2 ^ facetQ h.fmt) {j : Nat} (hj : j < cols.length) :
    Tile.column ⟨h, hb ++ entryBytes (facetQ h.fmt) cols⟩ j = cols[j].map fun e => (e.1, decodeInt h.fmt e.2) := by
  have hslice := columnStart_le cols (j + 1)
  rw [columnStart_succ hj] at hslice
  have hread : ∀ k < cols.flatten.length, (Tile.u16 ⟨h, hb ++ entryBytes (facetQ h.fmt) cols⟩
      (16 + 2 * (cols.length + 1) + 2 * k) % 1024,
      decodeInt h.fmt (streamElem (facetQ h.fmt) (packStream (facetQ h.fmt) (cols.flatten.map (·.2))) k)) =
      (fun e : Nat × Nat => (e.1, decodeInt h.fmt e.2)) (cols.flatten.getD k (0, 0)) := fun k hk => by
    obtain ⟨hrow, hcode⟩ := hentry _ (List.getElem_mem hk)
    rw [u16_entry _ hhb hk (by omega), streamElem_packStream hw _ (by rwa [List.length_map]), List.getElem_map,
      Nat.mod_eq_of_lt hcode, Nat.mod_eq_of_lt hrow, List.getD_eq_getElem _ _ hk]
  simp only [Tile.column, hdense, Bool.false_eq_true, if_false, hcols, hcount]
  rw [u16_pointer _ hhb hnnz hj.le, u16_pointer _ hhb hnnz hj, Nat.min_eq_left (columnStart_le _ _),
    Nat.min_eq_left (columnStart_le _ _), columnStart_succ hj, Nat.add_sub_cancel_left, drop_entryBytes _ hhb]
  rw [List.map_congr_left fun i hi => hread (columnStart cols j + i) (by have := List.mem_range.1 hi; omega),
    map_range_getElem cols.flatten (fun e => (e.1, decodeInt h.fmt e.2)) (0, 0) _ _ hslice, take_drop_columnStart hj]

end

/-! ### What a column gives a row -/

/-- The weight that the entries of a column give a row: of entries stored twice the later (R184). -/
def storedWeight (col : List (Nat × Int)) (r : Nat) : Int :=
  ((col.filter fun e => decide (e.1 = r)).getLast?.map (·.2)).getD 0

/-- Where a column lists the rows below k that p picks, each with its value, and the others have value 0, it gives each its
value. -/
theorem storedWeight_range (g : Nat → Int) (p : Nat → Bool) {k r : Nat} (hr : r < k) (hp : p r = false → g r = 0) :
    storedWeight (((List.range k).filter p).map fun r => (r, g r)) r = g r := by
  have hcount : ((List.range k).filter p).filter (fun i => decide (i = r)) = if p r then [r] else [] := by
    rw [List.filter_eq]
    split
    next h =>
      rw [List.count_eq_one_of_mem (List.nodup_range.filter p) (List.mem_filter.2 ⟨List.mem_range.2 hr, h⟩)]
      rfl
    next h => rw [List.count_eq_zero_of_not_mem fun hm => h (List.mem_filter.1 hm).2]; rfl
  rw [storedWeight, List.filter_map]
  simp only [Function.comp_def, hcount]
  split
  next h => rfl
  next h => rw [hp (by simpa using h)]; rfl

/-- A sum over the members of a list, each scaled by the power of its place. -/
theorem foldl_zipIdx_eq_ofDigits {α : Type} (b : Nat) (g : α → Nat) (l : List α) (k a : Nat) :
    (l.zipIdx k).foldl (fun a c => a + g c.1 * b ^ c.2) a = a + b ^ k * Nat.ofDigits b (l.map g) := by
  induction l generalizing k a with
  | nil => simp
  | cons x l ih =>
    rw [List.zipIdx_cons, List.foldl_cons, ih, List.map_cons, Nat.ofDigits_cons, Nat.pow_succ]
    ring

/-- An expanded row is the number whose digits are the codes of its weights (R183). -/
theorem expandRow_eq_ofDigits (t : Tile) (cols : List (List (Nat × Int))) (r : Nat) :
    expandRow t cols r = Nat.ofDigits (2 ^ facetQ t.h.fmt) (cols.map fun c => encodeInt t.h.fmt (storedWeight c r)) := by
  have h := foldl_zipIdx_eq_ofDigits (2 ^ facetQ t.h.fmt) (fun c => encodeInt t.h.fmt (storedWeight c r)) cols 0 0
  simp only [← Nat.pow_mul, Nat.pow_zero, Nat.one_mul, Nat.zero_add] at h
  exact h

/-- A row expanded from columns that give it the weights of an image has the weights of that image. -/
theorem weightOf_expandRow {t : Tile} {cols : List (List (Nat × Int))} {r : Nat} {img : RowImage}
    (hfmt : t.h.fmt ∈ [0, 1, 2, 4]) (hn : cols.length ≤ facetL t.h.fmt)
    (hcols : ∀ y (hy : y < cols.length), storedWeight cols[y] r = weightOf t.h.fmt img y) {y : Nat} (hy : y < cols.length) :
    weightOf t.h.fmt (BitVec.ofNat 128 (expandRow t cols r)) y = weightOf t.h.fmt img y := by
  obtain ⟨-, hq, h128, -, -⟩ := tileFmt_widths hfmt
  have hdigits : ∀ x ∈ cols.map fun c => encodeInt t.h.fmt (storedWeight c r), x < 2 ^ facetQ t.h.fmt := by
    intro x hx
    obtain ⟨c, hc, rfl⟩ := List.mem_map.1 hx
    obtain ⟨z, hz, rfl⟩ := List.getElem_of_mem hc
    rw [hcols z hz, weightOf_eq_decodeInt hfmt]
    exact (decode_encode hfmt _).1
  have hlt : expandRow t cols r < 2 ^ 128 := by
    rw [expandRow_eq_ofDigits]
    refine (Nat.ofDigits_lt_base_pow_length (Nat.one_lt_two_pow hq.ne') hdigits).trans_le ?_
    rw [List.length_map, ← Nat.pow_mul, ← h128]
    exact Nat.pow_le_pow_right (by omega) (Nat.mul_le_mul_left _ hn)
  have hcode : bits (BitVec.ofNat 128 (expandRow t cols r)) (facetQ t.h.fmt * y) (facetQ t.h.fmt) =
      encodeInt t.h.fmt (weightOf t.h.fmt img y) := by
    rw [bits, BitVec.toNat_ofNat, Nat.mod_eq_of_lt hlt, Nat.shiftRight_eq_div_pow, expandRow_eq_ofDigits, Nat.pow_mul,
      ofDigits_div_pow_mod _ hdigits (by simpa using hy), List.getElem_map, hcols y hy]
  rw [weightOf_eq_decodeInt hfmt, hcode, weightOf_eq_decodeInt hfmt img]
  exact (decode_encode hfmt _).2

end Sys2Proof.Machine
end

section
namespace Sys2Proof.Machine

/-! ### The tile that COMPRESS makes (R182) -/

/-- The entries that COMPRESS stores of column j: the rows whose weight is not 0, each with its code. -/
def storedColumn (fmt : Nat) (rows : List RowImage) (j : Nat) : List (Nat × Nat) :=
  (rows.zipIdx.filter fun r => decide (weightOf fmt r.1 j ≠ 0)).map fun r => (r.2, encodeInt fmt (weightOf fmt r.1 j))

/-- The entries of the n columns. -/
def storedColumns (fmt n : Nat) (rows : List RowImage) : List (List (Nat × Nat)) := (List.range n).map (storedColumn fmt rows)

/-- The header of a tile in the dense form (R181). -/
def denseHeader (fmt k n : Nat) : TileHeader := ⟨fmt, true, k, n, 0, 16 + 16 * k⟩

/-- The header of a tile that stores z entries (R181). -/
def entryHeader (fmt k n z : Nat) : TileHeader := ⟨fmt, false, k, n, z, 16 + 2 * (n + 1) + 2 * z + ceilDiv (z * facetQ fmt) 8⟩

theorem length_storedColumns (fmt n : Nat) (rows : List RowImage) : (storedColumns fmt n rows).length = n := by
  rw [storedColumns, List.length_map, List.length_range]

/-- COMPRESS takes the dense form where it is the shorter one (R182). -/
theorem compressTile_eq (fmt k n : Nat) (rows : List RowImage) :
    compressTile fmt k n rows =
      if 16 + 16 * k < (entryHeader fmt k n (storedColumns fmt n rows).flatten.length).length
      then (denseHeader fmt k n).bytes ++ rows.flatMap fun r => toBytes 16 r.toNat
      else (entryHeader fmt k n (storedColumns fmt n rows).flatten.length).bytes
        ++ entryBytes (facetQ fmt) (storedColumns fmt n rows) := by
  rw [entryBytes, length_storedColumns, List.length_flatten, ← List.append_assoc, ← List.append_assoc]
  rfl

/-- The entries of a column are those of the rows, in order, whose weight is not 0. -/
theorem storedColumn_eq (fmt : Nat) (rows : List RowImage) (j : Nat) :
    storedColumn fmt rows j = ((List.range rows.length).filter fun r => decide (weightOf fmt (rows.getD r 0) j ≠ 0)).map fun r =>
      (r, encodeInt fmt (weightOf fmt (rows.getD r 0) j)) := by
  have hzip : rows.zipIdx = (List.range rows.length).map fun r => (rows.getD r 0, r) := by
    apply List.ext_getElem
    · simp
    · intro r h1 h2
      have hr : r < rows.length := by simpa using h1
      rw [List.getElem_zipIdx, List.getElem_map, List.getElem_range, List.getD_eq_getElem _ _ hr, Nat.zero_add]
  rw [storedColumn, hzip, List.filter_map, List.map_map]
  rfl

theorem mem_storedColumns_flatten {fmt n : Nat} (h : fmt ∈ [0, 1, 2, 4]) {rows : List RowImage} {e : Nat × Nat}
    (he : e ∈ (storedColumns fmt n rows).flatten) : e.1 < rows.length ∧ e.2 < 2 ^ facetQ fmt := by
  obtain ⟨c, hc, hec⟩ := List.mem_flatten.1 he
  obtain ⟨j, -, rfl⟩ := List.mem_map.1 hc
  rw [storedColumn_eq] at hec
  obtain ⟨r, hr, rfl⟩ := List.mem_map.1 hec
  rw [weightOf_eq_decodeInt h]
  exact ⟨List.mem_range.1 (List.mem_filter.1 hr).1, (decode_encode h _).1⟩

/-- A reader of a tile with stored entries finds in each column each row's weight. -/
theorem storedWeight_column_entries {fmt k n : Nat} (h : fmt ∈ [0, 1, 2, 4]) {rows : List RowImage}
    (hrows : rows.length ≤ 1024) (hnnz : (storedColumns fmt n rows).flatten.length < 2 ^ 16) {r y : Nat}
    (hr : r < rows.length) (hy : y < n) :
    let hd := entryHeader fmt k n (storedColumns fmt n rows).flatten.length
    storedWeight (Tile.column ⟨hd, hd.bytes ++ entryBytes (facetQ fmt) (storedColumns fmt n rows)⟩ y) r =
      weightOf fmt (rows.getD r 0) y := by
  intro hd
  obtain ⟨-, hq, -, -, -⟩ := tileFmt_widths h
  have hcols := length_storedColumns fmt n rows
  have hget : (storedColumns fmt n rows)[y]'(hcols.symm ▸ hy) = storedColumn fmt rows y := by
    simp only [storedColumns, List.getElem_map, List.getElem_range]
  have hdecode : ∀ r, decodeInt fmt (encodeInt fmt (weightOf fmt (rows.getD r 0) y)) = weightOf fmt (rows.getD r 0) y := by
    intro r
    rw [weightOf_eq_decodeInt h]
    exact (decode_encode h _).2
  have hcolumn := column_entryBytes (h := hd) (cols := storedColumns fmt n rows) hd.bytes_length rfl hcols.symm rfl hnnz hq
    (fun e he => ⟨(mem_storedColumns_flatten h he).1.trans_le hrows, (mem_storedColumns_flatten h he).2⟩) (hcols.symm ▸ hy)
  rw [hget, storedColumn_eq, List.map_map] at hcolumn
  have hweights := hcolumn.trans (List.map_congr_left (g := fun r => (r, weightOf fmt (rows.getD r 0) y))
    fun r _ => Prod.ext rfl (hdecode r))
  rw [show facetQ fmt = facetQ hd.fmt from rfl, hweights]
  exact storedWeight_range (fun r => weightOf fmt (rows.getD r 0) y) _ hr fun hz => by simpa using hz

/-- A reader of a tile in the dense form finds in each column each row's weight. -/
theorem storedWeight_column_dense {fmt n : Nat} {rows : List RowImage} {r y : Nat} (hr : r < rows.length) :
    let hd := denseHeader fmt rows.length n
    storedWeight (Tile.column ⟨hd, hd.bytes ++ rows.flatMap fun r => toBytes 16 r.toNat⟩ y) r =
      weightOf fmt (rows.getD r 0) y := by
  intro hd
  have himage : ∀ r < rows.length, ofBytes (((hd.bytes ++ rows.flatMap fun r => toBytes 16 r.toNat).drop (16 + 16 * r)).take 16) =
      (rows.getD r 0).toNat := by
    intro r hr
    have hpiece := take_drop_flatMap (fun r : RowImage => toBytes 16 r.toNat) 16 (fun r => toBytes_length 16 _) rows [] hr
    rw [List.append_nil] at hpiece
    rw [← List.drop_drop, List.drop_left' hd.bytes_length, hpiece, ofBytes_toBytes_of_lt (rows[r].isLt.trans_le (by decide)),
      List.getD_eq_getElem _ _ hr]
  have hcolumn : Tile.column ⟨hd, hd.bytes ++ rows.flatMap fun r => toBytes 16 r.toNat⟩ y =
      (List.range rows.length).map fun r => (r, weightOf fmt (rows.getD r 0) y) := by
    refine List.map_congr_left fun r hr => ?_
    rw [himage r (List.mem_range.1 hr), BitVec.ofNat_toNat, BitVec.setWidth_eq]
    rfl
  have hall : (List.range rows.length).filter (fun _ => true) = List.range rows.length := List.filter_true _
  rw [hcolumn, ← hall]
  exact storedWeight_range (fun r => weightOf fmt (rows.getD r 0) y) _ hr fun ht => absurd ht (by decide)

/-- A tile whose header is sound and whose columns give each row's weights expands to the rows (R183). -/
theorem expands_of_columns {hd : TileHeader} {rest : List Byte} {rows : List RowImage} (hs : hd.Sound)
    (hlen : hd.length = (hd.bytes ++ rest).length) (hk : hd.kRows = rows.length)
    (hcols : ∀ r y, r < rows.length → y < hd.nCols →
      storedWeight (Tile.column ⟨hd, hd.bytes ++ rest⟩ y) r = weightOf hd.fmt (rows.getD r 0) y) :
    let bs := hd.bytes ++ rest
    ∃ h, readHeader (bs.take 16) = some h ∧ h.length = bs.length ∧ h.kRows = rows.length ∧ h.nCols = hd.nCols ∧ h.fmt = hd.fmt ∧
      ∀ r y, r < rows.length → y < hd.nCols →
        weightOf hd.fmt (BitVec.ofNat 128 (expandRow ⟨h, bs⟩ ((List.range hd.nCols).map (Tile.column ⟨h, bs⟩)) r)) y
          = weightOf hd.fmt (rows.getD r 0) y := by
  refine ⟨hd, ?_, hlen, hk, rfl, rfl, fun r y hr hy => ?_⟩
  · rw [List.take_left' hd.bytes_length, hs.readHeader_bytes]
  · refine weightOf_expandRow (t := ⟨hd, hd.bytes ++ rest⟩) hs.fmt (by simpa using hs.cols.2) (fun z hz => ?_)
      (by simpa using hy)
    rw [List.getElem_map, List.getElem_range]
    exact hcols r z hr (by simpa using hz)

theorem denseHeader_sound {fmt k n : Nat} (h : fmt ∈ [0, 1, 2, 4]) (hk : 0 < k ∧ k ≤ 1024) (hn : 0 < n ∧ n ≤ facetL fmt) :
    (denseHeader fmt k n).Sound :=
  ⟨h, hk, hn, Nat.two_pow_pos 16, by simp only [denseHeader]; omega, rfl⟩

theorem entryHeader_sound {fmt k n z : Nat} (h : fmt ∈ [0, 1, 2, 4]) (hk : 0 < k ∧ k ≤ 1024) (hn : 0 < n ∧ n ≤ facetL fmt)
    (hlen : (entryHeader fmt k n z).length ≤ 16 + 16 * k) : (entryHeader fmt k n z).Sound := by
  simp only [entryHeader] at hlen
  exact ⟨h, hk, hn, by simp only [entryHeader]; omega, by simp only [entryHeader]; omega, rfl⟩

end Sys2Proof.Machine

open Sys2Proof Sys2Proof.Machine Sys2Proof.Certificates.Slice0

/-- Settles O18: in either form of the tile a reader finds in each column each row's weight, and a row's codes are the digits of its
image. -/
theorem expandUndoesCompress : Obligations.ExpandUndoesCompress := by
  intro fmt rows n hfmt hk hk' hn hn'
  rw [compressTile_eq]
  split
  next =>
    have hs := denseHeader_sound hfmt ⟨hk, hk'⟩ ⟨hn, hn'⟩
    refine expands_of_columns hs ?_ rfl fun r y hr _ => storedWeight_column_dense hr
    rw [List.length_append, TileHeader.bytes_length, length_flatMap_of_const _ 16 fun r : RowImage => toBytes_length 16 _]
    rfl
  next hshort =>
    have hs := entryHeader_sound hfmt ⟨hk, hk'⟩ ⟨hn, hn'⟩ (Nat.le_of_not_lt hshort)
    refine expands_of_columns hs ?_ rfl fun r y hr hy => storedWeight_column_entries hfmt hk' hs.nnz hr hy
    rw [List.length_append, TileHeader.bytes_length, length_entryBytes, length_storedColumns]
    simp only [entryHeader, Nat.add_assoc]

end

section
namespace Sys2Proof.Machine

open Sys2Proof.Certificates.Slice0

/-! ### A COMPRESS on the ring whose limits move

The device of `movingState` again, whose job's issue moves the lower limit of core memory behind byte 0. -/

/-- COMPRESS of one row image of two INT4 weights, from slot 0 to slot 2. -/
def oneCompress : MoveArgs := { moveOf 0 0 0 with fmt := 2, dst := 128, n0 := 2, n1 := 1 }

/-- That COMPRESS as a command of core 0. -/
def oneCompressInstr : Instr := .moveCompress 0 (hdrOf 0) oneCompress

theorem movingState_compress_dataReady : DataReady movingState movingJob 0 (hdrOf 0) oneCompressInstr where
  toInTurn := movingState_starts.toInTurn
  turn := movingState_starts.turn
  fits := by decide +kernel
  banks := by decide +kernel
  free_ := by decide +kernel
  order := movingState_dataReady.order
  sound := movingState_dataReady.sound
  reach := by unfold opersReady; decide +kernel
  unchecked := movingState_dataReady.unchecked

/-- The command ends with a resource fault: once it is counted, byte 0 lies below the ring's lower limit. -/
theorem exec_oneCompress_faults {t : State} (h : exec oneCompressInstr movingState = .next t) :
    t.reg Reg.GLB_RES_FAULTS = 1 :=
  of_decide_eq_true (Answer.leaves_next (check := fun t => decide (t.reg Reg.GLB_RES_FAULTS = 1)) (by decide +kernel) h)

end Sys2Proof.Machine

open Sys2Proof Sys2Proof.Machine Sys2Proof.Certificates.Slice0

/-- Refutes O17: no hypothesis bounds the ring of the job. The lower CORE limit of a ring of number 0xEFF8 stands where core 0
counts its issued commands, so the issue of a COMPRESS moves the limit behind byte 0 of its source, and the command ends with a
resource fault (R220, R257) where the statement has it complete. -/
theorem not_moveCompressesAndExpands : ¬ Obligations.MoveCompressesAndExpands := by
  intro h
  obtain ⟨hcompress, -⟩ := h movingState movingJob 0 (hdrOf 0) oneCompress ⟨0, 0, 0⟩ ⟨0, 0, 128⟩
  obtain ⟨t, hexec, -, -, hdone⟩ := hcompress movingState_compress_dataReady (by decide +kernel) (by decide +kernel)
  obtain ⟨-, -, hregs, -⟩ := hdone
  have hfaults := hregs Reg.GLB_RES_FAULTS (by decide) (by decide)
  rw [exec_oneCompress_faults hexec] at hfaults
  exact absurd hfaults (by decide +kernel)

end

section
namespace Sys2Proof.Machine

open Sys2Proof.Certificates.Slice0

/-! ### A table whose commands read what they have written

Job 1 on core 0 has a table of two FP32 rows of one element in stacked memory, of which it holds the first page. Its descriptor lies
in slot 0, two indices of row 0 in slot 1. Row 0 holds 1.0, and so do the first bytes of stacked memory. -/

/-- The table: its rows stand at bytes 64 and 68. -/
def overlapTable : Table := { base := 64, fmt := 15, rows := 2, width := 1, pitch := 4, hotRows := 0, hotBase := 0 }

/-- Core 0 with the descriptor, whose fields stand as R161 gives them. -/
def overlapCore : Core :=
  { soloCore with
    task := { TaskRec.initial with stBound := 0x10000000 }
    mem := Sparse.setList 0 [] 0 (toBytes 32 (64 + 15 * 2 ^ 48 + 2 * 2 ^ 64 + 4 * 2 ^ 128)), full := [(0, true), (1, true)] }

/-- The device. -/
def overlapState : State :=
  { soloState soloJob overlapCore with
    tlb := [(0, some (0, true))], stacked := [(2, 0x80), (3, 0x3F), (66, 0x80), (67, 0x3F)] }

/-- A header with one parameter record. -/
def recordHdr : Hdr := { hdrOf 0 with prmN := 1, prm := 16 }

theorem overlapCore_ordered : overlapCore.ordered := by
  unfold Core.ordered Facet.ordered Issued.ordered
  decide +kernel

theorem overlapState_orderedBeside : overlapState.orderedBeside := by
  unfold State.orderedBeside State.memOk State.sideOk Uarid.ordered State.shaped Port.shaped
  decide +kernel

theorem overlapState_inTurn : InTurn overlapState soloJob 0 where
  job := by decide +kernel
  clock := by decide +kernel
  idle := by decide +kernel
  free := by decide +kernel
  more := by decide +kernel

/-! ### An UPDATE whose delta for one row is another of its rows -/

/-- UPDATE SUM of rows 0 and 1 with α = 1. The delta of row 0 is the first element of stacked memory, that of row 1 stands 64 bytes
behind it: it is row 0. -/
def overlapUpdate : UpdateArgs :=
  { updateOf 0 0 with
    formRange := true, alpha := 0x3F800000, dpitch := 64, delta := BitVec.ofNat 64 (3 * 2 ^ 60), countM1 := 1 }

/-- That UPDATE as a command of core 0. -/
def overlapUpdateInstr : Instr := .update 0 recordHdr overlapUpdate

/-- What it knows of itself. -/
def overlapUpdateCx : Cx := headCx overlapState soloJob 0 recordHdr overlapUpdateInstr

theorem overlapState_update_dataReady : DataReady overlapState soloJob 0 recordHdr overlapUpdateInstr where
  toInTurn := overlapState_inTurn
  turn := by decide +kernel
  fits := by decide +kernel
  banks := by decide +kernel
  free_ := by decide +kernel
  order := overlapState_orderedBeside.ordered rfl rfl overlapCore_ordered rfl
  sound := State.faultless_solo rfl ⟨rfl, rfl⟩ rfl rfl rfl rfl
  reach := by unfold opersReady; decide +kernel
  unchecked := by decide +kernel

theorem overlapUpdate_reaches : ∀ r < overlapTable.rows,
    reaches overlapState overlapUpdateCx true (overlapTable.row r) 0 overlapTable.rowBytes = true := by decide +kernel

/-- The cells of the table's rows. -/
theorem overlapTable_cell : ∀ r < overlapTable.rows, ∀ k < overlapTable.rowBytes,
    operCell overlapState overlapUpdateCx true (overlapTable.row r) k = some (.stacked (64 + 4 * r + k)) := by decide +kernel

/-- No operand of the command covers a byte of row 1. -/
theorem overlapUpdate_apart_row : ∀ k < overlapTable.rowBytes,
    ∀ q ∈ opersOf overlapState overlapUpdateCx overlapUpdateInstr,
      q.covers overlapState overlapUpdateCx (.stacked (64 + 4 * 1 + k)) = false := by decide +kernel

/-- Row 1 becomes 2.0: its delta is read once row 0 has become 2.0. -/
theorem exec_overlapUpdate_row {t : State} (h : exec overlapUpdateInstr overlapState = .next t) :
    elemIn overlapState t overlapUpdateCx true (overlapTable.row 1) 0 32 = 0x40000000 :=
  of_decide_eq_true (Answer.leaves_next
    (check := fun t => decide (elemIn overlapState t overlapUpdateCx true (overlapTable.row 1) 0 32 = 0x40000000))
    (by decide +kernel) h)

/-! ### A GATHER that writes an output over an index -/

/-- GATHER SUM of two bags of one position each. The output of bag 0 is the index at position 1. -/
def overlapGather : GatherEmbArgs :=
  { embOf 0 0 with ofmt := 15, nIdxM1 := 1, nBagsM1 := 1, opitch := 4, idx := 64, out := 68 }

/-- That GATHER as a command of core 0. -/
def overlapGatherInstr : Instr := .gatherEmb 0 recordHdr overlapGather

theorem overlapState_gather_dataReady : DataReady overlapState soloJob 0 recordHdr overlapGatherInstr where
  toInTurn := overlapState_inTurn
  turn := by decide +kernel
  fits := by decide +kernel
  banks := by decide +kernel
  free_ := by decide +kernel
  order := overlapState_update_dataReady.order
  sound := overlapState_update_dataReady.sound
  reach := by unfold opersReady; decide +kernel
  unchecked := overlapState_update_dataReady.unchecked

theorem overlapGather_reaches : ∀ r < overlapTable.rows, reaches overlapState
    (headCx overlapState soloJob 0 recordHdr overlapGatherInstr) false (overlapTable.row r) 0 overlapTable.rowBytes = true := by
  decide +kernel

/-- One row is read: the index of bag 1 is the output of bag 0 when it is read, and out of range. -/
theorem exec_overlapGather_rows {t : State} (h : exec overlapGatherInstr overlapState = .next t) :
    t.reg (Reg.SPE_ROWS 0) = 1 :=
  of_decide_eq_true (Answer.leaves_next (check := fun t => decide (t.reg (Reg.SPE_ROWS 0) = 1)) (by decide +kernel) h)

end Sys2Proof.Machine

open Sys2Proof Sys2Proof.Machine Sys2Proof.Certificates.Slice0

/-- Refutes O19: the rows that it counts are those of the indices before the command, with no hypothesis that the outputs lie apart
from the indices. Here the output of bag 0 is written (R168, R169) over the index of bag 1, which is then out of range and passed
over (R166): one row is read, where the statement counts two. -/
theorem not_gatherEmbPoolsBags : ¬ Obligations.GatherEmbPoolsBags := by
  intro h
  obtain ⟨u, hexec, -, -, -, -, hrows, -⟩ := h overlapState soloJob 0 recordHdr overlapGather ⟨0, 0, 0⟩ ⟨0, 0, 64⟩
    ⟨0, 0, 0⟩ ⟨0, 0, 0⟩ ⟨0, 0, 68⟩ overlapTable overlapState_gather_dataReady (by decide +kernel) (by decide +kernel) (by decide +kernel)
    (fun hoffsets => absurd hoffsets (by decide)) (fun hpool => absurd hpool (by decide)) (by decide +kernel)
    (fun b p _ hp => overlapGather_reaches _ (of_decide_eq_true (List.mem_filter.1 hp).2))
  have hcount := (exec_overlapGather_rows hexec).symm.trans hrows
  exact absurd hcount (by decide +kernel)

/-- Refutes O21: the deltas that it adds are those before the command, and only the row itself is to lie apart from the operands.
Here the delta of row 1 is row 0, which the command replaces first (R175): row 1 takes the delta from the new row 0 and becomes 2.0,
where the statement has 1.0. -/
theorem not_updateReplacesItsRows : ¬ Obligations.UpdateReplacesItsRows := by
  intro h
  obtain ⟨u, hexec, -, -, hrows, -⟩ := h overlapState soloJob 0 recordHdr overlapUpdate ⟨0, 0, 0⟩ ⟨0, 0, 0⟩
    ⟨3, 0, 0⟩ overlapTable overlapState_update_dataReady (by decide +kernel) (by decide +kernel) (by decide) (by decide +kernel)
    (fun hform => absurd hform (by decide)) (fun r hr => overlapUpdate_reaches r hr.1) rfl
  obtain ⟨-, helem⟩ := hrows 1 ⟨by decide, by decide +kernel⟩ fun k hk m hm => by
    obtain rfl : MemCell.stacked (64 + 4 * 1 + k) = m := Option.some.inj ((overlapTable_cell 1 (by decide) k hk).symm.trans hm)
    refine ⟨fun k' hk' hm' => ?_, fun r hr hne k' hk' hm' => ?_, overlapUpdate_apart_row k hk⟩
    · have hcell := (overlapTable_cell 1 (by decide) k' hk').symm.trans hm'
      simpa using hcell
    · have hcell := (overlapTable_cell r hr.1 k' hk').symm.trans hm'
      have hbytes : overlapTable.rowBytes = 4 := by decide
      have hrow : r < 2 := hr.1
      simp only [Option.some.injEq, MemCell.stacked.injEq] at hcell
      omega
  have hvalue := (exec_overlapUpdate_row hexec).symm.trans (helem 0 _ (by decide) rfl)
  exact absurd hvalue (by decide +kernel)

end

section
namespace Sys2Proof.Machine

open Sys2Proof.Certificates.Slice0

/-! ### A tile command that comes to the head of its buffer -/

/-- A tile command takes the path of tile commands with its own work. -/
theorem exec_of_tileOf {i : Instr} {c : Nat} {h : Hdr} (hi : tileOf i = some (c, h)) :
    ∃ body, ∀ s, exec i s = .next (s.tile c h i body) := by
  cases i <;> cases hi <;> exact ⟨_, fun _ => rfl⟩

theorem InTurn.holder {s : State} {j : Job} {c : Nat} (ht : InTurn s j c) : s.holder c = some j ∧ j.phase.executes = true := by
  exact Option.filter_eq_some_iff.mp ht.job

/-- A command in its turn is decided on at the head of its buffer. -/
theorem InTurn.tile_eq {s : State} {j : Job} {c : Nat} (ht : InTurn s j c) (h : Hdr) (i : Instr) (body : Cx → Act Unit) :
    s.tile c h i body = s.atHead j c h i body := by
  obtain ⟨hholder, hexecutes⟩ := ht.holder
  simp [State.tile, hholder, hexecutes, ht.clock, ht.idle, ht.free, Nat.not_le.mpr ht.more]

/-- Where the refusal of a command at the head of the buffer of core c is logged (R301). -/
def refusalSite (s : State) (j : Job) (c : Nat) (i : Instr) : Site := ⟨j.num, j.ring, c, (s.core c).nextSeq, opcodeOf i⟩

theorem State.atHead_refuses {s : State} {j : Job} {c : Nat} {h : Hdr} {i : Instr} {n : Nat}
    (hn : leastCause (headCauses s j c h i) = some n) (body : Cx → Act Unit) :
    s.atHead j c h i body = s.refuse (refusalSite s j c i) n := by
  rw [headCauses, headCx] at hn
  rw [State.atHead, hn]
  rfl

/-- A core that passes over the command at the head of its buffer (R312). -/
def Core.skipped (k : Core) : Core := { k.next with skip := k.skip - 1 }

theorem State.atHead_skips {s : State} {j : Job} {c : Nat} {h : Hdr} {i : Instr}
    (hn : leastCause (headCauses s j c h i) = none) (hskip : 0 < (s.core c).skip) (body : Cx → Act Unit) :
    s.atHead j c h i body = (s.modCore c Core.skipped).count (Reg.SEQ_SKIPPED c) 1 := by
  rw [headCauses, headCx] at hn
  rw [State.atHead, hn]
  exact if_pos hskip

/-! ### The codes of the causes -/

/-- Every cause of a list has a code of 6 bits, as the log keeps it (R301). -/
def Coded (l : List Nat) : Prop := ∀ n ∈ l, n < 64

@[simp] theorem coded_nil : Coded [] := nofun

@[simp] theorem coded_append (l m : List Nat) : Coded (l ++ m) ↔ Coded l ∧ Coded m := List.forall_mem_append

@[simp] theorem coded_cause {n : Nat} (hn : n < 64) (b : Bool) : Coded (cause n b) := by
  unfold cause Coded
  split <;> simp [hn]

@[simp] theorem coded_fieldCauses (i : Instr) : Coded (fieldCauses i) := by
  cases i <;> simp [fieldCauses, floadCauses, fireCauses, acminitCauses, acmoutCauses, refmmCauses, refewCauses, reduceCauses,
    moveCauses, tileMoveCauses, gatherEmbCauses, gatherSptCauses, updateCauses, syncCauses, claimCauses, expoCauses, taskCauses,
    windowCauses]

@[simp] theorem coded_staticCauses (i : Instr) : Coded (staticCauses i) := by
  unfold staticCauses
  split <;> simp

/-- The causes of a command at the head of its buffer have codes of 6 bits. -/
theorem coded_headCauses (s : State) (j : Job) (c : Nat) (h : Hdr) (i : Instr) : Coded (headCauses s j c h i) := by
  have hfiret : Coded (firetCauses (s.core c) i) := by unfold firetCauses; split <;> simp
  have hrescale : ∀ rows, Coded (rescaleCauses s rows j c i) := fun rows => by unfold rescaleCauses; split <;> simp
  have htask : Coded (taskLimitCauses s j.ring i) := by unfold taskLimitCauses; split <;> simp
  have hname : Coded (nameCauses s i) := by unfold nameCauses; split <;> simp
  have htable : ∀ x, Coded (tableCauses s x i) := fun x => by unfold tableCauses; split <;> simp
  simp [headCauses, causes, indexCauses, freezeCauses, hfiret, hrescale, htask, hname, htable]

theorem leastCause_lt {s : State} {j : Job} {c : Nat} {h : Hdr} {i : Instr} {n : Nat}
    (hn : leastCause (headCauses s j c h i) = some n) : n < 64 :=
  coded_headCauses s j c h i n (List.min?_mem hn)

/-! ### The words of the refusal log -/

/-- GLB_CMD_LOG0 after a refusal (R301). -/
def refusalWord (cause again op seq : Nat) : Word64 :=
  BitVec.ofNat 64 (place cause 0 6 + 2 ^ 6 + again * 2 ^ 7 + place op 8 8 + place seq 16 16)

theorem bits_refusalWord {cause again : Nat} (op seq : Nat) (hcause : cause < 64) (hagain : again < 2) :
    let w := refusalWord cause again op seq
    bits w 0 6 = cause ∧ bits w 6 1 = 1 ∧ bits w 7 1 = again ∧ bits w 8 8 = op % 256 ∧ bits w 16 16 = seq % 65536 := by
  intro w
  have hw : w.toNat = cause + 64 + again * 128 + op % 256 * 256 + seq % 65536 * 65536 := by
    simp only [w, refusalWord, place, Nat.shiftLeft_eq, BitVec.toNat_ofNat]
    omega
  refine ⟨?_, ?_, ?_, ?_, ?_⟩ <;> simp only [bits, hw, Nat.shiftRight_eq_div_pow] <;> omega

/-- GLB_CMD_LOG1 after a refusal. -/
theorem bits_refusalPlace (core ring : Nat) : let w := BitVec.ofNat 64 (place core 0 11 + place ring 16 6)
    bits w 0 11 = core % 2048 ∧ bits w 16 6 = ring % 64 := by
  intro w
  have hw : w.toNat = core % 2048 + ring % 64 * 65536 := by
    simp only [w, place, Nat.shiftLeft_eq, BitVec.toNat_ofNat]
    omega
  refine ⟨?_, ?_⟩ <;> simp only [bits, hw, Nat.shiftRight_eq_div_pow] <;> omega

/-- GLB_CMD_LOG2 after a refusal. -/
theorem bits_refusalJob (job : Nat) : bits (BitVec.ofNat 64 (place job 0 24)) 0 24 = job % 2 ^ 24 := by
  simp only [bits, place, Nat.shiftLeft_eq, BitVec.toNat_ofNat, Nat.shiftRight_eq_div_pow]
  omega

theorem State.fld_bit_lt (s : State) (off lo : Nat) : s.fld off lo 1 < 2 := Nat.mod_lt _ (by decide)

theorem opcodeOf_lt (i : Instr) : opcodeOf i < 256 := by
  cases i <;> simp [opcodeOf]

/-! ### The end of a job: its cores stop -/

/-- A state without what the end of a job changes beside the registers: cores, jobs, bank times, held commands, page requests. -/
def State.endless (s : State) : State := { s with regs := [], cores := [], jobs := [], bankIdle := [], held := [], pageReqs := [] }

/-- What does not depend on what the end of a job changes is the same of two states that agree but for that. -/
theorem State.keeps_of_endless {α : Type} (f : State → α) (hf : ∀ u : State, f u.endless = f u) {s t : State}
    (h : t.endless = s.endless) : f t = f s := by rw [← hf t, h, hf s]

/-- Released bookings change nothing but when banks were last used. -/
theorem State.release_keeps {α : Type} (f : State → α) (hf : ∀ s b, f (State.touchBank s b) = f s) (s : State) (r : Issued) :
    f (s.release r) = f s := foldl_keeps f _ hf _ s

/-- One core of a job stops at its next command boundary, as one step of the stop of the job's cores. -/
def State.stopCore (c q : Nat) (s : State) (d : Nat) : State :=
  let a := if d = c then some q else none
  (((s.core d).issued.filter fun r => !r.drains a).foldl State.release s).modCore d (·.stop a)

/-- What a job loses as its cores stop: what uncommitted passes of rescale groups have observed (R117). -/
def State.passesDropped (s : State) (j : Job) (k : Job) : Job :=
  k.saved.foldl (fun k e => k.dropPass e.1 e.2) ((s.coresOf j).foldl (fun k d => k.dropPass d (s.core d)) k)

/-- The state in which the cores of a job stop. -/
def State.coresStopped (s : State) (j : Job) (c q : Nat) : State :=
  (s.coresOf j).foldl (State.stopCore c q) (s.modJob j.num (s.passesDropped j))

theorem State.stopCores_eq (s : State) (j : Job) (c q : Nat) : s.stopCores j c q =
    { s.coresStopped j c q with
      held := (s.coresStopped j c q).held.filter fun i => !heldOn (s.coresOf j) i ||
        (s.coresOf j).any fun d => ((s.coresStopped j c q).core d).issued.any fun r => decide (r.cmd = i) } := rfl

/-- What a function of the state that sees neither cores nor bank times finds after one core has stopped. -/
theorem State.stopCore_keeps {α : Type} (f : State → α) (h1 : ∀ s c k, f (State.setCore s c k) = f s)
    (h2 : ∀ s b, f (State.touchBank s b) = f s) (c q : Nat) (s : State) (d : Nat) : f (s.stopCore c q d) = f s :=
  (h1 _ _ _).trans (foldl_keeps f _ (fun u r => u.release_keeps f h2 r) _ s)

theorem State.core_stopCore {s : State} (h : Sparse.rising s.cores = true) (c q d : Nat) :
    Sparse.rising (s.stopCore c q d).cores = true ∧
      ∀ e, (s.stopCore c q d).core e = if e = d then (s.core e).stop (if e = c then some q else none) else s.core e := by
  have hcores : ∀ l : List Issued, (l.foldl State.release s).cores = s.cores := fun l =>
    foldl_keeps State.cores _ (fun u r => u.release_keeps State.cores (fun _ _ => rfl) r) l s
  have hcore : ∀ (l : List Issued) e, (l.foldl State.release s).core e = s.core e := fun l e => by
    rw [State.core, hcores]; rfl
  have hr : ∀ l : List Issued, Sparse.rising (l.foldl State.release s).cores = true := fun l => by rw [hcores]; exact h
  refine ⟨State.rising_modCore (hr _) _ _, fun e => ?_⟩
  rw [State.stopCore, State.core_modCore (hr _), hcore, hcore]
  split
  · next he => rw [he]
  · rfl

theorem Core.stop_stop (k : Core) (a : Option Nat) : (k.stop a).stop a = k.stop a := by
  simp [Core.stop, List.filter_filter]

/-- A fold that changes each core of a list in a way of its own, which repeats without effect. -/
theorem State.core_foldl_at {step : State → Nat → State} {f : Nat → Core → Core} (hf : ∀ d k, f d (f d k) = f d k)
    (hstep : ∀ s c, Sparse.rising s.cores = true → Sparse.rising (step s c).cores = true ∧
      ∀ d, (step s c).core d = if d = c then f d (s.core d) else s.core d) (cs : List Nat) :
    ∀ {s : State}, Sparse.rising s.cores = true → Sparse.rising (cs.foldl step s).cores = true ∧
      ∀ d, (cs.foldl step s).core d = if d ∈ cs then f d (s.core d) else s.core d := by
  induction cs with
  | nil => exact fun hs => ⟨hs, fun d => by simp⟩
  | cons c cs ih =>
    intro s hs
    obtain ⟨hrising, hcore⟩ := hstep s c hs
    obtain ⟨hlast, hlater⟩ := ih hrising
    refine ⟨hlast, fun d => ?_⟩
    rw [List.foldl_cons, hlater, hcore]
    by_cases hc : d = c <;> by_cases hd : d ∈ cs <;> simp [hc, hd, hf]

/-- Each core that the job holds stops, the others go on (R204, R321). -/
theorem State.core_stopCores {s : State} (h : Sparse.rising s.cores = true) (j : Job) (c q : Nat) :
    Sparse.rising (s.stopCores j c q).cores = true ∧
      ∀ d, (s.stopCores j c q).core d =
        if d ∈ s.coresOf j then (s.core d).stop (if d = c then some q else none) else s.core d :=
  State.core_foldl_at (f := fun d k => k.stop (if d = c then some q else none)) (fun _ k => k.stop_stop _)
    (fun _ d hu => State.core_stopCore hu c q d) (s.coresOf j) (s := s.modJob j.num (s.passesDropped j)) h

/-- What a function of the state that sees neither cores nor bank times finds once the cores have stopped. -/
theorem State.coresStopped_keeps {α : Type} (f : State → α) (h1 : ∀ s c k, f (State.setCore s c k) = f s)
    (h2 : ∀ s b, f (State.touchBank s b) = f s) (s : State) (j : Job) (c q : Nat) :
    f (s.coresStopped j c q) = f (s.modJob j.num (s.passesDropped j)) :=
  foldl_keeps f _ (fun u d => u.stopCore_keeps f h1 h2 c q d) _ _

theorem State.stopCores_regs (s : State) (j : Job) (c q : Nat) : (s.stopCores j c q).regs = s.regs :=
  s.coresStopped_keeps State.regs (fun _ _ _ => rfl) (fun _ _ => rfl) j c q

theorem State.stopCores_jobs (s : State) (j : Job) (c q : Nat) :
    (s.stopCores j c q).jobs = (s.modJob j.num (s.passesDropped j)).jobs :=
  s.coresStopped_keeps State.jobs (fun _ _ _ => rfl) (fun _ _ => rfl) j c q

theorem State.endless_stopCores (s : State) (j : Job) (c q : Nat) : (s.stopCores j c q).endless = s.endless :=
  s.coresStopped_keeps State.endless (fun _ _ _ => rfl) (fun _ _ => rfl) j c q

/-! ### The end of a job: its status -/

/-- A job as it ends with a status for the command q of core c (R203). -/
def Job.ended (k : Job) (st : Status) (c q : Nat) : Job :=
  { k with status := some st, faultCore := c, faultSeq := q, phase := .stopped, contained := none, saved := [], savedCmds := [] }

/-- A job without what its anchors have observed. -/
def Job.unobserved (k : Job) : Job := { k with observed := [] }

theorem State.unobserved_passesDropped (s : State) (j k : Job) : (s.passesDropped j k).unobserved = k.unobserved := by
  have hdrop : ∀ (k : Job) c e, (k.dropPass c e).unobserved = k.unobserved := fun k c e => by
    unfold Job.dropPass
    cases e.group <;> rfl
  exact (foldl_keeps Job.unobserved _ (fun k (e : Nat × Core) => hdrop k e.1 e.2) _ _).trans
    (foldl_keeps Job.unobserved _ (fun k d => hdrop k d _) _ _)

/-- A job that can still end stops its cores, gives up its dirty pairs and its page requests, and takes the status. -/
theorem State.endJob_eq {s : State} {num : Nat} {j : Job} (h : s.findJob num = some j) (hst : j.status = none) (st : Status)
    (c q : Nat) : s.endJob num st c q =
      ((((s.stopCores j c q).discardJob j).dropPages num).modJob num fun k => k.ended st c q) := by
  rw [State.endJob, h]
  simp only [hst, Option.isSome_none, Bool.false_eq_true, if_false]
  rfl

/-- Between s and t job j has ended with a status for the command q of core c: its cores stop, its pairs are dropped, and but
for counted discards, bank times, held commands and page requests nothing else changes. -/
structure JobEnds (s t : State) (j : Job) (st : Status) (c q : Nat) : Prop where
  core : ∀ d, t.core d = if d ∈ s.coresOf j then ((s.core d).stop (if d = c then some q else none)).undirtied j.num else s.core d
  jobs : (t.jobs.map fun k => if k.num = j.num then k.unobserved else k) =
    s.jobs.map fun k => if k.num = j.num then (k.ended st c q).unobserved else k
  reg : ∀ off, ¬ endReg off → t.reg off = s.reg off
  rest : t.endless = s.endless

theorem State.endJob_ends {s : State} (hcores : Sparse.rising s.cores = true) (hregs : Sparse.rising s.regs = true) {j : Job}
    (h : s.findJob j.num = some j) (hst : j.status = none) (st : Status) (c q : Nat) :
    JobEnds s (s.endJob j.num st c q) j st c q := by
  obtain ⟨hrising, hcore⟩ := State.core_stopCores hcores j c q
  obtain ⟨-, hnum⟩ := State.mem_of_findJob h
  have hstopRegs := s.stopCores_regs j c q
  have hjobs : ((s.stopCores j c q).discardJob j).jobs = (s.modJob j.num (s.passesDropped j)).jobs :=
    (State.discardJob_keeps State.jobs (fun _ _ _ => rfl) (fun _ _ _ => rfl) _ j).trans (s.stopCores_jobs j c q)
  have hheld : (s.stopCores j c q).coresOf j = s.coresOf j := by
    refine List.filter_congr fun d _ => ?_
    rw [hcore]
    split <;> rfl
  rw [State.endJob_eq h hst]
  constructor
  case core =>
    intro d
    have hd : (((((s.stopCores j c q).discardJob j).dropPages j.num).modJob j.num fun k => k.ended st c q).core d) =
      ((s.stopCores j c q).discardJob j).core d := rfl
    rw [hd, State.core_discardJob hrising, hheld, hcore]
    split <;> rfl
  case jobs =>
    rw [State.modJob, State.dropPages_jobs, hjobs]
    simp only [State.modJob, List.map_map]
    refine List.map_congr_left fun k _ => ?_
    have hk := s.unobserved_passesDropped j k
    have hkn : (s.passesDropped j k).num = k.num := (congrArg Job.num hk :)
    by_cases hkj : k.num = j.num
    · have hend : ((s.passesDropped j k).ended st c q).unobserved = (k.ended st c q).unobserved :=
        (congrArg (fun k => k.ended st c q) hk :)
      simpa [hkj, hnum, hkn, Job.ended] using hend
    · simp [hkj]
  case reg =>
    intro off hoff
    have hreg : (((((s.stopCores j c q).discardJob j).dropPages j.num).modJob j.num fun k => k.ended st c q).reg off) =
      ((s.stopCores j c q).discardJob j).reg off := rfl
    rw [hreg, ((Prepared.discardJob _ j).regs (by rw [hstopRegs]; exact hregs)).2 off hoff, State.reg, hstopRegs]
    rfl
  case rest =>
    exact (State.discardJob_keeps State.endless (fun _ _ _ => rfl) (fun _ _ _ => rfl) _ j).trans (s.endless_stopCores j c q)

/-! ### A refusal -/

/-- The state in which a refusal is logged and counted, before the job ends (R301). -/
def State.refusalLogged (s : State) (x : Site) (cause : Nat) : State :=
  (((s.setReg Reg.GLB_CMD_LOG0
      (refusalWord cause (max (s.fld Reg.GLB_CMD_LOG0 6 1) (s.fld Reg.GLB_CMD_LOG0 7 1)) x.op x.seq)).setReg Reg.GLB_CMD_LOG1
      (BitVec.ofNat 64 (place x.core 0 11 + place x.ring 16 6))).setReg Reg.GLB_CMD_LOG2
      (BitVec.ofNat 64 (place x.job 0 24))).count Reg.GLB_CMD_REFUSALS 1

theorem State.refuse_eq (s : State) (x : Site) (cause : Nat) :
    s.refuse x cause = (s.refusalLogged x cause).endJob x.job .badCmd x.core x.seq := rfl

theorem State.rising_refusalLogged {s : State} (h : Sparse.rising s.regs = true) (x : Site) (cause : Nat) :
    Sparse.rising (s.refusalLogged x cause).regs = true := by
  unfold State.refusalLogged
  exact State.rising_count (State.rising_setReg (State.rising_setReg (State.rising_setReg h _ _) _ _) _ _) _ _

/-- The registers after a refusal is logged. -/
theorem State.refusalLogged_reg {s : State} (h : Sparse.rising s.regs = true) (x : Site) (cause off : Nat) :
    (s.refusalLogged x cause).reg off =
      if off = Reg.GLB_CMD_REFUSALS then s.reg off + 1
      else if off = Reg.GLB_CMD_LOG2 then BitVec.ofNat 64 (place x.job 0 24)
      else if off = Reg.GLB_CMD_LOG1 then BitVec.ofNat 64 (place x.core 0 11 + place x.ring 16 6)
      else if off = Reg.GLB_CMD_LOG0 then
        refusalWord cause (max (s.fld Reg.GLB_CMD_LOG0 6 1) (s.fld Reg.GLB_CMD_LOG0 7 1)) x.op x.seq
      else s.reg off := by
  have h0 := State.rising_setReg h Reg.GLB_CMD_LOG0
    (refusalWord cause (max (s.fld Reg.GLB_CMD_LOG0 6 1) (s.fld Reg.GLB_CMD_LOG0 7 1)) x.op x.seq)
  have h1 := State.rising_setReg h0 Reg.GLB_CMD_LOG1 (BitVec.ofNat 64 (place x.core 0 11 + place x.ring 16 6))
  have h2 := State.rising_setReg h1 Reg.GLB_CMD_LOG2 (BitVec.ofNat 64 (place x.job 0 24))
  rw [State.refusalLogged, State.reg_count h2, State.reg_setReg h1, State.reg_setReg h1, State.reg_setReg h0,
    State.reg_setReg h0, State.reg_setReg h, State.reg_setReg h]
  by_cases hoff : off = Reg.GLB_CMD_REFUSALS
  · subst hoff
    rfl
  · simp only [hoff, if_false]

/-- The registers of the cores stay as they are when a refusal is logged. -/
theorem State.refusalLogged_coreReg {s : State} (h : Sparse.rising s.regs = true) (x : Site) (cause c o : Nat) :
    (s.refusalLogged x cause).reg (coreReg c o) = s.reg (coreReg c o) := by
  have hcore : 0x01000000 ≤ coreReg c o := by unfold coreReg coreBase; omega
  rw [State.refusalLogged_reg h, if_neg, if_neg, if_neg, if_neg] <;>
    simp only [Reg.GLB_CMD_REFUSALS, Reg.GLB_CMD_LOG0, Reg.GLB_CMD_LOG1, Reg.GLB_CMD_LOG2] <;> omega

/-- A log of refusals and a count of issued commands are none of the registers that the end of a job changes. -/
theorem refusalRegs_not_endReg {off : Nat} (h : (∃ c, off = Reg.SEQ_ISSUED c) ∨
    off ∈ [Reg.GLB_CMD_LOG0, Reg.GLB_CMD_LOG1, Reg.GLB_CMD_LOG2, Reg.GLB_CMD_REFUSALS]) : ¬ endReg off := by
  simp only [List.mem_cons, List.not_mem_nil, or_false, Reg.GLB_CMD_LOG0, Reg.GLB_CMD_LOG1, Reg.GLB_CMD_LOG2,
    Reg.GLB_CMD_REFUSALS, Reg.SEQ_ISSUED, coreReg, coreBase] at h
  simp only [endReg, Reg.SYN_OPS, Reg.ACM_COMMITS, Reg.ACM_DISCARDS, coreReg, coreBase, not_or, not_exists]
  rcases h with ⟨c, rfl⟩ | h <;> exact ⟨by omega, fun d => ⟨by omega, by omega⟩⟩

/-- A byte of memory is as before where a job ends. -/
theorem JobEnds.cell {s t : State} {j : Job} {st : Status} {c q : Nat} (h : JobEnds s t j st c q) (m : MemCell) :
    t.cell m = s.cell m := by
  cases m with
  | core d off =>
    have hmem : (t.core d).mem = (s.core d).mem := by
      rw [h.core]
      split <;> rfl
    simp only [State.cell, hmem]
  | shared off => exact State.keeps_of_endless (fun u => Sparse.get 0 u.shared off) (fun _ => rfl) h.rest
  | stacked pa => exact State.keeps_of_endless (fun u => Sparse.get 0 u.stacked pa) (fun _ => rfl) h.rest
  | host va => exact State.keeps_of_endless (fun u => Sparse.get 0 u.host va) (fun _ => rfl) h.rest

/-- A refusal ends the job from the state in which it is logged. -/
theorem State.refuse_ends {s : State} (hm : s.Maps) {x : Site} {j : Job} (hfind : s.findJob x.job = some j)
    (hst : j.status = none) (cause : Nat) :
    JobEnds (s.refusalLogged x cause) (s.refuse x cause) j .badCmd x.core x.seq := by
  obtain ⟨hnum, -⟩ := State.mem_of_findJob hfind
  rw [State.refuse_eq, ← hnum]
  rw [← hnum] at hfind
  exact State.endJob_ends (s := s.refusalLogged x cause) hm.cores (State.rising_refusalLogged hm.regs x cause) hfind hst _ _ _

/-- Between s and t a refusal is logged and counted (R301). -/
structure RefusalReported (s t : State) (x : Site) (cause : Nat) : Prop where
  cause : t.fld Reg.GLB_CMD_LOG0 0 6 = cause
  valid : t.fld Reg.GLB_CMD_LOG0 6 1 = 1
  again : t.fld Reg.GLB_CMD_LOG0 7 1 = max (s.fld Reg.GLB_CMD_LOG0 6 1) (s.fld Reg.GLB_CMD_LOG0 7 1)
  op : t.fld Reg.GLB_CMD_LOG0 8 8 = x.op % 256
  seq : t.fld Reg.GLB_CMD_LOG0 16 16 = x.seq % 65536
  core : t.fld Reg.GLB_CMD_LOG1 0 11 = x.core % 2048
  ring : t.fld Reg.GLB_CMD_LOG1 16 6 = x.ring % 64
  job : t.fld Reg.GLB_CMD_LOG2 0 24 = x.job % 2 ^ 24
  counted : t.reg Reg.GLB_CMD_REFUSALS = s.reg Reg.GLB_CMD_REFUSALS + 1

theorem State.refuse_reported {s : State} (hm : s.Maps) {x : Site} {j : Job} (hfind : s.findJob x.job = some j)
    (hst : j.status = none) {cause : Nat} (hcause : cause < 64) : RefusalReported s (s.refuse x cause) x cause := by
  have hends := State.refuse_ends hm hfind hst cause
  have hreg := State.refusalLogged_reg hm.regs x cause
  have hlog0 : (s.refuse x cause).reg Reg.GLB_CMD_LOG0 = _ :=
    (hends.reg _ (refusalRegs_not_endReg (.inr (by decide)))).trans (hreg _)
  have hlog1 : (s.refuse x cause).reg Reg.GLB_CMD_LOG1 = _ :=
    (hends.reg _ (refusalRegs_not_endReg (.inr (by decide)))).trans (hreg _)
  have hlog2 : (s.refuse x cause).reg Reg.GLB_CMD_LOG2 = _ :=
    (hends.reg _ (refusalRegs_not_endReg (.inr (by decide)))).trans (hreg _)
  obtain ⟨hc, hvalid, hagain, hop, hseq⟩ := bits_refusalWord x.op x.seq hcause
    (Nat.max_lt.mpr ⟨s.fld_bit_lt Reg.GLB_CMD_LOG0 6, s.fld_bit_lt Reg.GLB_CMD_LOG0 7⟩)
  obtain ⟨hcore, hring⟩ := bits_refusalPlace x.core x.ring
  exact
    { cause := (congrArg (bits · 0 6) hlog0).trans hc
      valid := (congrArg (bits · 6 1) hlog0).trans hvalid
      again := (congrArg (bits · 7 1) hlog0).trans hagain
      op := (congrArg (bits · 8 8) hlog0).trans hop
      seq := (congrArg (bits · 16 16) hlog0).trans hseq
      core := (congrArg (bits · 0 11) hlog1).trans hcore
      ring := (congrArg (bits · 16 6) hlog1).trans hring
      job := (congrArg (bits · 0 24) hlog2).trans (bits_refusalJob x.job)
      counted := (hends.reg _ (refusalRegs_not_endReg (.inr (by decide)))).trans (hreg _) }

/-- A refused command: its refusal is logged, then its job ends (R301). -/
theorem refusedCommandEndsItsJob : RefusedCommandEndsItsJob := by
  intro s j c h i n hi hord hturn hst hn seq
  obtain ⟨body, hexec⟩ := exec_of_tileOf hi
  have hm := hord.maps
  obtain ⟨hholder, -⟩ := hturn.holder
  obtain ⟨hnum, -⟩ := State.mem_of_findJob hholder
  have hfind : s.findJob j.num = some j := by rw [hnum]; exact hholder
  set x := refusalSite s j c.toNat i
  have hlog : RefusalReported s (s.refuse x n) x n := State.refuse_reported hm hfind hst (leastCause_lt hn)
  have hends : JobEnds (s.refusalLogged x n) (s.refuse x n) j .badCmd c.toNat seq := State.refuse_ends hm hfind hst n
  refine ⟨s.refuse x n, ?_, hlog.cause, hlog.valid, hlog.again, ?_, hlog.seq, ?_, hlog.ring, hlog.job, hlog.counted, ?_,
    hends.jobs, fun d hd => ?_, ?_, hends.cell, ?_, ?_⟩
  · rw [hexec, hturn.tile_eq, State.atHead_refuses hn]
  · exact hlog.op.trans (Nat.mod_eq_of_lt (opcodeOf_lt i))
  · exact hlog.core.trans (Nat.mod_eq_of_lt c.isLt)
  · exact (hends.reg _ (refusalRegs_not_endReg (.inl ⟨c.toNat, rfl⟩))).trans (State.refusalLogged_coreReg hm.regs x n _ _)
  · have hcore : (s.refuse x n).core d = ((s.core d).stop (if d = c.toNat then some seq else none)).undirtied j.num :=
      (hends.core d).trans (if_pos hd)
    rw [hcore]
    refine ⟨?_, rfl⟩
    by_cases hdc : d = c.toNat
    · subst hdc
      simp [Core.undirtied, Core.stop, hturn.idle]
    · simp [Core.undirtied, Core.stop, hdc]
  · exact State.keeps_of_endless State.eq (fun _ => rfl) hends.rest
  · exact State.keeps_of_endless State.expo (fun _ => rfl) hends.rest
  · exact State.keeps_of_endless State.sync (fun _ => rfl) hends.rest

/-- A skipped command: only its core and the count of skipped commands change (R312). -/
theorem skippedCommandHasNoEffect : SkippedCommandHasNoEffect := by
  intro s j c h i hi hord hturn hskip hn
  obtain ⟨body, hexec⟩ := exec_of_tileOf hi
  have hm := hord.maps
  have hreg := State.reg_count (s := s.modCore c.toNat Core.skipped) hm.regs (Reg.SEQ_SKIPPED c.toNat) 1
  refine ⟨_, by rw [hexec, hturn.tile_eq, State.atHead_skips hn hskip], fun d => ?_, ?_, fun off hoff => ?_, rfl⟩
  · exact State.core_modCore hm.cores c.toNat Core.skipped d
  · exact (hreg _).trans (if_pos rfl)
  · exact (hreg _).trans (if_neg hoff)

end Sys2Proof.Machine

open Sys2Proof Sys2Proof.Machine Sys2Proof.Certificates.Slice0

/-- Settles O22: a refusal is logged and then its job ends; a skip changes its core and one count. -/
theorem commandsRefusedOrSkipped : Obligations.CommandsRefusedOrSkipped :=
  ⟨refusedCommandEndsItsJob, skippedCommandHasNoEffect⟩

end

section
namespace Sys2Proof.Machine

open Sys2Proof.Certificates.Slice0

/-! ### A MOVE on the ring whose limits move

The device of `movingState` once more, whose job's issue moves the lower limit of core memory behind byte 0. -/

/-- MOVE PLAIN of one element of 8 bits, from byte 0 to byte 1 of core memory. -/
def oneMove : MoveArgs := { moveOf 0 0 0 with esize := 2, dst := 1, n0 := 1, n1 := 1, n2 := 1 }

/-- That MOVE as a command of core 0. -/
def oneMoveInstr : Instr := .movePlain 0 (hdrOf 0) oneMove

theorem movingState_move_dataReady : DataReady movingState movingJob 0 (hdrOf 0) oneMoveInstr where
  toInTurn := movingState_starts.toInTurn
  turn := movingState_starts.turn
  fits := by decide +kernel
  banks := by decide +kernel
  free_ := by decide +kernel
  order := movingState_dataReady.order
  sound := movingState_dataReady.sound
  reach := by unfold opersReady; decide +kernel
  unchecked := movingState_dataReady.unchecked

/-- The command ends with a resource fault: once it is counted, byte 0 lies below the ring's lower limit. -/
theorem exec_oneMove_faults {t : State} (h : exec oneMoveInstr movingState = .next t) :
    t.reg Reg.GLB_RES_FAULTS = 1 :=
  of_decide_eq_true (Answer.leaves_next (check := fun t => decide (t.reg Reg.GLB_RES_FAULTS = 1)) (by decide +kernel) h)

end Sys2Proof.Machine

open Sys2Proof Sys2Proof.Machine Sys2Proof.Certificates.Slice0

/-- Refutes O16: no hypothesis bounds the ring of the job. The lower CORE limit of a ring of number 0xEFF8 stands where core 0
counts its issued commands, so the issue of a MOVE PLAIN moves the limit behind byte 0 of its source, and the command ends with a
resource fault (R220, R257) where the statement has it complete. -/
theorem not_moveCopiesItsElements : ¬ Obligations.MoveCopiesItsElements := by
  intro h
  obtain ⟨t, hexec, -, hdone, -⟩ := h movingState movingJob 0 (hdrOf 0) oneMove .plain oneMoveInstr ⟨0, 0, 0⟩ ⟨0, 0, 1⟩
    (.inl ⟨rfl, rfl⟩) movingState_move_dataReady (by decide +kernel) (by decide +kernel)
  obtain ⟨-, -, hregs, -⟩ := hdone
  have hfaults := hregs Reg.GLB_RES_FAULTS (by decide) (by decide)
  rw [exec_oneMove_faults hexec] at hfaults
  exact absurd hfaults (by decide +kernel)

end

section
namespace Sys2Proof.Machine

/-! ### The head jobs and their order -/

theorem State.headJob_ring {s : State} {n : Nat} {j : Job} (h : s.headJob n = some j) : j ∈ s.jobs ∧ j.ring = n := by
  have hmem := List.mem_of_find?_eq_some h
  simpa [State.jobsOf] using hmem

theorem State.mem_admissibles {s : State} {j : Job} (h : j ∈ s.admissibles) :
    s.headJob j.ring = some j ∧ s.admissible j = true := by
  obtain ⟨hhead, hadm⟩ := List.mem_filter.mp h
  obtain ⟨n, -, hn⟩ := List.mem_filterMap.mp hhead
  rw [(State.headJob_ring hn).2]
  exact ⟨hn, hadm⟩

/-- The better placed of two jobs, the first where they stand alike. -/
def State.betterRank (s : State) (b : Option Job) (j : Job) : Option Job :=
  match b with
  | none => some j
  | some k => if s.rank j.ring < s.rank k.ring then some j else some k

/-- The choice over a list is of the list, or the job it began with, and no job of either is placed better. -/
theorem State.foldl_betterRank (s : State) (l : List Job) (b : Option Job) {j : Job} (h : l.foldl s.betterRank b = some j) :
    (j ∈ l ∨ b = some j) ∧ (∀ k ∈ l, s.rank j.ring ≤ s.rank k.ring) ∧ ∀ k ∈ b, s.rank j.ring ≤ s.rank k.ring := by
  induction l generalizing b with
  | nil =>
    obtain rfl : b = some j := h
    exact ⟨.inr rfl, List.forall_mem_nil _, fun k hk => by rw [Option.some.inj hk]⟩
  | cons a l ih =>
    obtain ⟨hmem, hl, hb⟩ := ih _ h
    cases b with
    | none =>
      have ha := hb a rfl
      refine ⟨.inl ?_, List.forall_mem_cons.mpr ⟨ha, hl⟩, fun k hk => absurd hk (Option.not_mem_none k)⟩
      rcases hmem with hmem | hmem
      · exact List.mem_cons_of_mem _ hmem
      · rw [Option.some.inj hmem]; exact List.mem_cons_self
    | some k =>
      by_cases hlt : s.rank a.ring < s.rank k.ring
      · rw [State.betterRank, if_pos hlt] at hmem hb
        have ha := hb a rfl
        refine ⟨.inl ?_, List.forall_mem_cons.mpr ⟨ha, hl⟩, fun k' hk' => ?_⟩
        · rcases hmem with hmem | hmem
          · exact List.mem_cons_of_mem _ hmem
          · rw [Option.some.inj hmem]; exact List.mem_cons_self
        · rw [← Option.some.inj hk']; omega
      · rw [State.betterRank, if_neg hlt] at hmem hb
        have hk := hb k rfl
        refine ⟨hmem.imp_left (List.mem_cons_of_mem _), List.forall_mem_cons.mpr ⟨by omega, hl⟩, fun k' hk' => ?_⟩
        rw [← Option.some.inj hk']; exact hk

theorem State.toAdmit_eq (s : State) :
    s.toAdmit = (s.admissibles.filter fun j => s.coresFree j && !s.outranked j).foldl s.betterRank none := rfl

/-! ### A job that starts -/

theorem Core.begin_begin (num : Nat) (k : Core) : (k.begin_ num).begin_ num = k.begin_ num := rfl

/-- The number of the job that starts next (R268). -/
def State.nextJob (s : State) : Nat := if s.lastJob + 1 < 2 ^ 32 then s.lastJob + 1 else 1

/-- A job as it starts. -/
def State.begins (s : State) (k : Job) : Job := { k with num := s.nextJob, phase := .running, epoch := s.cfg.cur.toNat }

/-- The jobs once job j has started. -/
def State.jobsBegun (s : State) (j : Job) : List Job := s.jobs.map fun k => if k.ring = j.ring ∧ k.idx = j.idx then s.begins k else k

/-- The state once job j has started, but for its journal. -/
def State.admitted (s : State) (j : Job) : State :=
  { j.cores.foldl (fun u c => u.modCore c (·.begin_ s.nextJob)) { s with jobs := s.jobsBegun j } with
    lastJob := s.nextJob, lastRing := j.ring }

theorem State.startJob_eq (s : State) (j : Job) : s.startJob j = (s.admitted j).journal s.nextJob .open_ := rfl

theorem State.foldl_modCore_eq (f : Core → Core) (cs : List Nat) (s : State) :
    cs.foldl (fun u c => u.modCore c f) s = { s with cores := (cs.foldl (fun u c => u.modCore c f) s).cores } := by
  induction cs generalizing s with
  | nil => rfl
  | cons c cs ih => rw [List.foldl_cons, ih]; rfl

theorem State.core_foldl_begin {s : State} (h : Sparse.rising s.cores = true) (num : Nat) (cs : List Nat) (d : Nat) :
    (cs.foldl (fun u c => u.modCore c (·.begin_ num)) s).core d = if d ∈ cs then (s.core d).begin_ num else s.core d := by
  refine State.core_foldl (f := (·.begin_ num)) (Core.begin_begin num) (fun u c hu => ⟨State.rising_modCore hu _ _, fun d => ?_⟩) cs h d
  rw [State.core_modCore hu]
  split
  · next hd => rw [hd]
  · rfl

/-- A job that starts and is not replayable writes no record of it (R323). -/
theorem State.journal_admitted {s : State} {j : Job} (hj : j.replayable = false)
    (hplace : ∀ k ∈ s.jobs, k.ring = j.ring → k.idx = j.idx → k = j) (hnum : s.findJob s.nextJob = none) (r : JRec) :
    (s.admitted j).journal s.nextJob r = s.admitted j := by
  have hjobs : (s.admitted j).jobs = s.jobsBegun j := by
    rw [State.admitted, State.foldl_modCore_eq]
  cases hfind : (s.admitted j).findJob s.nextJob with
  | none => simp [State.journal, hfind]
  | some k =>
    refine State.journal_not_replayable hfind ?_ r
    have hk : k ∈ s.jobsBegun j := hjobs ▸ List.mem_of_find?_eq_some hfind
    obtain ⟨k', hk', rfl⟩ := List.mem_map.mp hk
    by_cases hat : k'.ring = j.ring ∧ k'.idx = j.idx
    · rw [if_pos hat, hplace k' hk' hat.1 hat.2]; exact hj
    · rw [if_neg hat] at hfind
      have hfree := List.find?_eq_none.mp hnum k' hk'
      exact absurd (State.mem_of_findJob hfind) (by simpa using hfree)

end Sys2Proof.Machine

open Sys2Proof Sys2Proof.Machine Sys2Proof.Certificates.Slice0

/-- The admission's choice. -/
theorem admissionTakesTheBestRank : AdmissionTakesTheBestRank := by
  intro s j h
  rw [State.toAdmit_eq] at h
  obtain ⟨hmem, hbest, -⟩ := s.foldl_betterRank _ none h
  obtain ⟨hadm, hfree⟩ := List.mem_filter.mp (hmem.resolve_right (by simp))
  obtain ⟨hcores, hrank⟩ : s.coresFree j = true ∧ s.outranked j = false := by simpa using hfree
  obtain ⟨hhead, hok⟩ := State.mem_admissibles hadm
  refine ⟨hok, hcores, hrank, hhead, fun k hk hkc hkr => hbest k ?_⟩
  exact List.mem_filter.mpr ⟨hk, by simp [hkc, hkr]⟩

/-- The start of a job that is not replayable. -/
theorem admittedJobStarts : AdmittedJobStarts := by
  intro s j ho hadmit hj hplace num hnum
  refine ⟨s.admitted j, ?_, ?_, fun c => ?_, ?_⟩
  · rw [← State.journal_admitted hj hplace hnum .open_, ← State.startJob_eq]
    show Host.Outcome.next _ = _
    rw [hadmit]
  · rw [State.admitted, State.foldl_modCore_eq]; rfl
  · exact State.core_foldl_begin (s := { s with jobs := s.jobsBegun j }) ho.maps.cores s.nextJob j.cores c
  · rw [State.admitted, State.foldl_modCore_eq]; rfl

/-- Settles O27: the admission is a choice of the least rank, and what starts the job changes its place in the list and its cores. -/
theorem jobsAreAdmittedAndStart : Obligations.JobsAreAdmittedAndStart :=
  ⟨admissionTakesTheBestRank, admittedJobStarts⟩
end

section
namespace Sys2Proof.Machine

open Sys2Proof.Certificates.Slice0

/-! ### A state but for one core -/

/-- u is t but for core c, which is k. -/
structure CoreIs (t u : State) (c : Nat) (k : Core) : Prop where
  rest : u = { t with cores := u.cores }
  core : ∀ d, u.core d = if d = c then k else t.core d
  rising : Sparse.rising u.cores = true

theorem CoreIs.modCore {t u : State} {c : Nat} {k : Core} (h : CoreIs t u c k) (f : Core → Core) :
    CoreIs t (u.modCore c f) c (f k) where
  rest := by rw [h.rest]; rfl
  core d := by
    rw [State.core_modCore h.rising, h.core c, if_pos rfl]
    split
    · rfl
    · next hd => rw [h.core d, if_neg hd]
  rising := State.rising_modCore h.rising _ _

theorem CoreIs.of_modCore {t : State} (h : Sparse.rising t.cores = true) (c : Nat) (f : Core → Core) :
    CoreIs t (t.modCore c f) c (f (t.core c)) where
  rest := rfl
  core d := State.core_modCore h c f d
  rising := State.rising_modCore h _ _

/-- A running core with these commands issued. -/
def Core.issuing (k : Core) (l : List Issued) : Core := { k with seqState := .running, issued := l }

@[simp] theorem Core.issuing_issued (k : Core) (l : List Issued) : (k.issuing l).issued = l := rfl

/-- A command's own record changed, where it is the only one. -/
theorem CoreIs.mod {t u : State} {x : Cx} {k : Core} {r : Issued} (h : CoreIs t u x.c (k.issuing [r]))
    (hr : r.seq = x.site.seq) (f : Issued → Issued) : CoreIs t (x.mod f u) x.c (k.issuing [f r]) := by
  have hmap : [r].map (fun i => if i.seq = x.site.seq then f i else i) = [f r] := by simp [hr]
  have hmod := h.modCore fun k => { k with issued := k.issued.map fun i => if i.seq = x.site.seq then f i else i }
  simp only [Core.issuing, hmap] at hmod
  exact hmod

theorem CoreIs.issuedOf {t u : State} {c q : Nat} {k : Core} {r : Issued} (h : CoreIs t u c (k.issuing [r])) (hr : r.seq = q) :
    u.issuedOf c q = some r := by
  simp [State.issuedOf, h.core, hr]

/-! ### Commands of the sequencer that name nothing -/

/-- A command of the sequencer that names no memory operand, no tile row and no slot, and sends no request (R208, R302). -/
structure Plain (i : Instr) : Prop where
  engines : enginesOf i = [.seq]
  opers : ∀ s x, opersOf s x i = []
  rows : ∀ s x, rowsOf s x i = []
  latch : ∀ s x, latchOf s x i = none
  near : ∀ s x, isRemote s x i = false
  opcode : opcodeOf i ≠ 1

/-- What the issue of a command does to its core beside its anchor and its rescale group (R219, R403). -/
def Core.onHead (k : Core) : Instr → Core
  | .task _ _ f => { k with task := k.task.set f }
  | .phase _ _ op => { k with phaseOp := some op }
  | _ => k

theorem Core.onIssue_eq (k : Core) (i : Instr) (h : Hdr) (rows : List Nat) :
    k.onIssue i h rows = (k.onGroup i h rows).onHead i := by
  cases i <;> rfl

/-- Issue's work on a core does not look at the commands issued nor at the sequencer's state. -/
theorem Core.onGroup_issuing (k : Core) (i : Instr) (h : Hdr) (rows : List Nat) (l : List Issued) :
    (k.issuing l).onGroup i h rows = (k.onGroup i h rows).issuing l := by
  unfold Core.onGroup
  have hcommit : (if commits h i = true then { k.issuing l with
        lastAnchor := none
        group := (k.issuing l).group.map fun g => if meet g.rows rows then { g with closing := some h.seq.toNat } else g }
      else k.issuing l) = (if commits h i = true then { k with
        lastAnchor := none, group := k.group.map fun g => if meet g.rows rows then { g with closing := some h.seq.toNat } else g }
      else k).issuing l := by
    split <;> rfl
  dsimp only
  rw [hcommit]
  generalize (if commits h i = true then _ else k) = k'
  split
  · split <;> rfl
  · split <;> rfl
  · split <;> rfl
  · split
    · cases hg : k'.group <;> cases ha : k'.lastAnchor <;> simp [Core.issuing, hg, ha]
    · rfl
  · rfl

/-- The device once a command of core c has been counted (R317). -/
def State.counted (s : State) (c : Nat) : State := s.count (Reg.SEQ_ISSUED c) 1

/-- Core c once a command that names no tile row has left its buffer. -/
def State.ahead (s : State) (c : Nat) (h : Hdr) (i : Instr) : Core := (((s.core c).onGroup i h []).onHead i).next

theorem Core.onHead_issuing (k : Core) (i : Instr) (l : List Issued) : (k.issuing l).onHead i = (k.onHead i).issuing l := by
  cases i <;> rfl

namespace Plain

variable {s : State} {j : Job} {c : Nat} {h : Hdr} {i : Instr} (hi : Plain i)

include hi

theorem record_eq (u : State) : u.record (headCx s j c h i) i = (headCx s j c h i).mod (fun r => { r with rows := [], remote := false })
    ((headCx s j c h i).mod id u) := by
  simp only [State.record, hi.rows, hi.near, hi.latch, Option.elim_none, State.footprint, hi.opers, List.foldl_nil]
  rfl

/-- A command in its turn issues. -/
theorem issued_is (hcores : Sparse.rising s.cores = true) (hidle : (s.core c).issued = []) :
    CoreIs (s.counted c) (s.issued j c h i) c ((s.ahead c h i).issuing [s.issueRecord j c i h]) := by
  have hissue : CoreIs (s.counted c) (s.issue c i h (s.issueRecord j c i h) []) c
      ((s.ahead c h i).issuing [s.issueRecord j c i h]) := by
    have hk : ({ s.core c with issued := (s.core c).issued ++ [s.issueRecord j c i h], seqState := .running } : Core) =
        (s.core c).issuing [s.issueRecord j c i h] := by rw [hidle]; rfl
    have hmod := CoreIs.of_modCore (t := s.counted c) hcores c fun k =>
      (({ k with issued := k.issued ++ [s.issueRecord j c i h], seqState := .running } : Core).onIssue i h []).next
    have hcore : (s.counted c).core c = s.core c := rfl
    rw [hcore, hk, Core.onIssue_eq, Core.onGroup_issuing, Core.onHead_issuing] at hmod
    exact hmod
  unfold State.issued
  dsimp only
  rw [hi.rows, hi.record_eq]
  exact ((hissue.mod (x := headCx s j c h i) rfl id).mod rfl fun r => { r with rows := [], remote := false })

theorem startCx_eq (hcores : Sparse.rising s.cores = true) (hidle : (s.core c).issued = []) :
    startCx s j c h i = headCx s j c h i := by
  have hrecord := (hi.issued_is (j := j) (h := h) hcores hidle).issuedOf (q := h.seq.toNat) rfl
  unfold startCx Cx.fresh
  rw [show (headCx s j c h i).site.seq = h.seq.toNat from rfl, show (headCx s j c h i).c = c from rfl, hrecord]
  rfl

/-- A command in its turn begins its work. -/
theorem begun_is (hcores : Sparse.rising s.cores = true) (hidle : (s.core c).issued = []) :
    CoreIs (s.counted c) (s.begun j c h i) c ((s.ahead c h i).issuing [s.issueRecord j c i h]) := by
  have hsparse : (enginesOf i).contains .sparse = false := by rw [hi.engines]; rfl
  have hseq : (enginesOf i).contains .seq = true := by rw [hi.engines]; rfl
  have hissued := hi.issued_is (j := j) (h := h) hcores hidle
  have hticks : (s.issued j c h i).ticks = s.ticks := by rw [hissued.rest]; rfl
  rw [State.begun, hi.startCx_eq hcores hidle]
  simp only [State.startRun, hsparse, hseq, Bool.false_eq_true, false_and, if_false, Bool.not_true, Bool.or_false, hticks]
  exact hissued.mod (x := headCx s j c h i) rfl _

/-- A command in its turn answers what becomes of its work. -/
theorem tile_eq (ho : s.ordered) (ha : AtHead s j c h i) (body : Cx → Act Unit) :
    s.tile c h i body = State.ends (headCx s j c h i) i ((body (headCx s j c h i)).run (s.begun j c h i)) := by
  have hcores := ho.maps.cores
  rw [tile_starts hcores (starts_of_head hcores ha hi.engines hi.opers hi.opcode hi.latch) body, hi.startCx_eq hcores ha.idle]

end Plain

/-- A record whose command's work is done. -/
def Issued.finished (r : Issued) : Issued := { r with done := true }

/-- A core that the command with a sequence number has left. -/
def Core.without (q : Nat) (k : Core) : Core := { k with issued := k.issued.filter fun r => r.seq ≠ q }

theorem Core.without_issuing {q : Nat} {r : Issued} (hr : r.seq = q) (k : Core) : (k.issuing [r]).without q = k.issuing [] := by
  simp [Core.without, Core.issuing, hr]

/-- A command that has done its work, with no operand and no row, completes: its record goes, with what answered it (R68, R226). -/
theorem CoreIs.endRun {s u t : State} {j : Job} {c : Nat} {h : Hdr} {i : Instr} {k : Core} (hwait : waits i = false)
    (hcore : CoreIs u t c (k.issuing [s.issueRecord j c i h])) :
    CoreIs (u.forgets j.num c h.seq.toNat) (t.endRun (headCx s j c h i) i) c (k.issuing []) := by
  set x := headCx s j c h i
  have htags : t.finishTags x = t := by
    rw [State.finishTags, show t.issuedOf x.c x.site.seq = _ from hcore.issuedOf rfl]; rfl
  have hdone : CoreIs u (x.mod Issued.finished t) c (k.issuing [(s.issueRecord j c i h).finished]) :=
    hcore.mod (x := x) rfl Issued.finished
  have hretire : t.endRun x i = (x.mod Issued.finished t).retire x := by
    rw [State.endRun, hwait, htags]
    simp only [Bool.false_and, Bool.false_eq_true, if_false, State.completeTile]
    rw [if_pos (.inr (.inl (ite_self [])))]
    rfl
  set t1 := x.mod Issued.finished t
  have hrelease : (t1.issuedOf x.c x.site.seq).elim t1 t1.release = t1 := by
    rw [show t1.issuedOf x.c x.site.seq = _ from hdone.issuedOf rfl]; rfl
  have hgone := hdone.modCore (Core.without h.seq.toNat)
  rw [Core.without_issuing (q := h.seq.toNat) (r := (s.issueRecord j c i h).finished) rfl] at hgone
  have hforgets : t.endRun x i = (t1.modCore c (Core.without h.seq.toNat)).forgets j.num c h.seq.toNat := by
    rw [hretire, State.retire, hrelease]; rfl
  rw [hforgets]
  exact ⟨by rw [hgone.rest]; rfl, hgone.core, hgone.rising⟩

/-- What a command in its turn leaves that has done its work and names no row: its own changes, its core past it. -/
theorem CoreIs.completedAs {s u t : State} {j : Job} {c : Nat} {h : Hdr} {k : Core} {extra : State → State}
    (hs : Sparse.rising s.regs = true) (hcore : CoreIs (u.forgets j.num c h.seq.toNat) t c k) (hcores : u.cores = s.cores)
    (hregs : u.regs = (s.counted c).regs) (hpower : u.power.still = s.power.still)
    (hextra : ∀ m, { u.forgets j.num c h.seq.toNat with cores := m } =
      extra { s.forgets j.num c h.seq.toNat with cores := m, regs := u.regs, power := u.power }) :
    CompletedAs s t j c h (s.coresWith c k) [] extra := by
  have htregs : t.regs = u.regs := by rw [hcore.rest]; rfl
  have htpower : t.power = u.power := by rw [hcore.rest]; rfl
  have hreg : ∀ off, t.reg off = (s.counted c).reg off := fun off => by rw [State.reg, htregs, hregs]; rfl
  refine ⟨fun d => ?_, ?_, fun off hoff _ => ?_, ?_, ?_⟩
  · rw [hcore.core, State.coresWith, State.core, State.core, show (u.forgets j.num c h.seq.toNat).cores = s.cores from hcores]
  · rw [hreg, State.counted, State.reg_count hs, if_pos rfl]; rfl
  · rw [hreg, State.counted, State.reg_count hs, if_neg hoff]
  · rw [htpower, hpower]
  · rw [htregs, htpower, ← hextra]; exact hcore.rest

/-- A command in its turn whose work is done in one go. -/
theorem Plain.completes {s u t : State} {j : Job} {c : Nat} {h : Hdr} {i : Instr} {k : Core} (hi : Plain i) (ho : s.ordered)
    (ha : AtHead s j c h i) (hwait : waits i = false) {body : Cx → Act Unit}
    (hbody : (body (headCx s j c h i)).run (s.begun j c h i) = .ok () t)
    (ht : CoreIs u t c (k.issuing [s.issueRecord j c i h])) :
    CoreIs (u.forgets j.num c h.seq.toNat) (s.tile c h i body) c (k.issuing []) := by
  rw [hi.tile_eq ho ha, hbody]
  exact ht.endRun hwait

/-- A command in its turn whose issue is all its work. -/
theorem Plain.issues {s : State} {j : Job} {c : Nat} {h : Hdr} {i : Instr} (hi : Plain i) (ho : s.ordered)
    (ha : AtHead s j c h i) (hwait : waits i = false) :
    CompletedAs s (s.tile c h i fun _ => pure ()) j c h (s.coresWith c ((s.ahead c h i).issuing [])) [] nothingElse := by
  have hdone := hi.completes ho ha hwait (body := fun _ => pure ()) rfl (hi.begun_is ho.maps.cores ha.idle)
  exact hdone.completedAs ho.maps.regs rfl rfl rfl fun _ => rfl

theorem Core.onGroup_task (k : Core) (c : CoreId) (h : Hdr) (f : TaskArgs) (rows : List Nat) :
    (k.onGroup (.task c h f) h rows).task = k.task := by
  unfold Core.onGroup
  dsimp only
  split <;> rfl

theorem TaskRec.entry_set (t : TaskRec) (f : TaskArgs) {sp : Nat} (hsp : sp < 4) :
    (t.set f).entry sp = if sp = f.space.toNat then (f.base.toNat, f.bound.toNat) else t.entry sp := by
  have hf := f.space.isLt
  unfold TaskRec.set
  interval_cases f.space.toNat <;> interval_cases sp <;> rfl

/-! ### Ballast -/

/-- A core whose last command took n F-cycles. -/
def Core.timed (n : Nat) (k : Core) : Core := { k with lastCycles := n }

theorem Core.timed_issuing (n : Nat) (k : Core) (l : List Issued) : (k.issuing l).timed n = (k.timed n).issuing l := rfl

theorem State.filler_eq (s : State) (c : Nat) (f : BallastArgs) (n : Nat) :
    s.filler c f n = { s with power := (s.filler c f n).power } := by
  unfold State.filler
  dsimp only
  split <;> split <;> rfl

theorem State.filler_still (s : State) (c : Nat) (f : BallastArgs) (n : Nat) :
    (s.filler c f n).power.still = s.power.still := by
  unfold State.filler
  dsimp only
  split <;> split <;> simp

/-- Filler work leaves the cores alone. -/
theorem CoreIs.filler {t u : State} {d c : Nat} {k : Core} (h : CoreIs t u d k) (f : BallastArgs) (n : Nat) :
    CoreIs { t with power := (u.filler c f n).power } (u.filler c f n) d k where
  rest := by
    have hu : u.filler c f n = { u with power := (u.filler c f n).power } := u.filler_eq c f n
    have hcores : (u.filler c f n).cores = u.cores := by rw [hu]
    rw [hcores]
    refine hu.trans ?_
    generalize (u.filler c f n).power = p
    rw [h.rest]
  core e := by
    have hcores : (u.filler c f n).cores = u.cores := by rw [u.filler_eq c f n]
    rw [State.core, hcores]; exact h.core e
  rising := by rw [u.filler_eq c f n]; exact h.rising

theorem State.cluster_active_same {s : State} {c : Nat} (hk : c / 64 < s.power.clusters.length) (kind n : Nat) :
    (s.active c kind n).cluster (c / 64) = { s.cluster (c / 64) with
      activity := (s.cluster (c / 64)).activity.set kind ((s.cluster (c / 64)).activity.getD kind 0 + n) } := by
  simp [State.cluster, State.active, hk]

/-- The activity that filler work of core c counts for the refractor's ballast (R419). -/
theorem State.filler_refractor {s : State} {c : Nat} (hk : c / 64 < s.power.clusters.length)
    (hnine : (s.cluster (c / 64)).activity.length = 9) (f : BallastArgs) (n : Nat) :
    ((s.filler c f n).cluster (c / 64)).activity.getD 8 0 =
      (s.cluster (c / 64)).activity.getD 8 0 + if f.refractor then f.level.toNat * n else 0 := by
  have hfacets : ∀ w, ((s.active c 7 w).cluster (c / 64)).activity.getD 8 0 = (s.cluster (c / 64)).activity.getD 8 0 := by
    intro w
    rw [State.cluster_active_same hk]
    simp [List.getD_eq_getElem?_getD]
  have hrefractor : ∀ u : State, c / 64 < u.power.clusters.length → (u.cluster (c / 64)).activity.length = 9 → ∀ w,
      ((u.active c 8 w).cluster (c / 64)).activity.getD 8 0 = (u.cluster (c / 64)).activity.getD 8 0 + w := by
    intro u hu h9 w
    rw [State.cluster_active_same hu]
    simp [List.getD_eq_getElem?_getD, h9]
  have hnine7 : ∀ w, ((s.active c 7 w).cluster (c / 64)).activity.length = 9 := by
    intro w; rw [State.cluster_active_same hk]; simp [hnine]
  have hk7 : ∀ w, c / 64 < (s.active c 7 w).power.clusters.length := by
    intro w; simpa [State.active] using hk
  unfold State.filler
  dsimp only
  split <;> split
  · rw [hrefractor _ (hk7 _) (hnine7 _), hfacets]
  · rw [hrefractor _ hk hnine]
  · rw [hfacets, Nat.add_zero]
  · rfl

/-! ### FENCE and WINDOW -/

/-- Whether a FENCE at the head waits for an acknowledge (R303). -/
def fenceWaits (s : State) (x : Cx) (f : FenceArgs) : Bool :=
  (f.vis && s.unacked x fun r => r.isWrite && (opEngines r.op).any (fenceCovers f.mask))
    || (f.remote && s.unacked x fun r => r.isWrite || r.isSync)

/-- The work of a FENCE behind which no earlier command runs. -/
theorem fenceBody_run {t : State} {x : Cx} {f : FenceArgs} (hearlier : (t.core x.c).earlier x.site.seq = []) :
    (fenceBody f x).run t = if fenceWaits t x f then .error .hold t else .ok () t := by
  have hrun : (fenceBody f x).run t =
      (if (((t.core x.c).earlier x.site.seq).any fun i => (opEngines (opcodeOf i.cmd)).any (fenceCovers f.mask) ||
        (f.remote && i.remote)) || fenceWaits t x f then throw .hold else pure () : Act Unit).run t := rfl
  rw [hrun, hearlier, List.any_nil, Bool.false_or]
  split <;> rfl

theorem CoreIs.earlier {t u : State} {x : Cx} {k : Core} {r : Issued} (hu : CoreIs t u x.c (k.issuing [r])) (hr : r.seq = x.site.seq) :
    (u.core x.c).earlier x.site.seq = [] := by
  rw [hu.core, if_pos rfl, Core.earlier, Core.issuing_issued]
  simp [hr]

/-- A command of the sequencer that has done nothing yet and waits is put aside as it issued. -/
theorem CoreIs.pauseRun {s u t : State} {j : Job} {c : Nat} {h : Hdr} {i : Instr} {k : Core}
    (ht : CoreIs u t c (k.issuing [s.issueRecord j c i h])) :
    CoreIs { u with held := u.held ++ [i] } (t.pauseRun (headCx s j c h i) i) c (k.issuing [s.issueRecord j c i h]) := by
  have hmod := ht.mod (x := headCx s j c h i) rfl fun r => { r with started := r.started || !r.log.isEmpty }
  refine ⟨?_, hmod.core, hmod.rising⟩
  have hpause : t.pauseRun (headCx s j c h i) i = State.hold ((headCx s j c h i).mod
    (fun r => { r with started := r.started || !r.log.isEmpty }) t) i := rfl
  rw [hpause, hmod.rest]
  rfl

/-- Other windows leave the cores alone. -/
theorem CoreIs.withWindows {t u : State} {c : Nat} {k : Core} (h : CoreIs t u c k) (l : List (Nat × Window)) :
    CoreIs { t with windows := l } { u with windows := l } c k where
  rest := by rw [h.rest]
  core := h.core
  rising := h.rising

/-- The windows once window n of a job is closed (R249). -/
def closedWindow (l : List (Nat × Window)) (n num : Nat) : List (Nat × Window) :=
  if l.any fun w => decide (w.1 = n ∧ w.2.job = num) then l.filter fun w => decide (w.1 ≠ n) else l

/-- The work of a WINDOW CLOSE whose window has no access outstanding. -/
theorem windowCloseBody_run {t : State} {x : Cx} {n : BitVec 6}
    (hidle : ∀ w, (n.toNat, w) ∈ t.windows → w.job = x.site.job → ∀ r ∈ t.requests, r.answer.isSome = true ∨ r.through w = false) :
    (windowCloseBody n x).run t = .ok () { t with windows := closedWindow t.windows n.toNat x.site.job } := by
  unfold closedWindow
  cases hfind : t.windows.find? fun w => decide (w.1 = n.toNat ∧ w.2.job = x.site.job) with
  | none =>
    have hany : t.windows.any (fun w => decide (w.1 = n.toNat ∧ w.2.job = x.site.job)) = false := by
      simpa using List.find?_eq_none.mp hfind
    rw [hany]
    simp only [windowCloseBody, get, getThe, MonadStateOf.get, bind, EStateM.run, EStateM.bind, EStateM.get, hfind]
    rfl
  | some p =>
    obtain ⟨m, w⟩ := p
    obtain ⟨hm, hjob⟩ : m = n.toNat ∧ w.job = x.site.job := by simpa using List.find?_some hfind
    have hmem : (n.toNat, w) ∈ t.windows := hm ▸ List.mem_of_find?_eq_some hfind
    have hany : t.windows.any (fun w => decide (w.1 = n.toNat ∧ w.2.job = x.site.job)) = true :=
      List.any_eq_true.mpr ⟨_, hmem, by simpa using hjob⟩
    have hnone : (t.requests.any fun r => r.answer.isNone && r.through w) = false := by
      simpa [Option.isSome_iff_ne_none, or_iff_not_imp_left] using hidle w hmem hjob
    rw [hany]
    simp only [windowCloseBody, get, getThe, MonadStateOf.get, bind, EStateM.run, EStateM.bind, EStateM.get, hfind, hnone]
    rfl

end Sys2Proof.Machine

open Sys2Proof Sys2Proof.Machine Sys2Proof.Certificates.Slice0

section
variable {s : State} {j : Job} {c : CoreId} {h : Hdr}

theorem plain_nop : Plain (.nop c h) := ⟨rfl, fun _ _ => rfl, fun _ _ => rfl, fun _ _ => rfl, fun _ _ => rfl, nofun⟩
theorem plain_phase (op : BitVec 3) : Plain (.phase c h op) :=
  ⟨rfl, fun _ _ => rfl, fun _ _ => rfl, fun _ _ => rfl, fun _ _ => rfl, nofun⟩
theorem plain_task (f : TaskArgs) : Plain (.task c h f) :=
  ⟨rfl, fun _ _ => rfl, fun _ _ => rfl, fun _ _ => rfl, fun _ _ => rfl, nofun⟩
theorem plain_ballastFixed (f : BallastArgs) (n : BitVec 25) : Plain (.ballastFixed c h f n) :=
  ⟨rfl, fun _ _ => rfl, fun _ _ => rfl, fun _ _ => rfl, fun _ _ => rfl, nofun⟩

theorem plain_fence (f : FenceArgs) : Plain (.fence c h f) :=
  ⟨rfl, fun _ _ => rfl, fun _ _ => rfl, fun _ _ => rfl, fun _ _ => rfl, nofun⟩
theorem plain_windowOpen (f : WindowArgs) : Plain (.windowOpen c h f) :=
  ⟨rfl, fun _ _ => rfl, fun _ _ => rfl, fun _ _ => rfl, fun _ _ => rfl, nofun⟩
theorem plain_windowClose (n : BitVec 6) : Plain (.windowClose c h n) :=
  ⟨rfl, fun _ _ => rfl, fun _ _ => rfl, fun _ _ => rfl, fun _ _ => rfl, nofun⟩

theorem taskCompletes (ho : s.ordered) (f : TaskArgs) (ha : AtHead s j c.toNat h (.task c h f)) :
    ∃ t task, exec (.task c h f) s = .next t ∧ CompletedAs s t j c.toNat h
      (s.coresWith c.toNat { s.after j c.toNat h (.task c h f) with task := task }) [] nothingElse ∧
      ∀ sp, sp < 4 → task.entry sp = if sp = f.space.toNat then (f.base.toNat, f.bound.toNat)
        else (s.core c.toNat).task.entry sp := by
  refine ⟨_, _, rfl, (plain_task f).issues ho ha rfl, fun sp hsp => ?_⟩
  show ((((s.core c.toNat).onGroup (.task c h f) h []).task).set f).entry sp = _
  rw [Core.onGroup_task, TaskRec.entry_set _ f hsp]

theorem ballastCompletes (ho : s.ordered) (f : BallastArgs) (n : BitVec 25)
    (ha : AtHead s j c.toNat h (.ballastFixed c h f n)) :
    ∃ t, exec (.ballastFixed c h f n) s = .next t ∧ CompletedAs s t j c.toNat h
      (s.coresWith c.toNat { s.after j c.toNat h (.ballastFixed c h f n) with lastCycles := n.toNat }) [] nothingElse ∧
      (t.cluster (c.toNat / 64)).activity.getD 8 0 =
        (s.cluster (c.toNat / 64)).activity.getD 8 0 + if f.refractor then f.level.toNat * n.toNat else 0 := by
  have hi := plain_ballastFixed (c := c) (h := h) f n
  have hrun := (hi.begun_is (j := j) (h := h) ho.maps.cores ha.idle).modCore (Core.timed n.toNat)
  rw [Core.timed_issuing] at hrun
  set b := (s.begun j c.toNat h (.ballastFixed c h f n)).modCore c.toNat (Core.timed n.toNat)
  have hb : b.power = s.power := by rw [hrun.rest]; rfl
  have hfilled := hrun.filler (c := c.toNat) f n.toNat
  have hdone := hi.completes ho ha rfl (body := ballastBody f n) rfl hfilled
  have hstill : (b.filler c.toNat f n.toNat).power.still = s.power.still := by rw [State.filler_still, hb]
  refine ⟨_, rfl, hdone.completedAs ho.maps.regs rfl rfl hstill fun _ => rfl, ?_⟩
  have hcluster : ∀ k, b.cluster k = s.cluster k := fun k => by rw [State.cluster, hb]; rfl
  have ht : (s.tile c.toNat h (.ballastFixed c h f n) (ballastBody f n)).power = (b.filler c.toNat f n.toNat).power := by
    rw [hdone.rest]; rfl
  obtain ⟨-, -, -, ⟨hlength, hactivity, -⟩, -⟩ := ho
  have hk : c.toNat / 64 < s.power.clusters.length := by have := c.isLt; omega
  have hnine : (s.cluster (c.toNat / 64)).activity.length = 9 := by
    rw [State.cluster, List.getD_eq_getElem _ _ hk]; exact hactivity _ (List.getElem_mem hk)
  rw [State.cluster, ht, ← State.cluster, State.filler_refractor (by rwa [hb]) (by rwa [hcluster]), hcluster]
end

/-- Settles O1: each is a command of the sequencer that names nothing; what it leaves beside its issue is its own. -/
theorem sequencerOnlyCommands : Obligations.SequencerOnlyCommands := by
  intro s j c h ho
  exact ⟨fun ha => ⟨_, rfl, plain_nop.issues ho ha rfl⟩, fun op ha => ⟨_, rfl, (plain_phase op).issues ho ha rfl⟩,
    fun f n ha => ballastCompletes ho f n ha, fun f ha => taskCompletes ho f ha⟩

theorem fenceWaitsForAcknowledges : FenceWaitsForAcknowledges := by
  intro s j c h f ho ha i x acks
  have hi : Plain i := plain_fence f
  have hbegun := hi.begun_is (j := j) (h := h) ho.maps.cores ha.idle
  have hrequests : (s.begun j c.toNat h i).requests = s.requests := by rw [hbegun.rest]; rfl
  have hwaits : fenceWaits (s.begun j c.toNat h i) x f = acks := by
    simp only [fenceWaits, State.unacked, hrequests]; rfl
  have hrun := fenceBody_run (f := f) (CoreIs.earlier (x := x) hbegun rfl)
  rw [hwaits] at hrun
  refine ⟨fun hnone => ?_, fun hsome => ?_⟩
  · rw [hnone] at hrun
    have hdone := hi.completes ho ha rfl hrun hbegun
    exact ⟨_, rfl, hdone.completedAs ho.maps.regs rfl rfl rfl fun _ => rfl⟩
  · rw [hsome] at hrun
    have hpaused := hbegun.pauseRun
    have htile : s.tile c.toNat h i (fenceBody f) = (s.begun j c.toNat h i).pauseRun x i := by
      rw [hi.tile_eq ho ha, hrun]; rfl
    rw [← htile] at hpaused
    have hreg : ∀ off, (s.tile c.toNat h i (fenceBody f)).reg off = (s.counted c.toNat).reg off := by
      intro off; rw [hpaused.rest]; rfl
    refine ⟨_, rfl, ?_, ?_, ?_, fun d hd => ?_, fun off hoff => ?_, ?_⟩
    · rw [hpaused.rest]; rfl
    · rw [hpaused.core, if_pos rfl]; rfl
    · rw [hreg, State.counted, State.reg_count ho.maps.regs, if_pos rfl]; rfl
    · rw [hpaused.core, if_neg hd]; rfl
    · rw [hreg, State.counted, State.reg_count ho.maps.regs, if_neg hoff]
    · rw [hpaused.rest]; rfl

/-- WINDOW OPEN binds its window. -/
theorem windowOpens {s : State} {j : Job} {c : CoreId} {h : Hdr} (ho : s.ordered) (f : WindowArgs)
    (ha : AtHead s j c.toNat h (.windowOpen c h f)) : ∃ t, exec (.windowOpen c h f) s = .next t ∧
      CompletedAs s t j c.toNat h (s.coresWith c.toNat (s.after j c.toNat h (.windowOpen c h f))) [] fun u =>
        { u with windows := s.windows ++ [(f.window.toNat, ⟨j.num, f.rdev, f.stacked, f.base.toNat, f.size.toNat, f.rd,
          f.wr⟩)] } := by
  have hi := plain_windowOpen (c := c) (h := h) f
  have hbegun := hi.begun_is (j := j) (h := h) ho.maps.cores ha.idle
  have hwindows : (s.begun j c.toNat h (.windowOpen c h f)).windows = s.windows := by rw [hbegun.rest]; rfl
  have hopened := hbegun.withWindows (s.windows ++ [(f.window.toNat, ⟨j.num, f.rdev, f.stacked, f.base.toNat, f.size.toNat,
    f.rd, f.wr⟩)])
  have hdone := hi.completes ho ha rfl (body := windowOpenBody f) (by rw [← hwindows]; rfl) hopened
  exact ⟨_, rfl, hdone.completedAs ho.maps.regs rfl rfl rfl fun _ => rfl⟩

/-- WINDOW CLOSE closes a window of its job, and leaves one of another. -/
theorem windowCloses {s : State} {j : Job} {c : CoreId} {h : Hdr} (ho : s.ordered) (n : BitVec 6)
    (ha : AtHead s j c.toNat h (.windowClose c h n))
    (hidle : ∀ w, (n.toNat, w) ∈ s.windows → w.job = j.num → ∀ r ∈ s.requests, r.answer.isSome = true ∨ r.through w = false) :
    ∃ t, exec (.windowClose c h n) s = .next t ∧
      CompletedAs s t j c.toNat h (s.coresWith c.toNat (s.after j c.toNat h (.windowClose c h n))) [] fun u =>
        { u with windows := if s.windows.any fun w => decide (w.1 = n.toNat ∧ w.2.job = j.num)
            then s.windows.filter fun w => decide (w.1 ≠ n.toNat) else s.windows } := by
  have hi := plain_windowClose (c := c) (h := h) n
  have hbegun := hi.begun_is (j := j) (h := h) ho.maps.cores ha.idle
  set b := s.begun j c.toNat h (.windowClose c h n)
  have hwindows : b.windows = s.windows := by rw [hbegun.rest]; rfl
  have hrequests : b.requests = s.requests := by rw [hbegun.rest]; rfl
  have hrun := windowCloseBody_run (t := b) (x := headCx s j c.toNat h (.windowClose c h n)) (n := n)
    (by rw [hwindows, hrequests]; exact hidle)
  rw [hwindows] at hrun
  have hdone := hi.completes ho ha rfl hrun (hbegun.withWindows _)
  exact ⟨_, rfl, hdone.completedAs ho.maps.regs rfl rfl rfl fun _ => rfl⟩

theorem windowsOpenAndClose : WindowsOpenAndClose := fun _ _ _ _ ho =>
  ⟨fun f ha => windowOpens ho f ha, fun n ha hidle => windowCloses ho n ha hidle⟩

/-- Settles O5: none of the three names an operand or a row, so what its work leaves of the state in which it began is all. -/
theorem fencesAndWindows : Obligations.FencesAndWindows := ⟨fenceWaitsForAcknowledges, windowsOpenAndClose⟩
end

section
namespace Sys2Proof.Machine

open Sys2Proof.Certificates.Slice0

/-! ### What moves on the ports

Moved says what the pieces of a port's sending have in common; a message that waits at a port stays there or leaves by it. -/

/-- A message is in the queue of a port, or has left by it. -/
def State.underway (s : State) (p : Nat) (m : QMsg) : Prop := m ∈ (s.port p).queue ∨ Out.msg (some p) m.vc m ∈ s.out

/-- A register that is no port's and not the count of forwarded messages. -/
def besidePorts (off : Nat) : Prop := (off < 0x400000 ∨ 0x460000 ≤ off) ∧ off ≠ Reg.NRN_FWD

/-- From s to t ports alone have moved. -/
structure Moved (s t : State) : Prop where
  rest : t = { s with ports := t.ports, regs := t.regs, out := t.out, power := { s.power with flits := t.power.flits }
                      time := { s.time with exchange := t.time.exchange } }
  regs : Sparse.rising s.regs = true → Sparse.rising t.regs = true ∧ ∀ off, besidePorts off → t.reg off = s.reg off
  ports : Sparse.rising s.ports = true → Sparse.rising t.ports = true ∧ ∀ p m, s.underway p m → t.underway p m

namespace Moved

variable {s t u : State}

protected theorem refl (s : State) : Moved s s := ⟨rfl, fun h => ⟨h, fun _ _ => rfl⟩, fun h => ⟨h, fun _ _ h => h⟩⟩

protected theorem trans (h1 : Moved s t) (h2 : Moved t u) : Moved s u where
  rest := by rw [h2.rest, h1.rest]
  regs h := by
    obtain ⟨hr, h1⟩ := h1.regs h
    obtain ⟨hr, h2⟩ := h2.regs hr
    exact ⟨hr, fun off ho => (h2 off ho).trans (h1 off ho)⟩
  ports h := by
    obtain ⟨hr, h1⟩ := h1.ports h
    obtain ⟨hr, h2⟩ := h2.ports hr
    exact ⟨hr, fun p m hm => h2 p m (h1 p m hm)⟩

theorem ite {b : Prop} [Decidable b] (h1 : Moved s t) (h2 : Moved s u) : Moved s (if b then t else u) := by
  split
  · exact h1
  · exact h2

theorem foldl {α : Type} (f : State → α → State) (l : List α) (h : ∀ u, ∀ a ∈ l, Moved u (f u a)) (s : State) :
    Moved s (l.foldl f s) :=
  List.foldlRecOn l f (motive := Moved s) (.refl s) fun u hu a ha => hu.trans (h u a ha)

theorem count (s : State) {off : Nat} (k : Nat) (h : ¬ besidePorts off) : Moved s (s.count off k) where
  rest := rfl
  regs hr := ⟨State.rising_count hr _ _, fun o ho => by
    rw [State.reg_count hr, if_neg (by rintro rfl; exact h ho)]⟩
  ports hr := ⟨hr, fun _ _ h => h⟩

/-- A port whose queue keeps its messages, but for one that leaves now. -/
theorem setPort (s : State) (p : Nat) (q : Port) (out : List Out)
    (h : ∀ m ∈ (s.port p).queue, m ∈ q.queue ∨ Out.msg (some p) m.vc m ∈ out) :
    Moved s { s.setPort p q with out := s.out ++ out } where
  rest := rfl
  regs hr := ⟨hr, fun _ _ => rfl⟩
  ports hr := by
    refine ⟨Sparse.rising_set _ _ _ hr, fun i m hm => ?_⟩
    have hport := State.port_setPort hr p q i
    have hport : ({ s.setPort p q with out := s.out ++ out } : State).port i = if i = p then q else s.port i := hport
    rcases hm with hm | hm
    · by_cases hi : i = p
      · subst hi
        rcases h m hm with hq | ho
        · exact .inl (by rw [hport, if_pos rfl]; exact hq)
        · exact .inr (List.mem_append_right _ ho)
      · exact .inl (by rw [hport, if_neg hi]; exact hm)
    · exact .inr (List.mem_append_left _ hm)

theorem modPort (s : State) (p : Nat) {f : Port → Port} (h : ∀ m ∈ (s.port p).queue, m ∈ (f (s.port p)).queue) :
    Moved s (s.modPort p f) := by
  have := setPort s p (f (s.port p)) [] fun m hm => .inl (h m hm)
  rwa [List.append_nil] at this

theorem emit (s : State) (o : Out) : Moved s (s.emit o) where
  rest := rfl
  regs hr := ⟨hr, fun _ _ => rfl⟩
  ports hr := ⟨hr, fun _ _ hm => hm.imp_right (List.mem_append_left _)⟩

theorem flitsSent (s : State) (n : Nat) : Moved s (s.flitsSent n) := ⟨rfl, fun h => ⟨h, fun _ _ => rfl⟩, fun h => ⟨h, fun _ _ h => h⟩⟩

theorem noteSent (s : State) (p : Nat) (m : LinkMsg) : Moved s (s.noteSent p m) := by
  unfold State.noteSent
  split
  · exact ⟨rfl, fun h => ⟨h, fun _ _ => rfl⟩, fun h => ⟨h, fun _ _ h => h⟩⟩
  · exact .refl s

theorem creditBack (s : State) (m : QMsg) : Moved s (s.creditBack m) := by
  unfold State.creditBack
  split
  · exact .refl s
  · exact modPort s _ fun _ h => h

/-- A message enters the flits of its port. -/
theorem sendOn (s : State) (p : Nat) (m : QMsg) : Moved s (s.sendOn p m) := by
  unfold State.sendOn
  extract_lets q vc turn q' s'
  have hs' : Moved s s' := by
    refine setPort s p q' [.msg (some p) vc m] fun m' hm' => ?_
    by_cases he : m' = m
    · exact .inr (by simp [he, vc])
    · exact .inl ((List.mem_erase_of_ne he).mpr hm')
  exact ite ((hs'.trans (count s' 1 fun h => h.2 rfl)).trans (creditBack _ m)) hs'

theorem sendLocalMsg (s : State) (p : Nat) (m : LinkMsg) (l : List LinkMsg) : Moved s (s.sendLocalMsg p m l) :=
  ((modPort s p fun _ h => h).trans (noteSent _ p m)).trans (emit _ _)

theorem not_besidePorts_txFlits {p : Nat} (hp : p < 6) : ¬ besidePorts (Reg.NRN_TX_FLITS p) := by
  unfold besidePorts Reg.NRN_TX_FLITS portReg
  omega

theorem sendFlit (s : State) {p : Nat} (hp : p < 6) (bs : List Byte) : Moved s (s.sendFlit p bs) := by
  unfold State.sendFlit
  extract_lets q
  have hq : ((q.nextFlit s.ticks bs).2).queue = q.queue := rfl
  have hport : Moved s (s.setPort p (q.nextFlit s.ticks bs).2) := modPort s p (f := fun _ => _) fun m hm => by rw [hq]; exact hm
  exact ((hport.trans (count _ 1 (not_besidePorts_txFlits hp))).trans (flitsSent _ 1)).trans (emit _ _)

theorem gather (p n : Nat) (bs : List Byte) (s : State) : Moved s (State.gather p n bs s).2 := by
  induction n generalizing bs s with
  | zero => exact .refl s
  | succ n ih =>
    rw [State.gather]
    split
    · dsimp only
      split
      · exact (sendLocalMsg s p _ _).trans (ih _ _)
      · exact .refl s
    · split
      · exact (sendOn s p _).trans (ih _ _)
      · exact .refl s

theorem drainPort (s : State) {p : Nat} (hp : p < 6) : Moved s (s.drainPort p) :=
  (gather p _ [] s).trans (foldl _ _ (fun u bs _ => sendFlit u hp bs) _)

theorem flushCredits {p : Nat} (hp : p < 6) (n : Nat) (s : State) : Moved s (State.flushCredits p n s) := by
  induction n generalizing s with
  | zero => exact .refl s
  | succ n ih =>
    rw [State.flushCredits]
    exact ite ((sendFlit s hp []).trans (ih _)) (.refl s)

theorem pump (s : State) {p : Nat} (hp : p < 6) : Moved s (s.pump p) :=
  (drainPort s hp).trans (foldl (fun u i => State.flushCredits i (u.port i).creditFlits u) _
    (fun u _ hi => flushCredits (List.mem_range.mp hi) _ u) _)

theorem giveBack (s : State) (m : QMsg) : Moved s (s.giveBack m) := by
  unfold State.giveBack
  cases m.hdr.inPort with
  | none => exact .refl s
  | some p =>
    rw [Option.elim_some]
    exact (creditBack s m).trans (pump _ p.isLt)

theorem portsMoved (h : Moved s t) (hr : Sparse.rising s.regs = true) : PortsMoved s t s [] :=
  ⟨h.rest, fun off ho hf _ => (h.regs hr).2 off ⟨ho, hf⟩⟩

end Moved

/-! ### A message that this device sends -/

theorem State.route_lt {s : State} {q : Option Nat} {d : Bool} {n p : Nat} {dl : Bool} (h : s.route q d n = some (p, dl)) : p < 6 := by
  obtain ⟨a, ha, hp⟩ := Option.map_eq_some_iff.mp h
  have h3 := List.mem_range.mp (List.mem_of_find?_eq_some ha)
  obtain ⟨rfl, -⟩ := Prod.mk.inj hp
  have := Bool.toNat_le (!decide ((coord n a + s.axisSize a - coord s.selfDev a % s.axisSize a) % s.axisSize a ≤
    s.axisSize a - (coord n a + s.axisSize a - coord s.selfDev a % s.axisSize a) % s.axisSize a))
  omega

/-- A port with one more message. -/
def Port.push (m : QMsg) (q : Port) : Port := { q with queue := q.queue ++ [m] }

theorem State.enqueue_eq (s : State) (p : Nat) (m : QMsg) : s.enqueue p m = (s.modPort p (Port.push m)).pump p := by
  unfold State.enqueue Port.push
  rfl

theorem Moved.enqueue (s : State) {p : Nat} (hp : p < 6) (m : QMsg) : Moved s (s.enqueue p m) := by
  rw [State.enqueue_eq]
  have hpush : Moved s (s.modPort p (Port.push m)) := .modPort s p fun _ h => List.mem_append_left _ h
  exact hpush.trans (.pump (s.modPort p (Port.push m)) hp)

theorem State.underway_enqueue {s : State} (h : Sparse.rising s.ports = true) {p : Nat} (hp : p < 6) (m : QMsg) :
    (s.enqueue p m).underway p m := by
  rw [State.enqueue_eq]
  have hpump : Moved (s.modPort p (Port.push m)) ((s.modPort p (Port.push m)).pump p) := .pump (s.modPort p (Port.push m)) hp
  have hpushed : (s.modPort p (Port.push m)).underway p m := by
    left
    rw [State.port_modPort h, if_pos rfl]
    exact List.mem_append_right _ List.mem_cons_self
  exact (hpump.ports (Sparse.rising_set _ _ _ h)).2 p m hpushed

theorem State.giveBack_own {s : State} {m : QMsg} (h : m.hdr.inPort = none) : s.giveBack m = s := by
  rw [State.giveBack, h]; rfl

theorem State.sendMsg_routed {s : State} {m : QMsg} {p : Nat} {dl : Bool}
    (h : s.route (m.hdr.inPort.map (·.val)) m.hdr.dl m.hdr.dst.toNat = some (p, dl)) (hd : s.downLong p = false) :
    (s.sendMsg m).2 = s.enqueue p { m with hdr := { m.hdr with dl := dl } } := by
  simp only [State.sendMsg, h, hd, Bool.false_eq_true, if_false]

/-- What a message of the device's own changes: the ports, and where its port has been down too long the count of requests that
are answered UNREACH (R364). -/
theorem State.sendMsg_own (s : State) {m : QMsg} (h : m.hdr.inPort = none) :
    Moved s (s.sendMsg m).2 ∨ isResponse m.payload = false ∧ (s.sendMsg m).2 = s.count Reg.NRN_UNREACH 1 := by
  cases hr : s.route (m.hdr.inPort.map (·.val)) m.hdr.dl m.hdr.dst.toNat with
  | none =>
    left
    simp only [State.sendMsg, hr, State.giveBack_own h]
    exact .refl s
  | some r =>
    obtain ⟨p, dl⟩ := r
    cases hd : s.downLong p with
    | false =>
      left
      have hlt := State.route_lt hr
      rw [State.sendMsg_routed hr hd]
      exact .enqueue s hlt _
    | true =>
      cases hp : isResponse m.payload with
      | true =>
        left
        simp only [State.sendMsg, hr, hd, hp, if_true, State.giveBack_own h]
        exact .refl s
      | false =>
        right
        simp only [State.sendMsg, hr, hd, hp, if_true, Bool.false_eq_true, if_false, State.giveBack_own h, and_self]

theorem State.sendMsg_sent {s : State} (hp : Sparse.rising s.ports = true) (m : QMsg) :
    Sent s (s.sendMsg m).2 m.hdr m.len m.payload := by
  intro p dl hr hd
  have hlt := State.route_lt hr
  rw [State.sendMsg_routed hr hd]
  have h := State.underway_enqueue hp hlt { m with hdr := { m.hdr with dl := dl } }
  generalize s.enqueue p { m with hdr := { m.hdr with dl := dl } } = t at h ⊢
  exact ⟨m.inVc, h⟩

theorem Sent.moved {s t u : State} {h : MsgHdr} {len : Nat} {pay : Payload} (hs : Sent s t h len pay) (hm : Moved t u)
    (hp : Sparse.rising t.ports = true) : Sent s u h len pay := by
  intro p dl hr hd
  obtain ⟨v, hv⟩ := hs p dl hr hd
  exact ⟨v, (hm.ports hp).2 p _ hv⟩

/-- Whether a message has been sent is judged by routes and outages alone. -/
theorem Sent.of_routes {s u t : State} {h : MsgHdr} {len : Nat} {pay : Payload} (hs : Sent u t h len pay)
    (hroute : u.route = s.route) (hdown : u.downLong = s.downLong) : Sent s t h len pay := by
  unfold Sent at hs ⊢
  rwa [hroute, hdown] at hs

/-! ### Responses to other devices -/

/-- The response to a request of another device. -/
theorem State.answerReq_replied {s : State} (hp : Sparse.rising s.ports = true) {h : MsgHdr}
    (hsrc : h.src.toNat ≠ s.selfDev) (st : Nat) (data : List Byte) :
    Moved s (s.answerReq h st data) ∧
      Sent s (s.answerReq h st data) (ownHdr s h.src h.txn s.cfg.tag) (payloadWords (.rsp 0 data)) (.rsp (BitVec.ofNat 4 st) data) := by
  have hanswer : s.answerReq h st data = (s.sendMsg ⟨ownHdr s h.src h.txn s.cfg.tag, payloadWords (.rsp (BitVec.ofNat 4 st) data),
      .rsp (BitVec.ofNat 4 st) data, 0⟩).2 := by
    rw [State.answerReq, if_neg hsrc]; rfl
  rw [hanswer]
  refine ⟨(s.sendMsg_own rfl).resolve_right fun hn => absurd hn.1 (by simp [isResponse]), State.sendMsg_sent hp _⟩

theorem Moved.replied {s t : State} (hr : Sparse.rising s.regs = true) {h : MsgHdr} {st : Nat} {data : List Byte} (hm : Moved s t)
    (hs : Sent s t (ownHdr s h.src h.txn s.cfg.tag) (payloadWords (.rsp 0 data)) (.rsp (BitVec.ofNat 4 st) data)) :
    Replied s t s h st data [] := ⟨hm.portsMoved hr, hs⟩

/-! ### A management response as a request of the device's own -/

theorem firstFree_unused {used : List Nat} {n k t : Nat} (h : firstFree used k n = some t) : t ∉ used := by
  induction n generalizing k with
  | zero => cases h
  | succ n ih =>
    rw [firstFree] at h
    split at h
    · exact ih h
    · next hc =>
      cases h
      simpa using hc

theorem mem_of_firstFree_none {used : List Nat} {n k : Nat} (h : firstFree used k n = none) {i : Nat} (hi : i < n) :
    (k + i) % 65536 ∈ used := by
  induction n generalizing k i with
  | zero => omega
  | succ n ih =>
    rw [firstFree] at h
    split at h
    · next hc =>
      cases i with
      | zero => simpa using hc
      | succ i =>
        have := ih h (Nat.lt_of_succ_lt_succ hi)
        rwa [Nat.add_right_comm] at this
    · cases h

theorem firstFree_some {used : List Nat} (k : Nat) (h : used.length < 65536) : ∃ t, firstFree used k 65536 = some t := by
  by_contra hn
  have hnone : firstFree used k 65536 = none := Option.eq_none_iff_forall_ne_some.mpr fun t ht => hn ⟨t, ht⟩
  have hsub : List.range 65536 ⊆ used := fun v hv => by
    have hv := List.mem_range.mp hv
    have hmem := mem_of_firstFree_none hnone (i := (v + 65536 - k % 65536) % 65536) (Nat.mod_lt _ (by decide))
    rwa [show (k + (v + 65536 - k % 65536) % 65536) % 65536 = v by omega] at hmem
  have := (List.subperm_of_subset List.nodup_range hsub).length_le
  rw [List.length_range] at this
  omega

/-- From s to t ports have moved, and requests of the device's own have come and gone. -/
structure Requested (s t : State) : Prop where
  rest : t = { s with requests := t.requests, nextTxn := t.nextTxn, ports := t.ports, regs := t.regs, out := t.out
                      power := { s.power with flits := t.power.flits }, time := { s.time with exchange := t.time.exchange } }
  regs : Sparse.rising s.regs = true → Sparse.rising t.regs = true ∧
    ∀ off, off < 0x400000 ∨ 0x470000 ≤ off → t.reg off = s.reg off

namespace Requested

variable {s t u : State}

protected theorem trans (h1 : Requested s t) (h2 : Requested t u) : Requested s u where
  rest := by rw [h2.rest, h1.rest]
  regs h := by
    obtain ⟨hr, h1⟩ := h1.regs h
    obtain ⟨hr, h2⟩ := h2.regs hr
    exact ⟨hr, fun off ho => (h2 off ho).trans (h1 off ho)⟩

theorem of_moved (h : Moved s t) : Requested s t where
  rest := by conv_lhs => rw [h.rest]
             rw [h.rest]
  regs hr := by
    obtain ⟨hr, h⟩ := h.regs hr
    exact ⟨hr, fun off ho => h off ⟨by omega, fun he => by rw [he] at ho; revert ho; decide⟩⟩

theorem count (s : State) : Requested s (s.count Reg.NRN_UNREACH 1) where
  rest := rfl
  regs hr := ⟨State.rising_count hr _ _, fun o ho => by
    rw [State.reg_count hr, if_neg (by rintro rfl; revert ho; decide)]⟩

theorem requests (s : State) (l : List Request) (n : Nat) : Requested s { s with requests := l, nextTxn := n } :=
  ⟨rfl, fun h => ⟨h, fun _ _ => rfl⟩⟩

theorem dropReq (s : State) (txn : Nat) : Requested s (s.dropReq txn) := requests s _ s.nextTxn

end Requested

theorem State.findJob_zero (s : State) : s.findJob 0 = none := by
  simp [State.findJob]

/-- The record of a management response. -/
def mgmtRequest (s : State) (txn : Nat) (dst : DevNum) (body : List Byte) : Request :=
  { txn := txn, dst := dst, job := 0, core := 0, seq := 0, offset := 0, sent := s.ticks, payload := .mgmt body, op := 0, busy := false
    answer := none }

theorem State.respond_mgmt {s : State} {txn st : Nat} {r : Request} {body : List Byte} (hfind : s.findReq txn = some r)
    (hpay : r.payload = .mgmt body) (hjob : r.job = 0) (hst : st = rspOk ∨ st = rspUnreach) (data : List Byte) (tag : Word32) :
    s.respond txn st data tag = s.dropReq txn := by
  rcases hst with rfl | rfl <;>
    simp [State.respond, hfind, hpay, hjob, State.findJob_zero, rspOk, rspUnreach, rspDup, rspBusy]

theorem State.sendMsg_requested (s : State) {m : QMsg} (h : m.hdr.inPort = none) :
    Requested s (s.sendMsg m).2 ∧ (s.sendMsg m).2.requests = s.requests := by
  rcases s.sendMsg_own h with hm | ⟨-, hc⟩
  · exact ⟨.of_moved hm, by rw [hm.rest]⟩
  · rw [hc]
    exact ⟨.count s, rfl⟩

/-- The message of a management response. -/
def mgmtMessage (s : State) (txn : Nat) (dst : DevNum) (body : List Byte) : QMsg :=
  { hdr := ownHdr s dst (BitVec.ofNat 16 txn) s.cfg.tag, len := payloadWords (.mgmt body), payload := .mgmt body }

section Launch

variable {u s : State} {txn : Nat} {dst : DevNum} {body : List Byte} (hfind : u.findReq txn = some (mgmtRequest s txn dst body))
include hfind

theorem State.launch_mgmt_here (h : u.inTorus dst.toNat = false ∨ dst.toNat = u.selfDev) :
    u.launch (mgmtRequest s txn dst body) = (true, u.dropReq txn) := by
  have hdrop (st : Nat) (tag : Word32) (hst : st = rspOk ∨ st = rspUnreach) : u.respond txn st [] tag = u.dropReq txn :=
    State.respond_mgmt hfind rfl rfl hst [] tag
  cases hin : u.inTorus dst.toNat with
  | false =>
    simp only [State.launch, mgmtRequest, hin, Bool.not_false, if_true]
    rw [hdrop rspUnreach 0 (.inr rfl)]
  | true =>
    have hself := h.resolve_left (by simp [hin])
    rw [hself] at hin
    simp [State.launch, mgmtRequest, hin, hself, serve, hdrop rspOk _ (.inl rfl)]

theorem State.launch_mgmt_away (hin : u.inTorus dst.toNat = true) (hself : dst.toNat ≠ u.selfDev) :
    ∃ v, u.launch (mgmtRequest s txn dst body) = (true, v) ∧
      (v = (u.sendMsg (mgmtMessage u txn dst body)).2 ∨ v = (u.sendMsg (mgmtMessage u txn dst body)).2.dropReq txn) := by
  have hlaunch : u.launch (mgmtRequest s txn dst body) = match u.sendMsg (mgmtMessage u txn dst body) with
      | (true, s) => (true, s.respond txn rspUnreach [] 0)
      | (false, s) => (true, s) := by
    simp only [State.launch, mgmtRequest, State.findJob_zero, Option.elim_none, hin, hself, Bool.not_true, Bool.false_eq_true,
      if_false] <;> rfl
  rw [hlaunch]
  obtain ⟨-, hreq⟩ := u.sendMsg_requested (m := mgmtMessage u txn dst body) rfl
  generalize u.sendMsg (mgmtMessage u txn dst body) = x at hreq ⊢
  obtain ⟨b, v⟩ := x
  cases b with
  | false => exact ⟨v, rfl, .inl rfl⟩
  | true =>
    have hfind : v.findReq txn = some (mgmtRequest s txn dst body) := by
      rw [State.findReq, hreq]
      exact hfind
    exact ⟨_, rfl, .inr (State.respond_mgmt hfind rfl rfl (.inr rfl) [] 0)⟩

end Launch

/-- The state in which a management response is launched, with the record of its request. -/
def withMgmtRequest (s : State) (txn : Nat) (dst : DevNum) (body : List Byte) : State :=
  { s with requests := s.requests ++ [mgmtRequest s txn dst body], nextTxn := (txn + 1) % 65536 }

theorem findReq_withMgmtRequest {s : State} {txn : Nat} (h : s.freshTxn = some txn) (dst : DevNum) (body : List Byte) :
    (withMgmtRequest s txn dst body).findReq txn = some (mgmtRequest s txn dst body) := by
  have hfresh : txn ∉ s.requests.map (·.txn) := firstFree_unused h
  have hnone : (s.requests.find? fun r => decide (r.txn = txn) && r.answer.isNone) = none := by
    rw [List.find?_eq_none]
    intro r hr
    have : r.txn ≠ txn := fun he => hfresh (List.mem_map.mpr ⟨r, hr, he⟩)
    simp [this]
  have happ : (withMgmtRequest s txn dst body).findReq txn =
    (s.requests ++ [mgmtRequest s txn dst body]).find? fun r => decide (r.txn = txn) && r.answer.isNone := rfl
  rw [happ, List.find?_append, hnone]
  simp [mgmtRequest]

theorem State.request_mgmt {s : State} {txn : Nat} (h : s.freshTxn = some txn) (dst : DevNum) (body : List Byte) {v : State}
    (hv : (withMgmtRequest s txn dst body).launch (mgmtRequest s txn dst body) = (true, v)) :
    (s.request ⟨0, 0, 0, 0, 0⟩ dst 0 (.mgmt body)).2 = v := by
  have hreq : s.request ⟨0, 0, 0, 0, 0⟩ dst 0 (.mgmt body) =
      match (withMgmtRequest s txn dst body).launch (mgmtRequest s txn dst body) with
      | (true, t) => (true, t)
      | (false, t) => (false, { t.dropReq txn with nextTxn := s.nextTxn }) := by
    rw [State.request, h] <;> rfl
  rw [hreq, hv]

/-- A management response on the fabric: what it changes of this device. -/
theorem State.request_mgmt_requested (s : State) (dst : DevNum) (body : List Byte) :
    Requested s (s.request ⟨0, 0, 0, 0, 0⟩ dst 0 (.mgmt body)).2 := by
  cases h : s.freshTxn with
  | none =>
    rw [State.request, h]
    exact .requests s s.requests s.nextTxn
  | some txn =>
    have hfind := findReq_withMgmtRequest h dst body
    have hstart : Requested s (withMgmtRequest s txn dst body) := .requests s _ _
    by_cases haway : (withMgmtRequest s txn dst body).inTorus dst.toNat = true ∧ dst.toNat ≠ (withMgmtRequest s txn dst body).selfDev
    · obtain ⟨v, hv, hsent⟩ := State.launch_mgmt_away hfind haway.1 haway.2
      rw [State.request_mgmt h dst body hv]
      obtain ⟨hmsg, -⟩ := (withMgmtRequest s txn dst body).sendMsg_requested
        (m := mgmtMessage (withMgmtRequest s txn dst body) txn dst body) rfl
      rcases hsent with rfl | rfl
      · exact hstart.trans hmsg
      · exact (hstart.trans hmsg).trans (.dropReq _ txn)
    · have hhere := State.launch_mgmt_here hfind (by
        rw [not_and_or, Bool.not_eq_true, not_ne_iff] at haway
        exact haway)
      rw [State.request_mgmt h dst body hhere]
      exact hstart.trans (.dropReq _ txn)

/-- A management response on the fabric leaves for another device of the torus. -/
theorem State.request_mgmt_sent {s : State} (hp : Sparse.rising s.ports = true) {dst : DevNum} (hin : s.inTorus dst.toNat = true)
    (hself : dst.toNat ≠ s.selfDev) (hroom : s.requests.length < 65536) (body : List Byte) :
    ∃ txn, Sent s (s.request ⟨0, 0, 0, 0, 0⟩ dst 0 (.mgmt body)).2 (ownHdr s dst txn s.cfg.tag) (payloadWords (.mgmt body))
      (.mgmt body) := by
  obtain ⟨txn, h⟩ := firstFree_some s.nextTxn (used := s.requests.map (·.txn)) (by simpa using hroom)
  obtain ⟨v, hv, hsent⟩ := State.launch_mgmt_away (findReq_withMgmtRequest h dst body) hin hself
  rw [State.request_mgmt h dst body hv]
  have hmsg := State.sendMsg_sent (s := withMgmtRequest s txn dst body) hp (mgmtMessage (withMgmtRequest s txn dst body) txn dst body)
  have hmsg : Sent s ((withMgmtRequest s txn dst body).sendMsg (mgmtMessage (withMgmtRequest s txn dst body) txn dst body)).2
      (ownHdr s dst (BitVec.ofNat 16 txn) s.cfg.tag) (payloadWords (.mgmt body)) (.mgmt body) :=
    Sent.of_routes hmsg rfl rfl
  refine ⟨BitVec.ofNat 16 txn, ?_⟩
  rcases hsent with rfl | rfl
  · exact hmsg
  · generalize ((withMgmtRequest s txn dst body).sendMsg (mgmtMessage (withMgmtRequest s txn dst body) txn dst body)).2 = t at hmsg ⊢
    exact hmsg

end Sys2Proof.Machine
end

section
namespace Sys2Proof.Machine

open Sys2Proof.Certificates.Slice0

/-! ### SECURITY events -/

section SecurityEvents

variable (s : State) (kind more session src lock : Nat)

theorem State.eventless_secEvent : (s.secEvent kind more session src lock).eventless = s.eventless := State.eventless_raise _ _

@[simp] theorem State.secEvent_uarid : (s.secEvent kind more session src lock).uarid = s.uarid :=
  State.keeps_of_eventless State.uarid (fun _ => rfl) (s.eventless_secEvent ..)

@[simp] theorem State.secEvent_pregs : (s.secEvent kind more session src lock).pregs = s.pregs :=
  State.keeps_of_eventless State.pregs (fun _ => rfl) (s.eventless_secEvent ..)

@[simp] theorem State.secEvent_jobs : (s.secEvent kind more session src lock).jobs = s.jobs :=
  State.keeps_of_eventless State.jobs (fun _ => rfl) (s.eventless_secEvent ..)

@[simp] theorem State.secEvent_cfg : (s.secEvent kind more session src lock).cfg = s.cfg :=
  State.keeps_of_eventless State.cfg (fun _ => rfl) (s.eventless_secEvent ..)

@[simp] theorem State.secEvent_ticks : (s.secEvent kind more session src lock).ticks = s.ticks :=
  State.keeps_of_eventless State.ticks (fun _ => rfl) (s.eventless_secEvent ..)

variable {s}

theorem State.rising_secEvent (h : Sparse.rising s.regs = true) : Sparse.rising (s.secEvent kind more session src lock).regs = true :=
  State.rising_raise h _

theorem State.secEvent_reg (h : Sparse.rising s.regs = true) {off : Nat} (ho : off ∉ raiseRegs) :
    (s.secEvent kind more session src lock).reg off = s.reg off := State.raise_reg h _ ho

/-- A SECURITY event that is no fault is posted, and that is all (R289, R477). -/
theorem State.secEvent_posted (h : Sparse.rising s.regs = true) (hkind : kind ≠ 15 ∧ kind ≠ 16) :
    EventPosted s (s.secEvent kind more session src lock) s := by
  have hpost : s.secEvent kind more session src lock = s.postEvent (s.secRecord kind more session src lock) := by
    rw [State.secEvent, State.raise_classed]
    have hcls : (s.secRecord kind more session src lock).cls = 0 := by simp [State.secRecord, hkind.1, hkind.2]
    rw [hcls]
    rfl
  rw [hpost]
  refine ⟨State.eq_of_eventless (State.eventless_postEvent s _), ?_, fun off ho => State.postEvent_reg h _ ho⟩
  by_cases hroom : s.eqEnabled = true ∧ s.eq.used < s.eqSize
  · rw [State.postEvent_room _ hroom.1 hroom.2, State.writeEvent_eq]
    simp only [State.eqNext]
    omega
  · rw [State.postEvent_full _ hroom]
    rfl

end SecurityEvents

/-! ### Persistent registers -/

theorem State.preg_writePreg {s : State} (h : Sparse.rising s.pregs = true) (i : Nat) (v : Word64) (k : Nat) :
    (s.writePreg i v).preg k = if k = i then (s.preg i).write v else s.preg k := Sparse.get_set _ _ _ h k

theorem State.rising_writePreg {s : State} (h : Sparse.rising s.pregs = true) (i : Nat) (v : Word64) :
    Sparse.rising (s.writePreg i v).pregs = true := Sparse.rising_set _ _ _ h

theorem Preg.write_shadow {p : Preg} (h : p.worn = false) (v : Word64) : (p.write v).shadow = v := by
  unfold Preg.write
  rw [h, if_neg Bool.false_ne_true]
  split <;> rfl

/-- Persistent registers from lo on, written one after the other. -/
def State.writePregs (s : State) (lo n : Nat) (v : Nat → Word64) : State :=
  (List.range n).foldl (fun s i => s.writePreg (lo + i) (v i)) s

theorem State.writePregs_succ (s : State) (lo n : Nat) (v : Nat → Word64) :
    s.writePregs lo (n + 1) v = (s.writePregs lo n v).writePreg (lo + n) (v n) := by
  simp [State.writePregs, List.range_succ]

theorem State.writePregs_rest (s : State) (lo n : Nat) (v : Nat → Word64) :
    s.writePregs lo n v = { s with pregs := (s.writePregs lo n v).pregs } := by
  induction n with
  | zero => rfl
  | succ n ih =>
    rw [State.writePregs_succ, ih]
    rfl

theorem State.rising_writePregs {s : State} (h : Sparse.rising s.pregs = true) (lo n : Nat) (v : Nat → Word64) :
    Sparse.rising (s.writePregs lo n v).pregs = true := by
  induction n with
  | zero => exact h
  | succ n ih =>
    rw [State.writePregs_succ]
    exact State.rising_writePreg ih _ _

theorem State.preg_writePregs {s : State} (h : Sparse.rising s.pregs = true) (lo n : Nat) (v : Nat → Word64) (k : Nat) :
    (s.writePregs lo n v).preg k = if lo ≤ k ∧ k < lo + n then (s.preg k).write (v (k - lo)) else s.preg k := by
  induction n generalizing k with
  | zero => rw [if_neg (by omega)]; rfl
  | succ n ih =>
    rw [State.writePregs_succ, State.preg_writePreg (State.rising_writePregs h lo n v)]
    by_cases hk : k = lo + n
    · subst hk
      rw [if_pos rfl, if_pos (by omega), ih, if_neg (by omega), Nat.add_sub_cancel_left]
    · rw [if_neg hk, ih]
      simp only [show (lo ≤ k ∧ k < lo + (n + 1)) ↔ (lo ≤ k ∧ k < lo + n) by omega]

/-! ### Work of the Uarid

Worked says what the parts of a management request change before its answer: nothing that the way of the answer rests on. -/

/-- The registers that the work of a management request may change. -/
def workRegs : List Nat := raiseRegs ++ [Reg.UAR_AUTH_FAILS, Reg.UAR_SESSIONS, Reg.UAR_TAMPERS]

/-- From s to t a management request was worked on: the Uarid, its persistent registers, and what events change. -/
structure Worked (s t : State) : Prop where
  rest : t = { s with uarid := t.uarid, pregs := t.pregs, freeCount := t.freeCount, regs := t.regs, host := t.host, eq := t.eq
                      vectors := t.vectors, out := t.out }
  mbox : t.uarid.mbox = s.uarid.mbox
  regs : Sparse.rising s.regs = true → Sparse.rising t.regs = true ∧ ∀ off, off ∉ workRegs → t.reg off = s.reg off

namespace Worked

variable {s t u : State}

protected theorem refl (s : State) : Worked s s := ⟨rfl, rfl, fun h => ⟨h, fun _ _ => rfl⟩⟩

protected theorem trans (h1 : Worked s t) (h2 : Worked t u) : Worked s u where
  rest := by rw [h2.rest, h1.rest]
  mbox := h2.mbox.trans h1.mbox
  regs h := by
    obtain ⟨hr, h1⟩ := h1.regs h
    obtain ⟨hr, h2⟩ := h2.regs hr
    exact ⟨hr, fun off ho => (h2 off ho).trans (h1 off ho)⟩

theorem modUarid (s : State) (f : Uarid → Uarid) (h : (f s.uarid).mbox = s.uarid.mbox) : Worked s (s.modUarid f) :=
  ⟨rfl, h, fun h => ⟨h, fun _ _ => rfl⟩⟩

theorem count (s : State) {off : Nat} (k : Nat) (h : off ∈ workRegs) : Worked s (s.count off k) where
  rest := rfl
  mbox := rfl
  regs hr := ⟨State.rising_count hr _ _, fun o ho => by
    rw [State.reg_count hr, if_neg (by rintro rfl; exact ho h)]⟩

theorem secEvent (s : State) (kind more session src lock : Nat) : Worked s (s.secEvent kind more session src lock) where
  rest := by
    have hrest := State.eq_of_eventless (s.eventless_secEvent kind more session src lock)
    conv_lhs => rw [hrest]
    rw [hrest]
  mbox := by rw [s.secEvent_uarid]
  regs hr := ⟨State.rising_secEvent _ _ _ _ _ hr, fun off ho =>
    State.secEvent_reg _ _ _ _ _ hr fun hm => ho (List.mem_append_left _ hm)⟩

theorem writePreg (s : State) (i : Nat) (v : Word64) : Worked s (s.writePreg i v) := ⟨rfl, rfl, fun h => ⟨h, fun _ _ => rfl⟩⟩

theorem writePregs (s : State) (lo n : Nat) (v : Nat → Word64) : Worked s (s.writePregs lo n v) := by
  rw [State.writePregs_rest]
  exact ⟨rfl, rfl, fun h => ⟨h, fun _ _ => rfl⟩⟩

theorem free (s : State) : Worked s s.free.2 := ⟨rfl, rfl, fun h => ⟨h, fun _ _ => rfl⟩⟩

/-! #### What the way of the answer rests on -/

theorem reg (h : Worked s t) (hr : Sparse.rising s.regs = true) {off : Nat} (ho : off ∉ workRegs) : t.reg off = s.reg off :=
  (h.regs hr).2 off ho

theorem not_mem_workRegs {off : Nat} (h : off < 0xA00040 ∧ 0x460000 ≤ off) : off ∉ workRegs := by
  simp only [workRegs, raiseRegs, List.mem_append, List.mem_cons, List.not_mem_nil, or_false, Reg.HQ_EQ_LOST, Reg.GLB_FAULT_STAT,
    Reg.GLB_CONTAINED, Reg.UAR_AUTH_FAILS, Reg.UAR_SESSIONS, Reg.UAR_TAMPERS]
  omega

theorem selfDev (h : Worked s t) (hr : Sparse.rising s.regs = true) : t.selfDev = s.selfDev := by
  rw [State.selfDev, State.fld, h.reg hr (not_mem_workRegs (by decide))]
  rfl

theorem axisSize (h : Worked s t) (hr : Sparse.rising s.regs = true) (a : Nat) : t.axisSize a = s.axisSize a := by
  rw [State.axisSize, State.fld, h.reg hr (not_mem_workRegs (by decide))]
  rfl

theorem inTorus (h : Worked s t) (hr : Sparse.rising s.regs = true) (dev : Nat) : t.inTorus dev = s.inTorus dev := by
  simp only [State.inTorus, h.axisSize hr]

theorem route (h : Worked s t) (hr : Sparse.rising s.regs = true) : t.route = s.route := by
  funext p d n
  simp only [State.route, h.axisSize hr, h.selfDev hr]

theorem downLong (h : Worked s t) (hr : Sparse.rising s.regs = true) : t.downLong = s.downLong := by
  funext p
  have hport : t.port p = s.port p := by rw [h.rest]; rfl
  have hticks : t.ticks = s.ticks := by rw [h.rest]
  have hctrl : t.reg Reg.NRN_ROUTE_CTRL = s.reg Reg.NRN_ROUTE_CTRL := h.reg hr (not_mem_workRegs (by decide))
  unfold State.downLong State.fld
  rw [hctrl, hport, hticks]

end Worked

/-! ### The answer of a management request -/

/-- What an answer leaves alone: of the Uarid all but the mailbox, the persistent registers, jobs and configuration, and the registers
beside the mailbox's and the fabric's. -/
structure Delivered (u t : State) : Prop where
  uarid : t.uarid = { u.uarid with mbox := t.uarid.mbox, busy := t.uarid.busy }
  pregs : t.pregs = u.pregs
  jobs : t.jobs = u.jobs
  cfg : t.cfg = u.cfg
  regs : Sparse.rising u.regs = true → Sparse.rising t.regs = true ∧
    ∀ off, 0x470000 ≤ off → off ≠ Reg.UAR_MBOX_CTRL → t.reg off = u.reg off

theorem State.rising_setFld {s : State} (h : Sparse.rising s.regs = true) (off lo n v : Nat) :
    Sparse.rising (s.setFld off lo n v).regs = true := State.rising_setReg h _ _

theorem State.reg_setFld_other {s : State} (h : Sparse.rising s.regs = true) {off i : Nat} (hi : i ≠ off) (lo n v : Nat) :
    (s.setFld off lo n v).reg i = s.reg i := (State.reg_setReg h _ _ _).trans (if_neg hi)

/-- A field apart from the one that is set reads as before. -/
theorem State.fld_setFld_other {s : State} (h : Sparse.rising s.regs = true) (off : Nat) {lo n lo' n' : Nat} (v : Nat)
    (hw : lo' + n' ≤ 64) (ha : lo' + n' ≤ lo ∨ lo + n ≤ lo') : (s.setFld off lo n v).fld off lo' n' = s.fld off lo' n' := by
  rw [State.fld, State.setFld, State.reg_setReg h, if_pos rfl, bits_setBits_other _ _ hw ha]
  rfl

/-- The Uarid with a response in the mailbox. -/
def Uarid.answering (body : List Byte) (u : Uarid) : Uarid := { u with mbox := Sparse.setList 0 u.mbox 0 body, busy := false }

/-- A response put into the mailbox (R478). -/
def State.intoMailbox (u : State) (body : List Byte) : State :=
  ((u.modUarid (Uarid.answering body)).setFld Reg.UAR_MBOX_CTRL 0 13 body.length).setFld Reg.UAR_MBOX_CTRL 15 1 1

theorem State.intoMailbox_delivered (u : State) (body : List Byte) : Delivered u (u.intoMailbox body) where
  uarid := rfl
  pregs := rfl
  jobs := rfl
  cfg := rfl
  regs hr := by
    have hr1 : Sparse.rising (u.modUarid (Uarid.answering body)).regs = true := hr
    refine ⟨State.rising_setFld (State.rising_setFld hr1 _ _ _ _) _ _ _ _, fun off _ hoff => ?_⟩
    rw [State.intoMailbox, State.reg_setFld_other (State.rising_setFld hr1 _ _ _ _) hoff, State.reg_setFld_other hr1 hoff]
    rfl

theorem State.intoMailbox_answer {u : State} (hr : Sparse.rising u.regs = true) (hm : Sparse.rising u.uarid.mbox = true)
    (body : List Byte) :
    Sparse.getList 0 (u.intoMailbox body).uarid.mbox 0 body.length = body ∧ (u.intoMailbox body).uarid.busy = false ∧
      (u.intoMailbox body).fld Reg.UAR_MBOX_CTRL 0 13 = body.length % 8192 ∧ (u.intoMailbox body).fld Reg.UAR_MBOX_CTRL 15 1 = 1 := by
  have hr1 : Sparse.rising (u.modUarid (Uarid.answering body)).regs = true := hr
  have hr2 := State.rising_setFld hr1 Reg.UAR_MBOX_CTRL 0 13 body.length
  refine ⟨Sparse.getList_setList 0 _ 0 hm, rfl, ?_, State.fld_setFld_same hr2 _ _ (by decide)⟩
  rw [State.intoMailbox, State.fld_setFld_other hr2 _ _ (by decide) (.inl (by decide)), State.fld_setFld_same hr1 _ _ (by decide)]
  rfl

theorem State.deliver_delivered (u : State) (op : Nat) (q : MgmtReq) (key : Option (List Byte)) (st : Nat) (pl : List Byte) :
    Delivered u (u.deliver op q key st pl) := by
  unfold State.deliver
  cases q.path with
  | mailbox => exact u.intoMailbox_delivered (responseBody op q key st pl)
  | sideband => exact ⟨rfl, rfl, rfl, rfl, fun h => ⟨h, fun _ _ _ => rfl⟩⟩
  | fabric src =>
    have hreq := u.request_mgmt_requested src (responseBody op q key st pl)
    dsimp only
    generalize (u.request ⟨0, 0, 0, 0, 0⟩ src 0 (.mgmt (responseBody op q key st pl))).2 = t at hreq ⊢
    refine ⟨by rw [hreq.rest], by rw [hreq.rest], by rw [hreq.rest], by rw [hreq.rest], fun hr => ?_⟩
    obtain ⟨hr, hregs⟩ := hreq.regs hr
    exact ⟨hr, fun off ho _ => hregs off (.inr ho)⟩

namespace Delivered

variable {u t : State}

theorem preg (h : Delivered u t) : t.preg = u.preg := by
  funext i
  rw [State.preg, h.pregs]
  rfl

theorem fails (h : Delivered u t) : t.fails = u.fails := by
  rw [State.fails, h.preg]
  rfl

/-- What does not depend on the mailbox is the same of the Uarid before and after an answer. -/
theorem keeps {α : Type} (h : Delivered u t) (f : Uarid → α) (hf : ∀ (x : Uarid) m b, f { x with mbox := m, busy := b } = f x) :
    f t.uarid = f u.uarid := by rw [h.uarid, hf]

theorem sessions (h : Delivered u t) : t.uarid.sessions = u.uarid.sessions := h.keeps Uarid.sessions fun _ _ _ => rfl
theorem challenges (h : Delivered u t) : t.uarid.challenges = u.uarid.challenges := h.keeps Uarid.challenges fun _ _ _ => rfl
theorem life (h : Delivered u t) : t.uarid.life = u.uarid.life := h.keeps Uarid.life fun _ _ _ => rfl

end Delivered

/-- After the work on a request its answer leaves on the way the request came (R464, R465, R478). -/
theorem Worked.answered {s u : State} (h : Worked s u) (ho : s.ordered) (op : Nat) (q : MgmtReq) (key : Option (List Byte)) (st : Nat)
    (pl : List Byte) : MgmtAnswered s (u.deliver op q key st pl) op q key st pl := by
  obtain ⟨-, -, ⟨-, -, hmbox, -⟩, -, hregs, -, -, hports, -⟩ := ho
  obtain ⟨hr, -⟩ := h.regs hregs
  unfold MgmtAnswered State.deliver
  cases q.path with
  | mailbox =>
    have hm : Sparse.rising u.uarid.mbox = true := by rw [h.mbox]; exact hmbox
    exact State.intoMailbox_answer hr hm (responseBody op q key st pl)
  | sideband => exact ⟨_, List.mem_append_right _ List.mem_cons_self⟩
  | fabric src =>
    intro _ hin hself hroom
    have hrest := h.rest
    obtain ⟨txn, hsent⟩ := State.request_mgmt_sent (s := u) (by rw [hrest]; exact hports) (dst := src) (by rw [h.inTorus hregs]; exact hin)
      (by rw [h.selfDev hregs]; exact hself) (by rw [hrest]; exact hroom) (responseBody op q key st pl)
    have hown : ownHdr u src txn u.cfg.tag = ownHdr s src txn s.cfg.tag := by
      rw [ownHdr, h.selfDev hregs, hrest]
      rfl
    rw [hown] at hsent
    exact ⟨txn, Sent.of_routes hsent (h.route hregs) (h.downLong hregs)⟩

end Sys2Proof.Machine
end

section
namespace Sys2Proof.Machine

open Sys2Proof.Certificates.Slice0

/-! ### The Uarid's own changes -/

section ModUarid

variable (s : State) (f : Uarid → Uarid)

@[simp] theorem State.modUarid_uarid : (s.modUarid f).uarid = f s.uarid := rfl
@[simp] theorem State.modUarid_preg : (s.modUarid f).preg = s.preg := rfl

end ModUarid

@[simp] theorem State.secEvent_preg (s : State) (kind more session src lock : Nat) :
    (s.secEvent kind more session src lock).preg = s.preg := by
  funext i
  rw [State.preg, State.secEvent_pregs]
  rfl

/-! ### Keys (R464, R469) -/

theorem State.writeKey_eq (s : State) (k : List Byte) :
    s.writeKey k = s.writePregs 56 4 fun i => BitVec.ofNat 64 (ofBytes ((k.drop (8 * i)).take 8)) := rfl

theorem Worked.keySet (s : State) (q : MgmtReq) (k : List Byte) : Worked s (s.keySet q k) :=
  (Worked.writePregs s 56 4 _).trans (.secEvent _ ..)

/-- What KeyWritten says rests on persistent registers alone. -/
theorem KeyWritten.of_preg {s t u : State} {k : List Byte} (h : KeyWritten s u k) (ht : ∀ i, i ≠ 63 → t.preg i = u.preg i) :
    KeyWritten s t k := by
  obtain ⟨hkey, hother⟩ := h
  refine ⟨fun i hi hw => ?_, fun i hi h63 => ?_⟩
  · rw [ht _ (by omega)]
    exact hkey i hi hw
  · rw [ht _ h63]
    exact hother i hi h63

theorem State.keySet_keyWritten {s : State} (h : Sparse.rising s.pregs = true) (q : MgmtReq) (k : List Byte) :
    KeyWritten s (s.keySet q k) k ∧ (s.keySet q k).preg 63 = s.preg 63 := by
  have hpreg : (s.keySet q k).preg = (s.writeKey k).preg := State.secEvent_preg ..
  rw [KeyWritten, hpreg, State.writeKey_eq]
  refine ⟨⟨fun i hi hw => ?_, fun i hi h63 => ?_⟩, ?_⟩
  · rw [State.preg_writePregs h, if_pos (by omega), Preg.write_shadow hw, Nat.add_sub_cancel_left]
  · rw [State.preg_writePregs h, if_neg (by omega)]
  · rw [State.preg_writePregs h, if_neg (by omega)]

/-! ### Proofs that fail (R468) -/

theorem Worked.setFails (s : State) (f : Nat) : Worked s (s.setFails f) := by
  unfold State.setFails
  split
  · exact .refl s
  · exact .writePreg s 63 _

@[simp] theorem State.setFails_uarid (s : State) (f : Nat) : (s.setFails f).uarid = s.uarid := by
  unfold State.setFails
  split <;> rfl

@[simp] theorem State.setFails_ticks (s : State) (f : Nat) : (s.setFails f).ticks = s.ticks := by
  unfold State.setFails
  split <;> rfl

@[simp] theorem State.setFails_regs (s : State) (f : Nat) : (s.setFails f).regs = s.regs := by
  unfold State.setFails
  split <;> rfl

theorem State.setFails_preg {s : State} (h : Sparse.rising s.pregs = true) (f : Nat) {i : Nat} (hi : i ≠ 63) :
    (s.setFails f).preg i = s.preg i := by
  unfold State.setFails
  split
  · rfl
  · rw [State.preg_writePreg h, if_neg hi]

theorem State.setFails_shadow {s : State} (h : Sparse.rising s.pregs = true) (f : Nat) (hw : (s.preg 63).worn = false) :
    ((s.setFails f).preg 63).shadow = BitVec.ofNat 64 f := by
  unfold State.setFails
  split
  · next hf =>
    rw [← hf, State.fails, BitVec.ofNat_toNat, BitVec.setWidth_eq]
  · rw [State.preg_writePreg h, if_pos rfl, Preg.write_shadow hw]

theorem State.setFails_zero {s : State} (h : Sparse.rising s.pregs = true) (hw : (s.preg 63).worn = false) : (s.setFails 0).fails = 0 := by
  rw [State.fails, State.setFails_shadow h 0 hw]
  rfl

theorem State.reg_eq_of_regs {s t : State} (h : t.regs = s.regs) (off : Nat) : t.reg off = s.reg off := by
  rw [State.reg, h]
  rfl

/-- The Uarid with OPEN_REQ locked until a time. -/
def Uarid.lockUntil (n : Nat) (u : Uarid) : Uarid := { u with lockedUntil := n }

/-- A failed proof, with OPEN_REQ locked until n. -/
def State.countProof (s : State) (q : MgmtReq) (n : Nat) : State :=
  (((s.count Reg.UAR_AUTH_FAILS 1).setFails (s.fails + 1)).modUarid (Uarid.lockUntil n)).secEvent 10 (pathBits q) 0
    (pathCode q.path).2 (s.fails + 1)

theorem State.proofFailed_eq (s : State) (q : MgmtReq) :
    s.proofFailed q = s.countProof q (s.ticks + 2 ^ min s.fails 10 * 1000000000) := by
  unfold State.proofFailed State.countProof Uarid.lockUntil
  extract_lets f s1 s2
  have hticks : s1.ticks = s.ticks := State.setFails_ticks _ _
  have hf : f - 1 = s.fails := Nat.add_sub_cancel ..
  simp only [s2, hticks, hf]
  rfl

theorem Worked.countProof (s : State) (q : MgmtReq) (n : Nat) : Worked s (s.countProof q n) :=
  (((Worked.count s 1 (by decide)).trans (.setFails _ _)).trans (.modUarid _ (Uarid.lockUntil n) rfl)).trans (.secEvent _ ..)

theorem Worked.proofFailed (s : State) (q : MgmtReq) : Worked s (s.proofFailed q) := by
  rw [State.proofFailed_eq]
  generalize s.ticks + 2 ^ min s.fails 10 * 1000000000 = n
  exact .countProof s q n

section CountProof

variable {s : State} (q : MgmtReq) (n : Nat)

theorem State.countProof_uarid (s : State) : (s.countProof q n).uarid = s.uarid.lockUntil n := by
  rw [State.countProof, State.secEvent_uarid, State.modUarid_uarid, State.setFails_uarid]
  rfl

theorem State.countProof_reg (hr : Sparse.rising s.regs = true) :
    (s.countProof q n).reg Reg.UAR_AUTH_FAILS = s.reg Reg.UAR_AUTH_FAILS + 1 := by
  have hregs : (((s.count Reg.UAR_AUTH_FAILS 1).setFails (s.fails + 1)).modUarid (Uarid.lockUntil n)).regs =
      (s.count Reg.UAR_AUTH_FAILS 1).regs := State.setFails_regs _ _
  rw [State.countProof, State.secEvent_reg _ _ _ _ _ (by rw [hregs]; exact State.rising_count hr _ _) (by decide),
    State.reg_eq_of_regs hregs, State.reg_count hr, if_pos rfl]
  rfl

theorem State.countProof_preg (hp : Sparse.rising s.pregs = true) {i : Nat} (hi : i ≠ 63) :
    (s.countProof q n).preg i = s.preg i := by
  rw [State.countProof, State.secEvent_preg, State.modUarid_preg]
  exact State.setFails_preg (s := s.count Reg.UAR_AUTH_FAILS 1) hp _ hi

theorem State.countProof_shadow (hp : Sparse.rising s.pregs = true) (hw : (s.preg 63).worn = false) :
    ((s.countProof q n).preg 63).shadow = (s.preg 63).shadow + 1 := by
  have hshadow : BitVec.ofNat 64 (s.fails + 1) = (s.preg 63).shadow + 1 := by
    rw [State.fails, BitVec.ofNat_add, BitVec.ofNat_toNat, BitVec.setWidth_eq]
    rfl
  rw [State.countProof, State.secEvent_preg, State.modUarid_preg, ← hshadow]
  exact State.setFails_shadow (s := s.count Reg.UAR_AUTH_FAILS 1) hp _ hw

end CountProof

/-- What a failed proof changes: of the Uarid the time until which OPEN_REQ is locked alone (R468). -/
theorem State.proofFailed_counted {s : State} (hr : Sparse.rising s.regs = true) (hp : Sparse.rising s.pregs = true) (q : MgmtReq) :
    ProofFailed s (s.proofFailed q) ∧ (∀ i, i ≠ 63 → (s.proofFailed q).preg i = s.preg i) ∧
      ∃ n, (s.proofFailed q).uarid = s.uarid.lockUntil n := by
  rw [ProofFailed, State.proofFailed_eq]
  generalize hn : s.ticks + 2 ^ min s.fails 10 * 1000000000 = n
  exact ⟨⟨State.countProof_reg q n hr, by rw [State.countProof_uarid]; rfl, State.countProof_shadow q n hp⟩,
    fun i => State.countProof_preg q n hp, n, State.countProof_uarid q n s⟩

/-! ### The wipe, and what it comes with (R236, R474, R475) -/

theorem State.startWipe_eq (s : State) : s.startWipe = s.modUarid fun u =>
    { u with wiping := some (u.wiping.getD s.ticks), wipeAgain := u.wipeAgain || u.wiping.isSome } := by
  unfold State.startWipe State.modUarid
  cases h : s.uarid.wiping <;> simp [h]

theorem State.writePregs_modUarid (s : State) (lo n : Nat) (v : Nat → Word64) (f : Uarid → Uarid) :
    (s.modUarid f).writePregs lo n v = (s.writePregs lo n v).modUarid f := by
  induction n with
  | zero => rfl
  | succ n ih =>
    rw [State.writePregs_succ, State.writePregs_succ, ih]
    rfl

/-- The wipe starts, the SECRET registers are cleared, and sessions are closed. -/
def State.lockdown (s : State) : State := s.startWipe.clearSecrets.closeSessions

/-- The Uarid after a lockdown at a time. -/
def Uarid.lockedDown (n : Nat) (u : Uarid) : Uarid :=
  { u with wiping := some (u.wiping.getD n), wipeAgain := u.wipeAgain || u.wiping.isSome, sessions := [], challenges := [] }

theorem State.lockdown_eq (s : State) :
    s.lockdown = (s.modUarid (Uarid.lockedDown s.ticks)).writePregs 56 8 fun _ => 0 := by
  have h : s.startWipe.clearSecrets = s.startWipe.writePregs 56 8 fun _ => 0 := rfl
  rw [State.lockdown, h, State.startWipe_eq, State.closeSessions, ← State.writePregs_modUarid]
  rfl

theorem State.lockdown_uarid (s : State) : s.lockdown.uarid = s.uarid.lockedDown s.ticks := by
  rw [State.lockdown_eq, State.writePregs_rest]
  rfl

theorem Worked.lockdown (s : State) : Worked s s.lockdown := by
  rw [State.lockdown_eq]
  exact (Worked.modUarid s _ rfl).trans (.writePregs _ ..)

theorem State.lockdown_locked {s : State} (h : Sparse.rising s.pregs = true) : Locked s s.lockdown := by
  have hpreg (i : Nat) := State.preg_writePregs (s := s.modUarid (Uarid.lockedDown s.ticks)) h 56 8 (fun _ => 0) i
  rw [← State.lockdown_eq] at hpreg
  refine ⟨?_, ?_, ?_, fun i hi hw => ?_, fun i hi => ?_, ?_, ?_, ?_⟩
  · rw [State.lockdown_uarid]; exact Option.some_ne_none _
  · rw [State.lockdown_uarid]; rfl
  · rw [State.lockdown_uarid]; rfl
  · rw [hpreg, if_pos (by omega)]; exact Preg.write_shadow hw 0
  · rw [hpreg, if_neg (by omega)]; rfl
  · rw [State.lockdown_eq, State.writePregs_rest]; rfl
  · rw [State.lockdown_eq, State.writePregs_rest]; rfl
  · rw [State.lockdown_uarid]; rfl

/-- What Locked says rests on the wipe, the sessions, the persistent registers, jobs, epochs and measurements. -/
theorem Locked.of_same {s u t : State} (h : Locked s u) (hwiping : t.uarid.wiping = u.uarid.wiping)
    (hsessions : t.uarid.sessions = u.uarid.sessions) (hchallenges : t.uarid.challenges = u.uarid.challenges) (hpreg : t.preg = u.preg)
    (hjobs : t.jobs = u.jobs) (hcfg : t.cfg = u.cfg) (hmeas : t.uarid.meas = u.uarid.meas) : Locked s t := by
  unfold Locked
  rw [hwiping, hsessions, hchallenges, hpreg, hjobs, hcfg, hmeas]
  exact h

/-- The Uarid with a life-cycle fuse blown. -/
def Uarid.blow (b : Nat) (u : Uarid) : Uarid := { u with lifecycle := u.lifecycle ||| BitVec.ofNat 3 (2 ^ b) }

/-- The life-cycle state that the fuses stand for (R472). -/
def lifeOf (fuses : BitVec 3) : Nat :=
  if fuses.getLsbD 2 then 3 else if fuses.getLsbD 1 then 2 else if fuses.getLsbD 0 then 1 else 0

theorem Uarid.life_blow (u : Uarid) (b : Nat) : (u.blow b).life = lifeOf (u.lifecycle ||| BitVec.ofNat 3 (2 ^ b)) := rfl

theorem lifeOf_production : ∀ x : BitVec 3, lifeOf x = 0 → lifeOf (x ||| BitVec.ofNat 3 (2 ^ 0)) = 1 := by decide

theorem lifeOf_rma : ∀ x : BitVec 3, lifeOf x ≠ 3 → lifeOf (x ||| BitVec.ofNat 3 (2 ^ 1)) = 2 := by decide

theorem lifeOf_scrapped : ∀ x : BitVec 3, lifeOf (x ||| BitVec.ofNat 3 (2 ^ 2)) = 3 := by decide

/-- The Uarid after a change of life cycle at a time: locked down, and certified anew unless it is SCRAPPED. -/
def Uarid.relived (b n : Nat) (u : Uarid) : Uarid :=
  let w := (u.blow b).lockedDown n
  if w.life = 3 then w else w.certify

theorem Uarid.relived_life (b n : Nat) (u : Uarid) : (u.relived b n).life = (u.blow b).life := by
  unfold Uarid.relived
  extract_lets w
  split <;> rfl

theorem Uarid.relived_aliasFor {b n : Nat} {u : Uarid} (h : (u.blow b).life ≠ 3) : (u.relived b n).aliasFor = u.meas := by
  unfold Uarid.relived
  extract_lets w
  have hlife : w.life ≠ 3 := h
  rw [if_neg hlife]
  rfl

theorem Uarid.relived_ownerDigest (b n : Nat) (u : Uarid) : (u.relived b n).ownerDigest = u.ownerDigest := by
  unfold Uarid.relived
  extract_lets w
  split <;> rfl

/-- A change of life cycle before its event. -/
def State.relive (s : State) (b : Nat) : State :=
  let v := (s.modUarid (Uarid.blow b)).lockdown
  if v.uarid.life = 3 then v else v.modUarid (·.certify)

theorem State.setLife_eq (s : State) (b : Nat) : s.setLife b = (s.relive b).secEvent 13 0 0 0 0 := rfl

theorem State.relive_uarid (s : State) (b : Nat) : (s.relive b).uarid = s.uarid.relived b s.ticks := by
  have hlocked : (s.modUarid (Uarid.blow b)).lockdown.uarid = (s.uarid.blow b).lockedDown s.ticks := State.lockdown_uarid _
  unfold State.relive Uarid.relived
  extract_lets v w
  rw [hlocked, apply_ite State.uarid, State.modUarid_uarid, hlocked]

theorem State.setLife_uarid (s : State) (b : Nat) : (s.setLife b).uarid = s.uarid.relived b s.ticks := by
  rw [State.setLife_eq, State.secEvent_uarid, State.relive_uarid]

theorem Worked.setLife (s : State) (b : Nat) : Worked s (s.setLife b) := by
  have hlocked : Worked s (s.modUarid (Uarid.blow b)).lockdown := (Worked.modUarid s (Uarid.blow b) rfl).trans (.lockdown _)
  have hrelive : Worked s (s.relive b) := by
    unfold State.relive
    extract_lets v
    split
    · exact hlocked
    · exact hlocked.trans (.modUarid _ _ rfl)
  exact hrelive.trans (.secEvent _ ..)

theorem State.relive_locked {s : State} (h : Sparse.rising s.pregs = true) (b : Nat) : Locked s (s.relive b) := by
  have hlocked : Locked s (s.modUarid (Uarid.blow b)).lockdown := State.lockdown_locked (s := s.modUarid (Uarid.blow b)) h
  unfold State.relive
  extract_lets v
  split
  · exact hlocked
  · exact Locked.of_same hlocked rfl rfl rfl rfl rfl rfl rfl

theorem Locked.secEvent {s u : State} (h : Locked s u) (kind more session src lock : Nat) :
    Locked s (u.secEvent kind more session src lock) := by
  refine Locked.of_same h ?_ ?_ ?_ (State.secEvent_preg ..) (State.secEvent_jobs ..) (State.secEvent_cfg ..) ?_ <;> rw [State.secEvent_uarid]

theorem State.setLife_locked {s : State} (h : Sparse.rising s.pregs = true) (b : Nat) : Locked s (s.setLife b) :=
  Locked.secEvent (State.relive_locked h b) ..

theorem Locked.delivered {s u t : State} (h : Locked s u) (hd : Delivered u t) : Locked s t :=
  Locked.of_same h (hd.keeps Uarid.wiping fun _ _ _ => rfl) hd.sessions hd.challenges hd.preg hd.jobs hd.cfg
    (hd.keeps Uarid.meas fun _ _ _ => rfl)

/-! ### Tamper (R475) -/

/-- The Uarid with the tamper latch set. -/
def Uarid.tainted (u : Uarid) : Uarid := { u with tampered := true, tamperLogged := true }

/-- A tamper before its event. -/
def State.taint (s : State) : State := ((s.modUarid Uarid.tainted).lockdown).count Reg.UAR_TAMPERS 1

theorem State.tamper_eq {s : State} {src : TamperSource} (h : src ≠ .debug ∨ s.uarid.life = 1) :
    s.tamper src = s.taint.secEvent 11 (place (tamperCode src) 8 2) 0 0 0 := by
  rw [State.tamper, if_neg (by tauto)]
  rfl

theorem State.tamper_uarid {s : State} {src : TamperSource} (h : src ≠ .debug ∨ s.uarid.life = 1) :
    (s.tamper src).uarid = s.uarid.tainted.lockedDown s.ticks := by
  have htaint : s.taint.uarid = (s.modUarid Uarid.tainted).lockdown.uarid := rfl
  rw [State.tamper_eq h, State.secEvent_uarid, htaint, State.lockdown_uarid]
  rfl

theorem State.tamper_locked {s : State} (hp : Sparse.rising s.pregs = true) {src : TamperSource} (h : src ≠ .debug ∨ s.uarid.life = 1) :
    Locked s (s.tamper src) := by
  have hlocked : Locked s (s.modUarid Uarid.tainted).lockdown := State.lockdown_locked (s := s.modUarid Uarid.tainted) hp
  have htaint : Locked s s.taint := Locked.of_same hlocked rfl rfl rfl rfl rfl rfl rfl
  rw [State.tamper_eq h]
  exact Locked.secEvent htaint ..

theorem State.tamper_reg {s : State} (hr : Sparse.rising s.regs = true) {src : TamperSource} (h : src ≠ .debug ∨ s.uarid.life = 1) :
    (s.tamper src).reg Reg.UAR_TAMPERS = s.reg Reg.UAR_TAMPERS + 1 := by
  have hregs : (s.modUarid Uarid.tainted).lockdown.regs = s.regs := by
    rw [State.lockdown_eq, State.writePregs_rest]
    rfl
  have hlocked : Sparse.rising (s.modUarid Uarid.tainted).lockdown.regs = true := by rw [hregs]; exact hr
  have htaint : s.taint.reg Reg.UAR_TAMPERS = s.reg Reg.UAR_TAMPERS + 1 := by
    rw [State.taint, State.reg_count hlocked, if_pos rfl, State.reg_eq_of_regs hregs]
    rfl
  have hrising : Sparse.rising s.taint.regs = true := State.rising_count hlocked _ _
  rw [State.tamper_eq h, State.secEvent_reg _ _ _ _ _ hrising (by decide), htaint]

/-! ### Random bytes and challenges (R466) -/

theorem State.nonce_length (s : State) : s.nonce.1.length = 32 := toBytes_length 32 _

theorem Worked.nonce (s : State) : Worked s s.nonce.2 := .free s

theorem Worked.freeBytes (n : Nat) (s : State) : Worked s (Machine.freeBytes n s).2 := by
  induction n generalizing s with
  | zero => exact .refl s
  | succ n ih => exact (Worked.free s).trans (ih _)

/-! ### Sessions (R467) -/

/-- The Uarid with a session that has accepted a request. -/
def Uarid.touched (x : Session) (q : MgmtReq) (n : Nat) (u : Uarid) : Uarid :=
  { u with sessions := u.sessions.map fun y => if y.id = x.id then { y with counter := q.counter.toNat, last := n } else y }

/-- The state in which a request within session x is served. -/
def State.touched (s : State) (x : Session) (q : MgmtReq) : State := s.modUarid (Uarid.touched x q s.ticks)

theorem Worked.touched (s : State) (x : Session) (q : MgmtReq) : Worked s (s.touched x q) := .modUarid s _ rfl

theorem State.mgmtRow_comes {s : State} {op : Nat} {q : MgmtReq} (h : Comes s op q) (i : Instr) : s.mgmtRow op q i = s.serveMgmt op q := by
  obtain ⟨hup, hcome, hfree⟩ := h
  simp [State.mgmtRow, hup, hcome, hfree]

theorem State.inSession_accepted {s : State} {op : Nat} {q : MgmtReq} {x : Session} (h : InSession s op q x)
    (f : List Byte → State → State) : s.inSession op q f = f x.key (s.touched x q) := by
  obtain ⟨-, hsession, hnewer, htag⟩ := h
  have hnot : ¬ (q.counter.toNat ≤ x.counter ∨
      q.tag ≠ sessionTag x.key (mgmtHeader op false q.session.toNat q.counter.toNat q.payload.length 0) q.payload) := by
    rw [not_or, not_not]
    exact ⟨by omega, htag⟩
  rw [State.inSession, hsession]
  dsimp only
  rw [if_neg hnot]
  rfl

theorem State.inSession_discarded {s : State} {op : Nat} {q : MgmtReq} (hc : Comes s op q) (h : ¬ ∃ x, InSession s op q x)
    (f : List Byte → State → State) : s.inSession op q f = (s.count Reg.UAR_AUTH_FAILS 1).ignore q := by
  rw [State.inSession]
  cases hs : s.session q.session.toNat with
  | none => rfl
  | some x =>
    dsimp only
    refine if_pos ?_
    by_contra hn
    rw [not_or, not_not] at hn
    exact h ⟨x, hc, hs, by omega, hn.2⟩

end Sys2Proof.Machine
end

section
namespace Sys2Proof.Machine

open Sys2Proof.Certificates.Slice0

/-! ### Answers outside a session -/

theorem Delivered.kept {u t : State} (h : Delivered u t) : SessionsKept u t := ⟨h.sessions, h.challenges, h.pregs⟩

theorem State.reply_delivered (s : State) (op : Nat) (q : MgmtReq) (st : Nat) (pl : List Byte) : Delivered s (s.reply op q st pl) :=
  s.deliver_delivered op q none st pl

/-- A request that is answered, and changes nothing. -/
theorem State.reply_only {s : State} (ho : s.ordered) (op : Nat) (q : MgmtReq) (st : Nat) (pl : List Byte) :
    SessionsKept s (s.reply op q st pl) ∧ MgmtAnswered s (s.reply op q st pl) op q none st pl :=
  ⟨(s.reply_delivered op q st pl).kept, (Worked.refl s).answered ho op q none st pl⟩

/-! ### Rows of management requests -/

theorem exec_mgmtRow {r : Nat × (MgmtReq → Instr)} (h : r ∈ mgmtRows) (q : MgmtReq) (s : State) :
    exec (r.2 q) s = .next (s.mgmtRow r.1 q (r.2 q)) := by
  simp only [mgmtRows, List.mem_cons, List.not_mem_nil, or_false] at h
  rcases h with rfl | rfl | rfl | rfl | rfl | rfl | rfl | rfl | rfl | rfl <;> rfl

theorem State.mgmtRow_absent {s : State} {op : Nat} {q : MgmtReq} (h : s.uaridUp = false ∨ s.hasCome op q = false) (i : Instr) :
    s.mgmtRow op q i = s := by
  rw [State.mgmtRow, if_pos (by simpa using h)]

theorem State.mgmtRow_wiping {s : State} {op : Nat} {q : MgmtReq} (hup : s.uaridUp = true) (hcome : s.hasCome op q = true)
    (hwiping : s.uarid.wiping ≠ none) (i : Instr) : s.mgmtRow op q i = s.hold i := by
  rw [State.mgmtRow, if_neg (by simp [hup, hcome]), if_pos (Option.isSome_iff_ne_none.mpr hwiping)]

/-- A request within a session that is not accepted is discarded and counted (R467). -/
theorem State.serveMgmt_discarded {s : State} {op : Nat} {q : MgmtReq} (hc : Comes s op q)
    (hop : op ∈ [0x03, 0x11, 0x12, 0x13, 0x14] ∨ op = 0x10 ∧ q.session ≠ 0) (h : ¬ ∃ x, InSession s op q x) :
    s.serveMgmt op q = (s.count Reg.UAR_AUTH_FAILS 1).ignore q := by
  have hd := State.inSession_discarded hc h
  rcases hop with hop | ⟨rfl, hq⟩
  · simp only [List.mem_cons, List.not_mem_nil, or_false] at hop
    rcases hop with rfl | rfl | rfl | rfl | rfl <;>
      simp only [State.serveMgmt, State.closeOp, State.setOwnerOp, State.lifecycleOp, State.clearTamperOp, State.readLogOp, hd]
  · rw [State.serveMgmt, State.setKeyOp, if_neg hq, hd]

theorem State.ignore_rest (s : State) (q : MgmtReq) :
    s.ignore q = { s with uarid := { s.uarid with busy := (s.ignore q).uarid.busy } } := by
  unfold State.ignore
  split <;> rfl

theorem State.ignore_mailbox (s : State) {q : MgmtReq} (h : q.path = .mailbox) : (s.ignore q).uarid.busy = false := by
  rw [State.ignore, h]
  rfl

/-! ### OPEN_REQ (R466, R468) -/

/-- The challenge that OPEN_REQ makes. -/
def State.newChallenge (s : State) (path : MgmtPath) : Challenge :=
  { id := s.uarid.freshId, nonce := s.nonce.1, issued := s.ticks, path := path }

/-- The Uarid with a new challenge in the place of the one of its path. -/
def Uarid.challenging (x : Challenge) (u : Uarid) : Uarid :=
  { u with challenges := (u.challenges.filter fun c => decide (c.path ≠ x.path)) ++ [x], nextId := x.id % 65535 + 1 }

theorem State.challenge_eq (s : State) (path : MgmtPath) :
    s.challenge path = ((s.newChallenge path).nonce, (s.newChallenge path).id,
      s.nonce.2.modUarid (Uarid.challenging (s.newChallenge path))) := by
  have huarid : s.nonce.2.uarid = s.uarid := rfl
  have hticks : s.nonce.2.ticks = s.ticks := rfl
  unfold State.challenge State.newChallenge Uarid.challenging
  generalize s.nonce = n at huarid hticks ⊢
  dsimp only
  rw [huarid, hticks]

/-- The state in which OPEN_REQ answers with a challenge. -/
def State.challenged (s : State) (path : MgmtPath) : State := s.nonce.2.modUarid (Uarid.challenging (s.newChallenge path))

theorem Worked.challenged (s : State) (path : MgmtPath) : Worked s (s.challenged path) :=
  (Worked.nonce s).trans (.modUarid _ (Uarid.challenging (s.newChallenge path)) rfl)

/-- The answer of OPEN_REQ that brings a challenge. -/
def State.challengeAnswer (s : State) (q : MgmtReq) : State :=
  (s.challenged q.path).reply 1 q mOk ((s.newChallenge q.path).nonce ++ toBytes 2 (s.newChallenge q.path).id)

theorem State.openReq_eq (s : State) (q : MgmtReq) : s.openReq q =
    if s.uarid.life = 3 then s.reply 1 q mState []
    else if s.ticks < s.uarid.lockedUntil then s.reply 1 q mLocked []
    else if s.keyHeld = false then s.reply 1 q mRefused []
    else if 4 ≤ s.uarid.sessions.length then s.reply 1 q mBusy []
    else s.challengeAnswer q := by
  rw [State.openReq, State.challenge_eq]
  simp only [Bool.not_eq_true']
  rfl

theorem State.challengeAnswer_delivered (s : State) (q : MgmtReq) : Delivered (s.challenged q.path) (s.challengeAnswer q) :=
  State.reply_delivered ..

theorem State.openReq_kept (s : State) (q : MgmtReq) : (s.openReq q).uarid.sessions = s.uarid.sessions ∧ (s.openReq q).pregs = s.pregs := by
  have hreply (st : Nat) := s.reply_delivered 1 q st []
  rw [State.openReq_eq]
  split
  · exact ⟨(hreply _).sessions, (hreply _).pregs⟩
  split
  · exact ⟨(hreply _).sessions, (hreply _).pregs⟩
  split
  · exact ⟨(hreply _).sessions, (hreply _).pregs⟩
  split
  · exact ⟨(hreply _).sessions, (hreply _).pregs⟩
  · have hopen := s.challengeAnswer_delivered q
    exact ⟨hopen.sessions, hopen.pregs⟩

/-- OPEN_REQ that is accepted: the challenge, and its answer (R466). -/
theorem State.openReq_challenge {s : State} (ho : s.ordered) (q : MgmtReq) :
    (s.challengeAnswer q).uarid.challenges = s.uarid.challenges.filter (fun c => c.path ≠ q.path) ++ [s.newChallenge q.path] ∧
      MgmtAnswered s (s.challengeAnswer q) 1 q none 0 ((s.newChallenge q.path).nonce ++ toBytes 2 (s.newChallenge q.path).id) :=
  ⟨(s.challengeAnswer_delivered q).challenges, (Worked.challenged s q.path).answered ho ..⟩

/-! ### OPEN_RSP (R466, R468) -/

/-- The Uarid with a challenge taken out. -/
def Uarid.spending (x : Challenge) (u : Uarid) : Uarid := { u with challenges := u.challenges.filter fun c => decide (c.id ≠ x.id) }

/-- What a proof is made of: both nonces and the serial number (R466). -/
def State.proofContext (s : State) (x : Challenge) (q : MgmtReq) : List Byte := x.nonce ++ q.payload.take 32 ++ s.serialBytes

/-- The proof of OPEN_RSP passes (R466). -/
def State.proves (s : State) (x : Challenge) (q : MgmtReq) : Prop :=
  q.payload.drop 32 = kmac256 s.mgmtKey (s.proofContext x q) "DLM2048-OPEN"

/-- The session that OPEN_RSP opens. -/
def State.newSession (s : State) (x : Challenge) (q : MgmtReq) : Session :=
  { id := x.id, key := kmac256 s.mgmtKey (s.proofContext x q) "DLM2048-SESSION", counter := 0, last := s.ticks, path := q.path }

/-- What the device proves of itself in its answer. -/
def State.deviceProof (s : State) (x : Challenge) (q : MgmtReq) : List Byte :=
  kmac256 s.mgmtKey (q.payload.take 32 ++ x.nonce ++ s.serialBytes) "DLM2048-DEVICE"

/-- The Uarid with one more session. -/
def Uarid.opening (y : Session) (u : Uarid) : Uarid := { u with sessions := u.sessions ++ [y] }

/-- The work of OPEN_RSP with a wrong proof. -/
def State.proofRefused (s : State) (x : Challenge) (q : MgmtReq) : State :=
  ((s.modUarid (Uarid.spending x)).secEvent 8 (pathBits q) x.id (pathCode q.path).2 0).proofFailed q

/-- The work of OPEN_RSP with a proof that passes. -/
def State.sessionOpened (s : State) (x : Challenge) (q : MgmtReq) : State :=
  ((((s.modUarid (Uarid.spending x)).modUarid (Uarid.opening (s.newSession x q))).setFails 0).count Reg.UAR_SESSIONS 1).secEvent 7
    (pathBits q) x.id (pathCode q.path).2 0

/-- A challenge that no longer serves: it has expired, or the key is gone (R466). -/
def State.challengeGone (s : State) (x : Challenge) : Prop := x.issued + 10000000000 ≤ s.ticks ∨ s.keyHeld = false

theorem State.openRsp_none {s : State} {q : MgmtReq} (h3 : s.uarid.life ≠ 3)
    (h : ∀ x, (s.uarid.challenges.find? fun c => c.path = q.path) = some x → s.challengeGone x) :
    s.openRsp q = s.reply 2 q mRefused [] := by
  rw [State.openRsp, if_neg h3]
  cases hfind : s.uarid.challenges.find? fun c => decide (c.path = q.path) with
  | none => rfl
  | some x => exact if_pos (by simpa [State.challengeGone] using h x hfind)

section Found

variable {s : State} {q : MgmtReq} {x : Challenge} (h3 : s.uarid.life ≠ 3)
  (hfind : (s.uarid.challenges.find? fun c => c.path = q.path) = some x) (hgone : ¬ s.challengeGone x)
include h3 hfind hgone

theorem State.openRsp_busy (h : 4 ≤ s.uarid.sessions.length) : s.openRsp q = s.reply 2 q mBusy [] := by
  rw [State.openRsp, if_neg h3, hfind]
  dsimp only
  rw [if_neg (by simpa [State.challengeGone] using hgone), if_pos h]

theorem State.openRsp_opens (h : s.uarid.sessions.length < 4) (hp : s.proves x q) :
    s.openRsp q = (s.sessionOpened x q).reply 2 q mOk (s.deviceProof x q) := by
  rw [State.openRsp, if_neg h3, hfind]
  dsimp only
  rw [if_neg (by simpa [State.challengeGone] using hgone), if_neg (by omega)]
  exact if_neg (not_not.mpr hp)

theorem State.openRsp_refuses (h : s.uarid.sessions.length < 4) (hp : ¬ s.proves x q) :
    s.openRsp q = (s.proofRefused x q).reply 2 q mBadProof [] := by
  rw [State.openRsp, if_neg h3, hfind]
  dsimp only
  rw [if_neg (by simpa [State.challengeGone] using hgone), if_neg (by omega)]
  exact if_pos hp

end Found

theorem Worked.proofRefused (s : State) (x : Challenge) (q : MgmtReq) : Worked s (s.proofRefused x q) :=
  ((Worked.modUarid s (Uarid.spending x) rfl).trans (.secEvent _ ..)).trans (.proofFailed _ q)

/-- What a wrong proof changes: the challenge is spent, and the failure counted (R468). -/
theorem State.proofRefused_counted {s : State} (hr : Sparse.rising s.regs = true) (hp : Sparse.rising s.pregs = true) (x : Challenge)
    (q : MgmtReq) : ProofFailed s (s.proofRefused x q) ∧ ∃ n, (s.proofRefused x q).uarid = (s.uarid.spending x).lockUntil n := by
  unfold State.proofRefused
  generalize hv : (s.modUarid (Uarid.spending x)).secEvent 8 (pathBits q) x.id (pathCode q.path).2 0 = v
  have hvr : Sparse.rising v.regs = true := by
    rw [← hv]
    exact State.rising_secEvent (s := s.modUarid (Uarid.spending x)) _ _ _ _ _ hr
  have hreg : v.reg Reg.UAR_AUTH_FAILS = s.reg Reg.UAR_AUTH_FAILS := by
    rw [← hv]
    exact State.secEvent_reg (s := s.modUarid (Uarid.spending x)) _ _ _ _ _ hr (by decide)
  have hticks : v.ticks = s.ticks := by rw [← hv, State.secEvent_ticks]; rfl
  have hpregs : v.pregs = s.pregs := by rw [← hv, State.secEvent_pregs]; rfl
  have hpreg : v.preg 63 = s.preg 63 := by rw [← hv, State.secEvent_preg]; rfl
  have hfails : v.fails = s.fails := by rw [State.fails, hpreg]; rfl
  have huarid : v.uarid = s.uarid.spending x := by rw [← hv, State.secEvent_uarid]; rfl
  obtain ⟨hfailed, -, hlocked⟩ := State.proofFailed_counted hvr (by rw [hpregs]; exact hp) q
  rw [ProofFailed, hreg, hticks, hfails, hpreg] at hfailed
  rw [huarid] at hlocked
  exact ⟨hfailed, hlocked⟩

theorem Worked.sessionOpened (s : State) (x : Challenge) (q : MgmtReq) : Worked s (s.sessionOpened x q) :=
  ((((Worked.modUarid s (Uarid.spending x) rfl).trans (.modUarid _ (Uarid.opening (s.newSession x q)) rfl)).trans
    (.setFails _ 0)).trans (.count _ 1 (by decide))).trans (.secEvent _ ..)

section SessionOpened

variable {s : State} (x : Challenge) (q : MgmtReq)

theorem State.sessionOpened_uarid (s : State) : (s.sessionOpened x q).uarid = (s.uarid.spending x).opening (s.newSession x q) := by
  rw [State.sessionOpened, State.secEvent_uarid, State.count_uarid, State.setFails_uarid, State.modUarid_uarid, State.modUarid_uarid]

theorem State.sessionOpened_fails (hp : Sparse.rising s.pregs = true) (hw : (s.preg 63).worn = false) :
    (s.sessionOpened x q).fails = 0 := by
  rw [State.fails, State.sessionOpened, State.secEvent_preg]
  exact State.setFails_zero (s := (s.modUarid (Uarid.spending x)).modUarid (Uarid.opening (s.newSession x q))) hp hw

theorem State.sessionOpened_reg (hr : Sparse.rising s.regs = true) :
    (s.sessionOpened x q).reg Reg.UAR_SESSIONS = s.reg Reg.UAR_SESSIONS + 1 := by
  unfold State.sessionOpened
  generalize hv : ((s.modUarid (Uarid.spending x)).modUarid (Uarid.opening (s.newSession x q))).setFails 0 = v
  have hregs : v.regs = s.regs := by rw [← hv, State.setFails_regs]; rfl
  have hvr : Sparse.rising v.regs = true := by rw [hregs]; exact hr
  rw [State.secEvent_reg _ _ _ _ _ (State.rising_count hvr _ _) (by decide), State.reg_count hvr, if_pos rfl,
    State.reg_eq_of_regs hregs]
  rfl

end SessionOpened

/-! ### CLOSE (R467) -/

theorem State.session_id {s : State} {n : Nat} {x : Session} (h : s.session n = some x) : x.id = n := by
  simpa using List.find?_some h

/-- A session that has accepted a request, in the state in which that is served. -/
theorem State.session_touched {s : State} {n : Nat} {x : Session} (h : s.session n = some x) (q : MgmtReq) :
    (s.touched x q).session n = some { x with counter := q.counter.toNat, last := s.ticks } := by
  have hmap : (s.touched x q).session n = (s.uarid.sessions.map fun y =>
    if y.id = x.id then { y with counter := q.counter.toNat, last := s.ticks } else y).find? fun y => decide (y.id = n) := rfl
  have hid : ((fun y : Session => decide (y.id = n)) ∘ fun y =>
      if y.id = x.id then { y with counter := q.counter.toNat, last := s.ticks } else y) = fun y => decide (y.id = n) := by
    funext y
    simp only [Function.comp_apply]
    split <;> rfl
  rw [hmap, List.find?_map, hid]
  rw [State.session] at h
  rw [h]
  simp

theorem State.closeSession_uarid (s : State) (x : Session) :
    (s.closeSession x).uarid = { s.uarid with sessions := s.uarid.sessions.filter fun y => decide (y.id ≠ x.id) } := by
  rw [State.closeSession, State.secEvent_uarid]
  rfl

theorem Worked.closeSession (s : State) (x : Session) : Worked s (s.closeSession x) :=
  (Worked.modUarid s (fun u => { u with sessions := u.sessions.filter fun y => decide (y.id ≠ x.id) }) rfl).trans (.secEvent _ ..)

/-- A session closes with its event (R467, R477). -/
theorem State.closeSession_posted {s : State} (hr : Sparse.rising s.regs = true) (x : Session) :
    EventPosted s (s.closeSession x) { s with uarid := { s.uarid with sessions := s.uarid.sessions.filter fun y => decide (y.id ≠ x.id) } } :=
  State.secEvent_posted (s := s.modUarid fun u => { u with sessions := u.sessions.filter fun y => decide (y.id ≠ x.id) })
    9 _ _ _ _ hr ⟨by decide, by decide⟩

/-- The state in which CLOSE is answered. -/
def State.closed (s : State) (x : Session) (q : MgmtReq) : State :=
  (s.touched x q).closeSession { x with counter := q.counter.toNat, last := s.ticks }

theorem State.closeOp_eq {s : State} {q : MgmtReq} {x : Session} (h : InSession s 3 q x) :
    s.closeOp q = (s.closed x q).deliver 3 q (some x.key) mOk [] := by
  rw [State.closeOp, State.inSession_accepted h, State.session_touched h.session]
  rfl

theorem State.closed_sessions (s : State) (x : Session) (q : MgmtReq) :
    (∀ y ∈ (s.closed x q).uarid.sessions, y.id ≠ x.id ∧ y ∈ s.uarid.sessions) ∧
      ∀ y ∈ s.uarid.sessions, y.id ≠ x.id → y ∈ (s.closed x q).uarid.sessions := by
  have hsessions : (s.closed x q).uarid.sessions = (s.uarid.sessions.map fun y =>
      if y.id = x.id then { y with counter := q.counter.toNat, last := s.ticks } else y).filter fun y => decide (y.id ≠ x.id) := by
    rw [State.closed, State.closeSession_uarid]
    rfl
  rw [hsessions]
  refine ⟨fun y hy => ?_, fun y hy hne => ?_⟩
  · obtain ⟨hmem, hne⟩ := List.mem_filter.mp hy
    have hne : y.id ≠ x.id := by simpa using hne
    obtain ⟨z, hz, rfl⟩ := List.mem_map.mp hmem
    by_cases hid : z.id = x.id
    · exact absurd (by simp [hid]) hne
    · rw [if_neg hid] at hne ⊢
      exact ⟨hne, hz⟩
  · exact List.mem_filter.mpr ⟨List.mem_map.mpr ⟨y, hy, if_neg hne⟩, by simpa using hne⟩

end Sys2Proof.Machine
end

section
namespace Sys2Proof.Machine

open Sys2Proof.Certificates.Slice0

/-! ### Registers stay in order while a management request is served -/

section Rising

variable {s : State} (hr : Sparse.rising s.regs = true)
include hr

theorem Worked.rising {u : State} (h : Worked s u) : Sparse.rising u.regs = true := (h.regs hr).1

theorem State.rising_deliver (op : Nat) (q : MgmtReq) (key : Option (List Byte)) (st : Nat) (pl : List Byte) :
    Sparse.rising (s.deliver op q key st pl).regs = true := ((s.deliver_delivered op q key st pl).regs hr).1

theorem Worked.rising_deliver {u : State} (h : Worked s u) (op : Nat) (q : MgmtReq) (key : Option (List Byte)) (st : Nat)
    (pl : List Byte) : Sparse.rising (u.deliver op q key st pl).regs = true := State.rising_deliver (h.rising hr) op q key st pl

theorem State.rising_inSession (op : Nat) (q : MgmtReq) {f : List Byte → State → State}
    (hf : ∀ k u, Sparse.rising u.regs = true → Sparse.rising (f k u).regs = true) :
    Sparse.rising (s.inSession op q f).regs = true := by
  have hignore : Sparse.rising ((s.count Reg.UAR_AUTH_FAILS 1).ignore q).regs = true := by
    rw [State.ignore_rest]
    exact State.rising_count hr _ _
  unfold State.inSession
  split
  · exact hignore
  · extract_lets h
    split
    · exact hignore
    · exact hf _ _ hr

theorem State.rising_openReq (q : MgmtReq) : Sparse.rising (s.openReq q).regs = true := by
  have hreply (st : Nat) := State.rising_deliver hr 1 q none st []
  rw [State.openReq_eq]
  split
  · exact hreply _
  split
  · exact hreply _
  split
  · exact hreply _
  split
  · exact hreply _
  · exact (Worked.challenged s q.path).rising_deliver hr ..

theorem State.rising_openRsp (q : MgmtReq) : Sparse.rising (s.openRsp q).regs = true := by
  have hreply (st : Nat) := State.rising_deliver hr 2 q none st []
  by_cases h3 : s.uarid.life = 3
  · rw [State.openRsp, if_pos h3]
    exact hreply _
  by_cases hnone : ∀ x, (s.uarid.challenges.find? fun c => c.path = q.path) = some x → s.challengeGone x
  · rw [State.openRsp_none h3 hnone]
    exact hreply _
  push Not at hnone
  obtain ⟨x, hfind, hgone⟩ := hnone
  by_cases hn : 4 ≤ s.uarid.sessions.length
  · rw [State.openRsp_busy h3 hfind hgone hn]
    exact hreply _
  by_cases hp : s.proves x q
  · rw [State.openRsp_opens h3 hfind hgone (by omega) hp]
    exact (Worked.sessionOpened s x q).rising_deliver hr ..
  · rw [State.openRsp_refuses h3 hfind hgone (by omega) hp]
    exact (Worked.proofRefused s x q).rising_deliver hr ..

theorem State.rising_closeOp (q : MgmtReq) : Sparse.rising (s.closeOp q).regs = true := by
  refine State.rising_inSession hr 3 q fun k u hu => State.rising_deliver ?_ ..
  cases u.session q.session.toNat with
  | none => exact hu
  | some x => exact (Worked.closeSession u x).rising hu

theorem State.rising_setKeyOp (q : MgmtReq) : Sparse.rising (s.setKeyOp q).regs = true := by
  unfold State.setKeyOp
  split
  · split
    · exact State.rising_deliver hr ..
    split
    · exact State.rising_deliver hr ..
    · exact (Worked.keySet s q _).rising_deliver hr ..
  · refine State.rising_inSession hr 0x10 q fun k u hu => ?_
    split
    · exact State.rising_deliver hu ..
    split
    · exact State.rising_deliver hu ..
    · exact (Worked.keySet u q _).rising_deliver hu ..

theorem State.rising_setOwnerOp (q : MgmtReq) : Sparse.rising (s.setOwnerOp q).regs = true := by
  refine State.rising_inSession hr 0x11 q fun k u hu => ?_
  split
  · exact State.rising_deliver hu ..
  split
  · exact State.rising_deliver hu ..
  · exact ((Worked.modUarid u _ (by rfl)).trans (.setLife _ 0)).rising_deliver hu ..

theorem State.rising_lifecycleOp (q : MgmtReq) : Sparse.rising (s.lifecycleOp q).regs = true := by
  refine State.rising_inSession hr 0x12 q fun k u hu => ?_
  extract_lets n
  split
  · exact State.rising_deliver hu ..
  split
  · exact (Worked.setLife u 2).rising_deliver hu ..
  split
  · exact (Worked.setLife u 1).rising_deliver hu ..
  · exact State.rising_deliver hu ..

theorem State.rising_clearTamperOp (q : MgmtReq) : Sparse.rising (s.clearTamperOp q).regs = true := by
  refine State.rising_inSession hr 0x13 q fun k u hu => ?_
  split
  · exact State.rising_deliver hu ..
  · exact (Worked.modUarid u _ (by rfl)).rising_deliver hu ..

theorem State.rising_readLogOp (q : MgmtReq) : Sparse.rising (s.readLogOp q).regs = true := by
  refine State.rising_inSession hr 0x14 q fun k u hu => ?_
  split
  · exact State.rising_deliver hu ..
  · exact ((Worked.free u).trans (.freeBytes 30 _)).rising_deliver hu ..

theorem State.rising_nonceOp (q : MgmtReq) : Sparse.rising (s.nonceOp q).regs = true := by
  unfold State.nonceOp
  split
  · exact State.rising_deliver hr ..
  split
  · exact State.rising_deliver hr ..
  · exact ((Worked.nonce s).trans (.modUarid _ _ (by rfl))).rising_deliver hr ..

theorem State.rising_recoverOp (q : MgmtReq) : Sparse.rising (s.recoverOp q).regs = true := by
  unfold State.recoverOp
  split
  · exact State.rising_deliver hr ..
  split
  · exact State.rising_deliver hr ..
  split
  · exact ((Worked.keySet s q _).trans (.setFails _ 0)).rising_deliver hr ..
  · exact (Worked.proofFailed s q).rising_deliver hr ..

theorem State.rising_serveMgmt (op : Nat) (q : MgmtReq) : Sparse.rising (s.serveMgmt op q).regs = true := by
  unfold State.serveMgmt
  split
  · exact State.rising_openReq hr q
  · exact State.rising_openRsp hr q
  · exact State.rising_closeOp hr q
  · exact State.rising_setKeyOp hr q
  · exact State.rising_setOwnerOp hr q
  · exact State.rising_lifecycleOp hr q
  · exact State.rising_clearTamperOp hr q
  · exact State.rising_readLogOp hr q
  · exact State.rising_nonceOp hr q
  · exact State.rising_recoverOp hr q
  · exact State.rising_deliver hr ..

end Rising

/-! ### The mailbox (R478) -/

theorem parseMgmt_path {path : MgmtPath} {body : List Byte} {op : Nat} {q : MgmtReq} (h : parseMgmt path body = some (op, q)) :
    q.path = path := by
  unfold parseMgmt at h
  extract_lets hd f len tag at h
  split at h
  · cases h
  · cases h
    rfl

/-- The state in which the mailbox's request is in service. -/
def State.mboxTaken (s : State) (n : BitVec 13) : State :=
  (s.setFld Reg.UAR_MBOX_CTRL 0 13 n.toNat).modUarid fun u => { u with busy := true }

theorem State.mboxGo_busy {s : State} (h : s.uarid.busy = true) (n : Nat) : s.mboxGo n = s.setFld Reg.UAR_MBOX_CTRL 16 1 1 := by
  rw [State.mboxGo, if_pos h]

theorem State.mboxGo_taken {s : State} (h : s.uarid.busy = false) (hup : s.uaridUp = true) (n : BitVec 13) :
    s.mboxGo n.toNat = match (s.mboxTaken n).mailbox with
      | none => (s.mboxTaken n).reply 0 { path := .mailbox, session := 0, counter := 0, payload := [], tag := [] } mRefused []
      | some (op, q) => if knownOp op then s.mboxTaken n else (s.mboxTaken n).reply op { q with session := 0 } mRefused [] := by
  have hup1 : (s.setFld Reg.UAR_MBOX_CTRL 0 13 n.toNat).uaridUp = true := hup
  rw [State.mboxGo, if_neg (by simp [h])]
  dsimp only
  rw [if_neg (by simp [hup1])] <;> rfl

theorem State.mboxTaken_mailbox {s : State} (hr : Sparse.rising s.regs = true) (n : BitVec 13) :
    (s.mboxTaken n).mailbox = parseMgmt .mailbox (Sparse.getList 0 s.uarid.mbox 0 (if n = 0 then 8192 else n.toNat)) := by
  have hlen : (s.mboxTaken n).fld Reg.UAR_MBOX_CTRL 0 13 = n.toNat := by
    have := State.fld_setFld_same hr Reg.UAR_MBOX_CTRL (lo := 0) (n := 13) n.toNat (by decide)
    rw [Nat.mod_eq_of_lt n.isLt] at this
    exact this
  have hzero : (n = 0) = (n.toNat = 0) := by rw [← BitVec.toNat_inj]; rfl
  rw [State.mailbox, hlen]
  simp only [hzero]
  rfl

/-! ### Messages of the fabric (R355, R464) -/

section Fabric

variable {s : State} {h : MsgHdr} {body : List Byte} (ha : Arrived s h)
include ha

theorem Arrived.arrives : s.arrives h = true := by
  obtain ⟨⟨p, hp, hopen⟩, -⟩ := ha
  rw [State.arrives, hp]
  exact hopen

theorem Arrived.msgMgmt_held (hw : s.uarid.wiping ≠ none) :
    exec (.msgMgmt h body) s = .next { s with held := s.held ++ [.msgMgmt h body] } := by
  have hfor : s.forUarid { hdr := h, len := payloadWords (.mgmt body), payload := .mgmt body } = true := by
    simpa [State.forUarid] using ha.2.1
  have hexec : exec (.msgMgmt h body) s =
    .next (s.arriveAll (.msgMgmt h body) { hdr := h, len := payloadWords (.mgmt body), payload := .mgmt body }) := rfl
  rw [hexec, State.arriveAll, if_pos ⟨Option.isSome_iff_ne_none.mpr hw, hfor, Arrived.arrives ha⟩]
  rfl

theorem Arrived.msgMgmt_served (hw : s.uarid.wiping = none) : ∃ m : QMsg,
    exec (.msgMgmt h body) s = .next ((fabricMgmt h.src body (s.answerReq h rspOk [])).giveBack m) := by
  have hexec : exec (.msgMgmt h body) s =
    .next (s.arriveAll (.msgMgmt h body) { hdr := h, len := payloadWords (.mgmt body), payload := .mgmt body }) := rfl
  have harrive (m : QMsg) (hm : m.hdr = h) (hpay : m.payload = .mgmt body) : s.arrive (.msgMgmt h body) m fabricMgmt =
      (fabricMgmt h.src body (s.answerReq h rspOk [])).giveBack { m with inVc := m.vc } := by
    simp only [State.arrive, hm, hpay, Arrived.arrives ha, ha.2.1, Bool.not_true, Bool.false_eq_true, if_false, ne_eq,
      not_true_eq_false]
  rw [hexec, State.arriveAll, if_neg (by simp [hw]), harrive _ rfl rfl]
  exact ⟨_, rfl⟩

end Fabric

end Sys2Proof.Machine
end

section
namespace Sys2Proof.Machine

open Sys2Proof.Certificates.Slice0

/-! ### What order says of the maps that management uses -/

theorem State.ordered.rising_pregs {s : State} (ho : s.ordered) : Sparse.rising s.pregs = true := by
  obtain ⟨-, -, -, -, -, -, -, -, -, -, hpregs, -⟩ := ho
  exact hpregs

theorem State.ordered.rising_ports {s : State} (ho : s.ordered) : Sparse.rising s.ports = true := by
  obtain ⟨-, -, -, -, -, -, -, hports, -⟩ := ho
  exact hports

theorem State.ordered.rising_mbox {s : State} (ho : s.ordered) : Sparse.rising s.uarid.mbox = true := by
  obtain ⟨-, -, ⟨-, -, hmbox, -⟩, -⟩ := ho
  exact hmbox

/-! ### The parts of O49 -/

/-- A management request that has come is served. -/
theorem exec_comes {r : Nat × (MgmtReq → Instr)} (hmem : r ∈ mgmtRows) {s : State} {q : MgmtReq} (hc : Comes s r.1 q) :
    exec (r.2 q) s = .next (s.serveMgmt r.1 q) := by
  rw [exec_mgmtRow hmem, State.mgmtRow_comes hc]

section Sessions

variable {s : State} (ho : s.ordered)
include ho

/-- A request within a session that is not accepted (R467). -/
theorem mgmtRow_discards {r : Nat × (MgmtReq → Instr)} (hmem : r ∈ mgmtRows) {q : MgmtReq} (hc : Comes s r.1 q)
    (hop : r.1 ∈ [0x03, 0x11, 0x12, 0x13, 0x14] ∨ r.1 = 0x10 ∧ q.session ≠ 0) (hn : ¬ ∃ x, InSession s r.1 q x) :
    ∃ t, exec (r.2 q) s = .next t ∧ t = { s with uarid := { s.uarid with busy := t.uarid.busy }, regs := t.regs } ∧
      (q.path = .mailbox → t.uarid.busy = false) ∧ t.reg Reg.UAR_AUTH_FAILS = s.reg Reg.UAR_AUTH_FAILS + 1 ∧
      ∀ off, off ≠ Reg.UAR_AUTH_FAILS → t.reg off = s.reg off := by
  have hreg (off : Nat) : ((s.count Reg.UAR_AUTH_FAILS 1).ignore q).reg off = (s.count Reg.UAR_AUTH_FAILS 1).reg off := by
    rw [State.ignore_rest]
    rfl
  refine ⟨_, by rw [exec_comes hmem hc, State.serveMgmt_discarded hc hop hn], ?_,
    fun hq => State.ignore_mailbox _ hq, ?_, fun off hoff => ?_⟩
  · conv_lhs => rw [State.ignore_rest]
    rw [State.ignore_rest]
    rfl
  · rw [hreg, State.reg_count ho.maps.regs, if_pos rfl]
    rfl
  · rw [hreg, State.reg_count ho.maps.regs, if_neg hoff]

theorem openReq_answers (q : MgmtReq) :
    (s.openReq q).uarid.sessions = s.uarid.sessions ∧ (s.openReq q).pregs = s.pregs ∧
      let u := s.uarid
      let t := s.openReq q
      let locked := s.ticks < u.lockedUntil
      (u.life = 3 → SessionsKept s t ∧ MgmtAnswered s t 1 q none 5 []) ∧
      (u.life ≠ 3 → locked → SessionsKept s t ∧ MgmtAnswered s t 1 q none 2 []) ∧
      (u.life ≠ 3 → ¬ locked → s.keyHeld = false → SessionsKept s t ∧ MgmtAnswered s t 1 q none 1 []) ∧
      (u.life ≠ 3 → ¬ locked → s.keyHeld = true → 4 ≤ u.sessions.length → SessionsKept s t ∧ MgmtAnswered s t 1 q none 3 []) ∧
      (u.life ≠ 3 → ¬ locked → s.keyHeld = true → u.sessions.length < 4 → ∃ x : Challenge, x.path = q.path ∧ x.issued = s.ticks ∧
        x.nonce.length = 32 ∧ t.uarid.challenges = u.challenges.filter (fun c => c.path ≠ q.path) ++ [x] ∧
        MgmtAnswered s t 1 q none 0 (x.nonce ++ toBytes 2 x.id)) := by
  obtain ⟨hsessions, hpregs⟩ := s.openReq_kept q
  have honly (st : Nat) := State.reply_only ho 1 q st []
  refine ⟨hsessions, hpregs, fun h3 => ?_, fun h3 hl => ?_, fun h3 hl hk => ?_, fun h3 hl hk hn => ?_, fun h3 hl hk hn => ?_⟩
  · rw [State.openReq_eq, if_pos h3]
    exact honly 5
  · rw [State.openReq_eq, if_neg h3, if_pos hl]
    exact honly 2
  · rw [State.openReq_eq, if_neg h3, if_neg hl, if_pos hk]
    exact honly 1
  · rw [State.openReq_eq, if_neg h3, if_neg hl, if_neg (by simp [hk]), if_pos hn]
    exact honly 3
  · rw [State.openReq_eq, if_neg h3, if_neg hl, if_neg (by simp [hk]), if_neg (by omega)]
    obtain ⟨hchallenges, hanswer⟩ := State.openReq_challenge ho q
    exact ⟨s.newChallenge q.path, rfl, rfl, s.nonce_length, hchallenges, hanswer⟩

theorem openRsp_answers (q : MgmtReq) :
    let u := s.uarid
    let t := s.openRsp q
    let ch := u.challenges.find? fun c => c.path = q.path
    (u.life = 3 → SessionsKept s t ∧ MgmtAnswered s t 2 q none 5 []) ∧
      (u.life ≠ 3 → (∀ x, ch = some x → s.challengeGone x) → SessionsKept s t ∧ MgmtAnswered s t 2 q none 1 []) ∧
      ∀ x, u.life ≠ 3 → ch = some x → ¬ s.challengeGone x → 4 ≤ u.sessions.length →
        SessionsKept s t ∧ MgmtAnswered s t 2 q none 3 [] := by
  have honly (st : Nat) := State.reply_only ho 2 q st []
  refine ⟨fun h3 => ?_, fun h3 hnone => ?_, fun x h3 hfind hgone hn => ?_⟩
  · rw [State.openRsp, if_pos h3]
    exact honly 5
  · rw [State.openRsp_none h3 hnone]
    exact honly 1
  · rw [State.openRsp_busy h3 hfind hgone hn]
    exact honly 3

/-- OPEN_RSP with a wrong proof (R466, R468). -/
theorem openRsp_wrong {q : MgmtReq} {x : Challenge} (h3 : s.uarid.life ≠ 3)
    (hfind : (s.uarid.challenges.find? fun c => c.path = q.path) = some x) (hgone : ¬ s.challengeGone x)
    (hn : s.uarid.sessions.length < 4) (hp : ¬ s.proves x q) :
    (s.openRsp q).uarid.challenges = s.uarid.challenges.filter (fun c => c.id ≠ x.id) ∧
      (s.openRsp q).uarid.sessions = s.uarid.sessions ∧ MgmtAnswered s (s.openRsp q) 2 q none 4 [] ∧ ProofFailed s (s.openRsp q) := by
  rw [State.openRsp_refuses h3 hfind hgone hn hp]
  have hd := (s.proofRefused x q).reply_delivered 2 q mBadProof []
  obtain ⟨⟨hreg, hlocked, hshadow⟩, n, huarid⟩ := State.proofRefused_counted ho.maps.regs ho.rising_pregs x q
  have hwork := Worked.proofRefused s x q
  refine ⟨?_, ?_, hwork.answered ho 2 q none 4 [], ?_, ?_, ?_⟩
  · rw [hd.challenges, huarid]
    rfl
  · rw [hd.sessions, huarid]
    rfl
  · rw [(hd.regs (hwork.rising ho.maps.regs)).2 _ (by decide) (by decide), hreg]
  · exact (hd.keeps Uarid.lockedUntil fun _ _ _ => rfl).trans hlocked
  · rw [hd.preg]
    exact hshadow

/-- OPEN_RSP with the right proof (R466, R468). -/
theorem openRsp_right {q : MgmtReq} {x : Challenge} (h3 : s.uarid.life ≠ 3)
    (hfind : (s.uarid.challenges.find? fun c => c.path = q.path) = some x) (hgone : ¬ s.challengeGone x)
    (hn : s.uarid.sessions.length < 4) (hp : s.proves x q) :
    (s.openRsp q).uarid.challenges = s.uarid.challenges.filter (fun c => c.id ≠ x.id) ∧
      (s.openRsp q).uarid.sessions = s.uarid.sessions ++ [s.newSession x q] ∧
      MgmtAnswered s (s.openRsp q) 2 q none 0 (s.deviceProof x q) ∧
      (s.openRsp q).reg Reg.UAR_SESSIONS = s.reg Reg.UAR_SESSIONS + 1 ∧ ((s.preg 63).worn = false → (s.openRsp q).fails = 0) := by
  rw [State.openRsp_opens h3 hfind hgone hn hp]
  have hd := (s.sessionOpened x q).reply_delivered 2 q mOk (s.deviceProof x q)
  have huarid := s.sessionOpened_uarid x q
  have hwork := Worked.sessionOpened s x q
  refine ⟨?_, ?_, hwork.answered ho 2 q none 0 _, ?_, fun hw => ?_⟩
  · rw [hd.challenges, huarid]
    rfl
  · rw [hd.sessions, huarid]
    rfl
  · rw [(hd.regs (hwork.rising ho.maps.regs)).2 _ (by decide) (by decide), State.sessionOpened_reg x q ho.maps.regs]
  · rw [hd.fails, State.sessionOpened_fails x q ho.rising_pregs hw]

/-- CLOSE (R467). -/
theorem close_answers {q : MgmtReq} {x : Session} (h : InSession s 0x03 q x) : ∃ t, exec (.close q) s = .next t ∧
    MgmtAnswered s t 3 q (some x.key) 0 [] ∧ (∀ y ∈ t.uarid.sessions, y.id ≠ x.id ∧ y ∈ s.uarid.sessions) ∧
      ∀ y ∈ s.uarid.sessions, y.id ≠ x.id → y ∈ t.uarid.sessions := by
  have hwork : Worked s (s.closed x q) := (Worked.touched s x q).trans (.closeSession _ _)
  have hexec : exec (.close q) s = .next (s.closeOp q) := exec_comes (r := (0x03, .close)) (by simp [mgmtRows]) h.toComes
  refine ⟨(s.closed x q).deliver 3 q (some x.key) mOk [], hexec.trans (by rw [State.closeOp_eq h]), hwork.answered ho 3 q (some x.key) 0 [], ?_⟩
  rw [(State.deliver_delivered ..).sessions]
  exact s.closed_sessions x q

theorem sessionIdleClose_due (n : BitVec 16) : ∃ t, exec (.sessionIdleClose n) s = .next t ∧
    let due := ∃ x, s.session n.toNat = some x ∧ x.last + 60000000000 ≤ s.ticks
    (¬ due → t = s) ∧
      (due → EventPosted s t { s with uarid := { s.uarid with sessions := s.uarid.sessions.filter (fun y => y.id ≠ n.toNat) } }) := by
  have hexec : exec (.sessionIdleClose n) s = .next (match s.session n.toNat with
    | none => s
    | some x => if x.last + 60000000000 ≤ s.ticks then s.closeSession x else s) := rfl
  rw [hexec]
  cases hs : s.session n.toNat with
  | none => exact ⟨s, rfl, fun _ => rfl, fun ⟨x, hx, _⟩ => by cases hx⟩
  | some x =>
    dsimp only
    refine ⟨_, rfl, fun hn => ?_, fun ⟨y, hy, hdue⟩ => ?_⟩
    · exact if_neg fun hdue => hn ⟨x, rfl, hdue⟩
    · cases hy
      rw [if_pos hdue, ← State.session_id hs]
      exact State.closeSession_posted ho.maps.regs x

/-- The mailbox's go (R478). -/
theorem uarMboxGo_takes (n : BitVec 13) : ∃ t, exec (.uarMboxGo n) s = .next t ∧
    let u := s.uarid
    (u.busy = true → t = { s with regs := t.regs } ∧ t.fld Reg.UAR_MBOX_CTRL 16 1 = 1) ∧
    (u.busy = false → s.uaridUp = true →
      let got := parseMgmt .mailbox (Sparse.getList 0 u.mbox 0 (if n = 0 then 8192 else n.toNat))
      (∀ op q, got = some (op, q) → op ∈ mgmtRows.map (·.1) → t.hasCome op q = true ∧ SessionsKept s t) ∧
      (got = none → t.uarid.busy = false ∧ t.fld Reg.UAR_MBOX_CTRL 15 1 = 1 ∧ SessionsKept s t)) := by
  refine ⟨s.mboxGo n.toNat, rfl, fun hbusy => ?_, fun hbusy hup => ?_⟩
  · rw [State.mboxGo_busy hbusy]
    exact ⟨rfl, State.fld_setFld_same ho.maps.regs _ _ (by decide)⟩
  · have hmailbox := State.mboxTaken_mailbox ho.maps.regs n
    rw [State.mboxGo_taken hbusy hup]
    refine ⟨fun op q hgot hop => ?_, fun hgot => ?_⟩
    · rw [hgot] at hmailbox
      have hknown : knownOp op = true := List.elem_eq_true_of_mem hop
      rw [hmailbox]
      dsimp only
      rw [if_pos hknown, State.hasCome, parseMgmt_path hgot]
      refine ⟨?_, rfl, rfl, rfl⟩
      rw [hmailbox]
      simp [State.mboxTaken]
    · rw [hgot] at hmailbox
      rw [hmailbox]
      have hr : Sparse.rising (s.mboxTaken n).regs = true := State.rising_setFld ho.maps.regs _ _ _ _
      have hm : Sparse.rising (s.mboxTaken n).uarid.mbox = true := ho.rising_mbox
      have hanswer := State.intoMailbox_answer hr hm (responseBody 0
        { path := .mailbox, session := 0, counter := 0, payload := [], tag := [] } none mRefused [])
      have hkept := ((s.mboxTaken n).reply_delivered 0 { path := .mailbox, session := 0, counter := 0, payload := [], tag := [] }
        mRefused []).kept
      exact ⟨hanswer.2.1, hanswer.2.2.2, hkept⟩

/-- A MGMT message of another device (R355, R464). -/
theorem msgMgmt_serves {h : MsgHdr} (ha : Arrived s h) (body : List Byte) (hw : s.uarid.wiping = none) :
    ∃ t, exec (.msgMgmt h body) s = .next t ∧
      (s.uaridUp = false ∨ (∀ op q, parseMgmt (.fabric h.src) body = some (op, q) → 1024 < mgmtSize q) → Replied s t s h 0 [] []) ∧
      ∀ op q, s.uaridUp = true → parseMgmt (.fabric h.src) body = some (op, q) → mgmtSize q ≤ 1024 → ∀ c, (op, c) ∈ mgmtRows →
        ∃ a b, Replied s a s h 0 [] [] ∧ exec (c q) a = .next b ∧ PortsMoved b t b [] := by
  obtain ⟨m, hexec⟩ := Arrived.msgMgmt_served ha (body := body) hw
  have hr := ho.maps.regs
  have hports := ho.rising_ports
  obtain ⟨hmoved, hsent⟩ := State.answerReq_replied hports ha.2.2 rspOk []
  generalize s.answerReq h rspOk [] = a at hexec hmoved hsent
  have hup : a.uaridUp = s.uaridUp := by rw [hmoved.rest]; rfl
  have hwa : a.uarid.wiping = none := by rw [hmoved.rest]; exact hw
  refine ⟨_, hexec, fun hnot => ?_, fun op q hup1 hparse hsize c hmem => ?_⟩
  · have hunserved : fabricMgmt h.src body a = a := by
      unfold fabricMgmt
      rw [hup]
      rcases hnot with hdown | hlarge
      · rw [hdown]
        rfl
      · cases hparse : parseMgmt (.fabric h.src) body with
        | none => simp
        | some r =>
          have := hlarge r.1 r.2 hparse
          simp [show ¬ mgmtSize r.2 ≤ 1024 by omega]
    rw [hunserved]
    exact Moved.replied hr (hmoved.trans (.giveBack a m)) (Sent.moved hsent (.giveBack a m) (hmoved.ports hports).1)
  · have hserved : fabricMgmt h.src body a = a.serveMgmt op q := by
      simp [fabricMgmt, hup, hup1, hparse, hsize]
    have hcomes : Comes a op q := ⟨by rw [hup, hup1], by rw [State.hasCome, parseMgmt_path hparse]; exact decide_eq_true hsize, hwa⟩
    refine ⟨a, a.serveMgmt op q, Moved.replied hr hmoved hsent, ?_, ?_⟩
    · exact exec_comes hmem hcomes
    · rw [hserved]
      exact (Moved.giveBack _ m).portsMoved (State.rising_serveMgmt (hmoved.regs hr).1 op q)

end Sessions

end Sys2Proof.Machine

open Sys2Proof Sys2Proof.Machine Sys2Proof.Certificates.Slice0

/-- Settles O49: each request is worked on within the Uarid, and then answered on the way it came. -/
theorem sessionsOpenServeAndClose : Obligations.SessionsOpenServeAndClose := by
  intro s ho
  refine ⟨fun r hr q => ⟨fun h => ?_, fun hup hcome hw => ?_, fun hc hop hn => mgmtRow_discards ho hr hc hop hn⟩,
    fun q hc => ⟨s.openReq q, exec_comes (r := (0x01, .openReq)) (by simp [mgmtRows]) hc, openReq_answers ho q⟩,
    fun q hc => ⟨s.openRsp q, exec_comes (r := (0x02, .openRsp)) (by simp [mgmtRows]) hc, ?_⟩,
    fun q x h => close_answers ho h, fun n => ⟨_, rfl, ?_⟩, sessionIdleClose_due ho, uarMboxGo_takes ho,
    fun h body ha => ⟨Arrived.msgMgmt_held ha, msgMgmt_serves ho ha body⟩⟩
  · rw [exec_mgmtRow hr, State.mgmtRow_absent h]
  · rw [exec_mgmtRow hr, State.mgmtRow_wiping hup hcome hw]
    rfl
  · obtain ⟨hscrapped, hnone, hbusy⟩ := openRsp_answers ho q
    refine ⟨hscrapped, hnone, hbusy, fun x h3 hfind hgone hn => ?_⟩
    by_cases hp : s.proves x q
    · obtain ⟨hchallenges, hopen⟩ := openRsp_right ho h3 hfind hgone hn hp
      exact ⟨hchallenges, fun hne => absurd hp hne, fun _ => hopen⟩
    · obtain ⟨hchallenges, hsessions, hanswer, hfailed⟩ := openRsp_wrong ho h3 hfind hgone hn hp
      exact ⟨hchallenges, fun _ => ⟨hsessions, hanswer, hfailed⟩, fun he => absurd he hp⟩
  · simp only [State.modUarid, decide_not]

end

section
namespace Sys2Proof.Machine

open Sys2Proof.Certificates.Slice0

/-! ### The parts of O50 -/

section Keys

variable {s : State} (ho : s.ordered)
include ho

/-- A request outside a session that is answered, and changes no persistent register. -/
theorem reply_pregs (op : Nat) (q : MgmtReq) (st : Nat) (pl : List Byte) :
    (s.reply op q st pl).pregs = s.pregs ∧ MgmtAnswered s (s.reply op q st pl) op q none st pl := by
  obtain ⟨⟨-, -, hpregs⟩, hanswer⟩ := State.reply_only ho op q st pl
  exact ⟨hpregs, hanswer⟩

/-- A request in a session that is answered, and changes nothing else. -/
theorem touched_answered (x : Session) (op : Nat) (q : MgmtReq) (st : Nat) (pl : List Byte) :
    Delivered (s.touched x q) ((s.touched x q).deliver op q (some x.key) st pl) ∧
      MgmtAnswered s ((s.touched x q).deliver op q (some x.key) st pl) op q (some x.key) st pl :=
  ⟨State.deliver_delivered .., (Worked.touched s x q).answered ho op q (some x.key) st pl⟩

theorem keySet_answered (u : State) (hu : Worked s u) (hpregs : u.pregs = s.pregs) (q : MgmtReq) (k : List Byte) (op : Nat)
    (key : Option (List Byte)) :
    let t := (u.keySet q k).deliver op q key 0 []
    KeyWritten s t k ∧ t.preg 63 = s.preg 63 ∧ MgmtAnswered s t op q key 0 [] := by
  have hpreg : u.preg = s.preg := by
    funext i
    rw [State.preg, hpregs]
    rfl
  obtain ⟨hkey, hfails⟩ := State.keySet_keyWritten (s := u) (by rw [hpregs]; exact ho.rising_pregs) q k
  rw [KeyWritten, hpreg] at hkey
  have hd := (u.keySet q k).deliver_delivered op q key 0 []
  refine ⟨KeyWritten.of_preg hkey fun i _ => congrFun hd.preg i, ?_, (hu.trans (.keySet u q k)).answered ho op q key 0 []⟩
  rw [hd.preg, hfails, hpreg]

theorem setKey_first {q : MgmtReq} (hc : Comes s 0x10 q) (hq : q.session = 0) : ∃ t, exec (.setKey q) s = .next t ∧
    let u := s.uarid
    let first := q.path = .mailbox ∧ s.keyHeld = false ∧ (u.life = 0 ∨ u.life = 2 ∧ u.ownerDigest = none) ∧ q.payload.length = 32
    (u.life = 3 → t.pregs = s.pregs ∧ MgmtAnswered s t 0x10 q none 5 []) ∧
      (u.life ≠ 3 → ¬ first → t.pregs = s.pregs ∧ MgmtAnswered s t 0x10 q none 1 []) ∧
      (first → KeyWritten s t q.payload ∧ t.preg 63 = s.preg 63 ∧ MgmtAnswered s t 0x10 q none 0 []) := by
  refine ⟨s.setKeyOp q, exec_comes (r := (0x10, .setKey)) (by simp [mgmtRows]) hc, fun h3 => ?_, fun h3 hfirst => ?_, fun hfirst => ?_⟩
  · rw [State.setKeyOp, if_pos hq, if_pos h3]
    exact reply_pregs ho 0x10 q 5 []
  · have hnot : (!s.firstKey q) = true ∨ q.payload.length ≠ 32 := by
      by_contra hn
      simp [State.firstKey] at hn
      tauto
    rw [State.setKeyOp, if_pos hq, if_neg h3, if_pos hnot]
    exact reply_pregs ho 0x10 q 1 []
  · obtain ⟨hpath, hheld, hlife, hlen⟩ := hfirst
    have hkey : s.firstKey q = true := by simpa [State.firstKey, hpath, hheld] using hlife
    rw [State.setKeyOp, if_pos hq, if_neg (by omega), if_neg (by simp [hkey, hlen])]
    exact keySet_answered ho s (.refl s) rfl q q.payload 0x10 none

omit ho in
theorem State.touched_life (s : State) (x : Session) (q : MgmtReq) : (s.touched x q).uarid.life = s.uarid.life := rfl

theorem setKey_inSession {q : MgmtReq} {x : Session} (h : InSession s 0x10 q x) (hq : q.session ≠ 0) :
    ∃ t, exec (.setKey q) s = .next t ∧
      let u := s.uarid
      (u.life = 3 → t.pregs = s.pregs ∧ MgmtAnswered s t 0x10 q (some x.key) 5 []) ∧
      (u.life ≠ 3 → q.payload.length ≠ 32 → t.pregs = s.pregs ∧ MgmtAnswered s t 0x10 q (some x.key) 1 []) ∧
      (u.life ≠ 3 → q.payload.length = 32 → KeyWritten s t q.payload ∧ t.preg 63 = s.preg 63 ∧
        MgmtAnswered s t 0x10 q (some x.key) 0 []) := by
  have honly (st : Nat) := touched_answered ho x 0x10 q st []
  refine ⟨s.setKeyOp q, exec_comes (r := (0x10, .setKey)) (by simp [mgmtRows]) h.toComes, ?_⟩
  rw [State.setKeyOp, if_neg hq, State.inSession_accepted h, State.touched_life]
  refine ⟨fun h3 => ?_, fun h3 hlen => ?_, fun h3 hlen => ?_⟩
  · obtain ⟨hd, hanswer⟩ := honly 5
    rw [if_pos h3]
    exact ⟨hd.pregs, hanswer⟩
  · obtain ⟨hd, hanswer⟩ := honly 1
    rw [if_neg h3, if_pos hlen]
    exact ⟨hd.pregs, hanswer⟩
  · rw [if_neg h3, if_neg (not_not.mpr hlen)]
    exact keySet_answered ho (s.touched x q) (.touched s x q) rfl q q.payload 0x10 (some x.key)

/-! #### The life cycle (R472, R474) -/

/-- A change of life cycle, of a state in which the request has been worked on, is answered in its session. -/
theorem setLife_answered {v : State} {b : Nat} (hv : Worked s v) (hlocked : Locked s (v.setLife b)) (x : Session) (op : Nat) (q : MgmtReq) :
    let t := (v.setLife b).deliver op q (some x.key) 0 []
    t.uarid.life = (v.uarid.blow b).life ∧ Locked s t ∧ MgmtAnswered s t op q (some x.key) 0 [] := by
  have hd := (v.setLife b).deliver_delivered op q (some x.key) 0 []
  refine ⟨?_, Locked.delivered hlocked hd, (hv.trans (.setLife v b)).answered ho op q (some x.key) 0 []⟩
  rw [hd.life, State.setLife_uarid, Uarid.relived_life]

/-- The state in which SET_OWNER has blown the owner's digest. -/
def State.owned (v : State) (digest : List Byte) : State := v.modUarid fun u => { u with ownerDigest := some digest }

theorem setOwner_answers {q : MgmtReq} {x : Session} (h : InSession s 0x11 q x) : ∃ t, exec (.setOwner q) s = .next t ∧
    let u := s.uarid
    let good := q.path = .mailbox ∧ q.payload.length = 1952
    (u.life ≠ 0 → t.pregs = s.pregs ∧ t.uarid.life = u.life ∧ MgmtAnswered s t 0x11 q (some x.key) 5 []) ∧
      (u.life = 0 → ¬ good → t.pregs = s.pregs ∧ t.uarid.life = 0 ∧ MgmtAnswered s t 0x11 q (some x.key) 1 []) ∧
      (u.life = 0 → good → t.uarid.ownerDigest = some (shake256 q.payload 32) ∧ t.uarid.life = 1 ∧ Locked s t ∧
        t.uarid.aliasFor = u.meas ∧ MgmtAnswered s t 0x11 q (some x.key) 0 []) := by
  have honly (st : Nat) := touched_answered ho x 0x11 q st []
  refine ⟨s.setOwnerOp q, exec_comes (r := (0x11, .setOwner)) (by simp [mgmtRows]) h.toComes, ?_⟩
  rw [State.setOwnerOp, State.inSession_accepted h, State.touched_life]
  refine ⟨fun h0 => ?_, fun h0 hbad => ?_, fun h0 hgood => ?_⟩
  · obtain ⟨hd, hanswer⟩ := honly 5
    rw [if_pos h0]
    exact ⟨hd.pregs, hd.life, hanswer⟩
  · obtain ⟨hd, hanswer⟩ := honly 1
    rw [if_neg (not_not.mpr h0), if_pos (by tauto)]
    exact ⟨hd.pregs, hd.life.trans h0, hanswer⟩
  · rw [if_neg (not_not.mpr h0), if_neg (by tauto)]
    generalize shake256 q.payload 32 = digest
    have howned : Worked s ((s.touched x q).owned digest) := (Worked.touched s x q).trans (.modUarid _ _ rfl)
    have hlocked : Locked s (((s.touched x q).owned digest).setLife 0) :=
      State.setLife_locked (s := (s.touched x q).owned digest) ho.rising_pregs 0
    have hproduction : (((s.touched x q).owned digest).uarid.blow 0).life = 1 :=
      (Uarid.life_blow _ 0).trans (lifeOf_production _ h0)
    have hd := (((s.touched x q).owned digest).setLife 0).deliver_delivered 0x11 q (some x.key) 0 []
    obtain ⟨hlife, hlocked, hanswer⟩ := setLife_answered ho howned hlocked x 0x11 q
    refine ⟨?_, hlife.trans hproduction, hlocked, ?_, hanswer⟩
    · have hkept := hd.keeps Uarid.ownerDigest fun _ _ _ => rfl
      rw [State.setLife_uarid, Uarid.relived_ownerDigest] at hkept
      exact hkept
    · have halias := hd.keeps Uarid.aliasFor fun _ _ _ => rfl
      rw [State.setLife_uarid, Uarid.relived_aliasFor (by rw [hproduction]; decide)] at halias
      exact halias

theorem lifecycle_answers {q : MgmtReq} {x : Session} (h : InSession s 0x12 q x) : ∃ t, exec (.lifecycle q) s = .next t ∧
    let u := s.uarid
    let n := ofBytes q.payload
    (u.life = 3 → t.pregs = s.pregs ∧ t.uarid.life = 3 ∧ MgmtAnswered s t 0x12 q (some x.key) 5 []) ∧
      (u.life ≠ 3 → n = 3 ∨ n = 2 ∧ u.life ≠ 2 → t.uarid.life = n ∧ Locked s t ∧ MgmtAnswered s t 0x12 q (some x.key) 0 []) ∧
      (u.life ≠ 3 → n ≠ 3 → n ≠ 2 ∨ u.life = 2 → t.pregs = s.pregs ∧ t.uarid.life = u.life ∧
        MgmtAnswered s t 0x12 q (some x.key) 1 []) := by
  have honly (st : Nat) := touched_answered ho x 0x12 q st []
  have hwork := Worked.touched s x q
  have hlocked (b : Nat) : Locked s ((s.touched x q).setLife b) := State.setLife_locked (s := s.touched x q) ho.rising_pregs b
  refine ⟨s.lifecycleOp q, exec_comes (r := (0x12, .lifecycle)) (by simp [mgmtRows]) h.toComes, ?_⟩
  rw [State.lifecycleOp, State.inSession_accepted h, State.touched_life]
  refine ⟨fun h3 => ?_, fun h3 hn => ?_, fun h3 hn3 hn2 => ?_⟩
  · obtain ⟨hd, hanswer⟩ := honly 5
    rw [if_pos h3]
    exact ⟨hd.pregs, hd.life.trans h3, hanswer⟩
  · rw [if_neg h3]
    rcases hn with hn | ⟨hn, h2⟩
    · obtain ⟨hlife, hrest⟩ := setLife_answered ho hwork (hlocked 2) x 0x12 q
      rw [if_pos hn]
      exact ⟨(hlife.trans ((Uarid.life_blow _ 2).trans (lifeOf_scrapped _))).trans hn.symm, hrest⟩
    · obtain ⟨hlife, hrest⟩ := setLife_answered ho hwork (hlocked 1) x 0x12 q
      rw [if_neg (by omega), if_pos ⟨hn, h2⟩]
      exact ⟨(hlife.trans ((Uarid.life_blow _ 1).trans (lifeOf_rma _ h3))).trans hn.symm, hrest⟩
  · obtain ⟨hd, hanswer⟩ := honly 1
    rw [if_neg h3, if_neg hn3, if_neg (by tauto)]
    exact ⟨hd.pregs, hd.life, hanswer⟩

/-! #### CLEAR_TAMPER, READ_LOG and NONCE (R469) -/

theorem clearTamper_answers {q : MgmtReq} {x : Session} (h : InSession s 0x13 q x) : ∃ t, exec (.clearTamper q) s = .next t ∧
    let u := s.uarid
    (u.life = 0 ∨ u.life = 3 → t.uarid.tampered = u.tampered ∧ MgmtAnswered s t 0x13 q (some x.key) 5 []) ∧
      (u.life = 1 ∨ u.life = 2 → t.uarid.tampered = false ∧ t.uarid.tamperLogged = false ∧
        MgmtAnswered s t 0x13 q (some x.key) 0 []) := by
  refine ⟨s.clearTamperOp q, exec_comes (r := (0x13, .clearTamper)) (by simp [mgmtRows]) h.toComes, ?_⟩
  rw [State.clearTamperOp, State.inSession_accepted h, State.touched_life]
  refine ⟨fun hlife => ?_, fun hlife => ?_⟩
  · obtain ⟨hd, hanswer⟩ := touched_answered ho x 0x13 q 5 []
    rw [if_pos hlife]
    exact ⟨hd.keeps Uarid.tampered fun _ _ _ => rfl, hanswer⟩
  · rw [if_neg (by omega)]
    generalize hv : (s.touched x q).modUarid (fun u => { u with tampered := false, tamperLogged := false }) = v
    have hwork : Worked s v := by
      rw [← hv]
      exact (Worked.touched s x q).trans (.modUarid _ _ rfl)
    have hd := v.deliver_delivered 0x13 q (some x.key) 0 []
    have hanswer := hwork.answered ho 0x13 q (some x.key) 0 []
    refine ⟨(hd.keeps Uarid.tampered fun _ _ _ => rfl).trans ?_, (hd.keeps Uarid.tamperLogged fun _ _ _ => rfl).trans ?_, hanswer⟩ <;>
      rw [← hv] <;> rfl

omit ho in
theorem freeBytes_uarid (n : Nat) (s : State) : (freeBytes n s).2.uarid = s.uarid := by
  induction n generalizing s with
  | zero => rfl
  | succ n ih => exact ih s.free.2

/-- The bytes of the fault log that READ_LOG gives. -/
def State.logBytes (s : State) : List Byte := (freeBytes 30 s.free.2).1.take (bits s.free.1 0 10 % 961)

omit ho in
theorem State.logBytes_length (s : State) : s.logBytes.length ≤ 960 := by
  have htake : s.logBytes.length ≤ bits s.free.1 0 10 % 961 := List.length_take_le _ _
  omega

theorem readLog_answers {q : MgmtReq} {x : Session} (h : InSession s 0x14 q x) : ∃ t, exec (.readLog q) s = .next t ∧
    t.uarid.faultLog = s.uarid.faultLog ∧ (s.uarid.life = 3 → MgmtAnswered s t 0x14 q (some x.key) 5 []) ∧
      (s.uarid.life ≠ 3 → ∃ l, l.length ≤ 960 ∧ MgmtAnswered s t 0x14 q (some x.key) 0 l) := by
  have hserved : s.readLogOp q = if s.uarid.life = 3 then (s.touched x q).deliver 0x14 q (some x.key) mState []
      else (freeBytes 30 (s.touched x q).free.2).2.deliver 0x14 q (some x.key) mOk (s.touched x q).logBytes := by
    rw [State.readLogOp, State.inSession_accepted h, State.touched_life]
    rfl
  refine ⟨s.readLogOp q, exec_comes (r := (0x14, .readLog)) (by simp [mgmtRows]) h.toComes, ?_⟩
  rw [hserved]
  by_cases h3 : s.uarid.life = 3
  · obtain ⟨hd, hanswer⟩ := touched_answered ho x 0x14 q 5 []
    rw [if_pos h3]
    exact ⟨hd.keeps Uarid.faultLog fun _ _ _ => rfl, fun _ => hanswer, fun hn => absurd h3 hn⟩
  · have hlen := (s.touched x q).logBytes_length
    generalize (s.touched x q).logBytes = l at hlen ⊢
    have hwork : Worked s (freeBytes 30 (s.touched x q).free.2).2 :=
      ((Worked.touched s x q).trans (.free _)).trans (.freeBytes 30 _)
    have huarid : (freeBytes 30 (s.touched x q).free.2).2.uarid = (s.touched x q).uarid := freeBytes_uarid 30 _
    generalize (freeBytes 30 (s.touched x q).free.2).2 = v at hwork huarid ⊢
    have hd := v.deliver_delivered 0x14 q (some x.key) mOk l
    have hlog : v.uarid.faultLog = s.uarid.faultLog := by rw [huarid]; rfl
    rw [if_neg h3]
    exact ⟨(hd.keeps Uarid.faultLog fun _ _ _ => rfl).trans hlog, fun hn => absurd hn h3,
      fun _ => ⟨l, hlen, hwork.answered ho 0x14 q _ 0 l⟩⟩

theorem nonce_answers {q : MgmtReq} (hc : Comes s 0x15 q) : ∃ t, exec (.nonce q) s = .next t ∧
    let u := s.uarid
    let good := q.path = .mailbox ∧ q.session = 0
    (u.life = 0 ∨ u.life = 3 → t.uarid.recoverNonce = u.recoverNonce ∧ MgmtAnswered s t 0x15 q none 5 []) ∧
      (u.life = 1 ∨ u.life = 2 → ¬ good → t.uarid.recoverNonce = u.recoverNonce ∧ MgmtAnswered s t 0x15 q none 1 []) ∧
      (u.life = 1 ∨ u.life = 2 → good → ∃ n, n.length = 32 ∧ t.uarid.recoverNonce = some (n, s.ticks) ∧
        MgmtAnswered s t 0x15 q none 0 n) := by
  have honly (st : Nat) : (s.reply 0x15 q st []).uarid.recoverNonce = s.uarid.recoverNonce ∧
      MgmtAnswered s (s.reply 0x15 q st []) 0x15 q none st [] :=
    ⟨(s.reply_delivered 0x15 q st []).keeps Uarid.recoverNonce fun _ _ _ => rfl, (State.reply_only ho 0x15 q st []).2⟩
  refine ⟨s.nonceOp q, exec_comes (r := (0x15, .nonce)) (by simp [mgmtRows]) hc, fun hlife => ?_, fun hlife hbad => ?_,
    fun hlife hgood => ?_⟩
  · rw [State.nonceOp, if_pos hlife]
    exact honly 5
  · rw [State.nonceOp, if_neg (by omega), if_pos (by tauto)]
    exact honly 1
  · rw [State.nonceOp, if_neg (by omega), if_neg (by tauto)]
    have hwork : Worked s (s.nonce.2.modUarid fun u => { u with recoverNonce := some (s.nonce.1, s.ticks) }) :=
      (Worked.nonce s).trans (.modUarid _ _ rfl)
    have hd := (s.nonce.2.modUarid fun u => { u with recoverNonce := some (s.nonce.1, s.ticks) }).reply_delivered 0x15 q mOk s.nonce.1
    exact ⟨s.nonce.1, s.nonce_length, hd.keeps Uarid.recoverNonce fun _ _ _ => rfl, hwork.answered ho 0x15 q none 0 _⟩

/-! #### RECOVER (R476) -/

/-- What RECOVER asks for (R476): the owner's key, a nonce of the last minute, and the owner's signature. -/
def State.recovers (s : State) (p : List Byte) : Prop :=
  let pub := (p.drop 64).take 1952
  let ctx := ascii "DLM2048-RECOVER"
  s.uarid.ownerDigest = some (shake256 pub 32) ∧
    (∃ n, s.uarid.recoverNonce = some ((p.drop 32).take 32, n) ∧ s.ticks < n + 60000000000) ∧
    Config.mldsaVerify pub (0 :: BitVec.ofNat 8 ctx.length :: ctx ++
      (ctx ++ toBytes 8 s.uarid.serial.toNat ++ (p.drop 32).take 32 ++ p.take 32)) (p.drop 2016) = true

omit ho in
theorem State.recoverOk_iff (s : State) (p : List Byte) : s.recoverOk p = true ↔ s.recovers p := by
  have hnonce : (s.uarid.recoverNonce.elim false fun n => decide (n.1 = (p.drop 32).take 32 ∧ s.ticks < n.2 + 60000000000)) = true ↔
      ∃ n, s.uarid.recoverNonce = some ((p.drop 32).take 32, n) ∧ s.ticks < n + 60000000000 := by
    cases s.uarid.recoverNonce with
    | none => simp
    | some n =>
      obtain ⟨nd, n⟩ := n
      simp
  rw [State.recoverOk, Bool.and_eq_true, Bool.and_eq_true, decide_eq_true_iff, hnonce, and_assoc]
  rfl

theorem recover_answers {q : MgmtReq} (hc : Comes s 0x16 q) : ∃ t, exec (.recover q) s = .next t ∧
    let u := s.uarid
    let good := q.path = .mailbox ∧ q.session = 0
    (u.life = 0 ∨ u.life = 3 → t.pregs = s.pregs ∧ MgmtAnswered s t 0x16 q none 5 []) ∧
      (u.life = 1 ∨ u.life = 2 → ¬ good → t.pregs = s.pregs ∧ MgmtAnswered s t 0x16 q none 1 []) ∧
      (u.life = 1 ∨ u.life = 2 → good → s.recovers q.payload → KeyWritten s t (q.payload.take 32) ∧
        ((s.preg 63).worn = false → t.fails = 0) ∧ MgmtAnswered s t 0x16 q none 0 []) ∧
      (u.life = 1 ∨ u.life = 2 → good → ¬ s.recovers q.payload → (∀ i, i ≠ 63 → t.preg i = s.preg i) ∧ ProofFailed s t ∧
        MgmtAnswered s t 0x16 q none 1 []) := by
  refine ⟨s.recoverOp q, exec_comes (r := (0x16, .recover)) (by simp [mgmtRows]) hc, fun hlife => ?_, fun hlife hbad => ?_,
    fun hlife hgood hok => ?_, fun hlife hgood hok => ?_⟩
  · rw [State.recoverOp, if_pos hlife]
    exact reply_pregs ho 0x16 q 5 []
  · rw [State.recoverOp, if_neg (by omega), if_pos (by tauto)]
    exact reply_pregs ho 0x16 q 1 []
  · rw [State.recoverOp, if_neg (by omega), if_neg (by tauto), if_pos ((s.recoverOk_iff _).mpr hok)]
    obtain ⟨hkey, h63⟩ := State.keySet_keyWritten ho.rising_pregs q (q.payload.take 32)
    have hwork := (Worked.keySet s q (q.payload.take 32)).trans (.setFails _ 0)
    have hpregs : Sparse.rising (s.keySet q (q.payload.take 32)).pregs = true := by
      rw [State.keySet, State.secEvent_pregs, State.writeKey_eq]
      exact State.rising_writePregs ho.rising_pregs ..
    have hd := ((s.keySet q (q.payload.take 32)).setFails 0).reply_delivered 0x16 q 0 []
    refine ⟨KeyWritten.of_preg hkey fun i hi => ?_, fun hw => ?_, hwork.answered ho 0x16 q none 0 []⟩
    · exact (congrFun hd.preg i).trans (State.setFails_preg hpregs 0 hi)
    · exact hd.fails.trans (State.setFails_zero hpregs (by rw [h63]; exact hw))
  · rw [State.recoverOp, if_neg (by omega), if_neg (by tauto), if_neg fun h => hok ((s.recoverOk_iff _).mp h)]
    obtain ⟨⟨hreg, hlocked, hshadow⟩, hother, -⟩ := State.proofFailed_counted ho.maps.regs ho.rising_pregs q
    have hwork := Worked.proofFailed s q
    have hd := (s.proofFailed q).reply_delivered 0x16 q mRefused []
    refine ⟨fun i hi => (congrFun hd.preg i).trans (hother i hi), ⟨?_, ?_, ?_⟩, hwork.answered ho 0x16 q none 1 []⟩
    · exact ((hd.regs (hwork.rising ho.maps.regs)).2 _ (by decide) (by decide)).trans hreg
    · exact (hd.keeps Uarid.lockedUntil fun _ _ _ => rfl).trans hlocked
    · rw [hd.preg]
      exact hshadow

/-! #### Tamper and the wipe (R236, R475) -/

theorem tamper_latches (src : TamperSource) : ∃ t, exec (.tamper src) s = .next t ∧
    let u := s.uarid
    (src = .debug → u.life ≠ 1 → t = s) ∧
      (src ≠ .debug ∨ u.life = 1 → t.uarid.tampered = true ∧ t.uarid.tamperLogged = true ∧ Locked s t ∧
        t.reg Reg.UAR_TAMPERS = s.reg Reg.UAR_TAMPERS + 1 ∧
        t.uarid.wipeAgain = (u.wipeAgain || u.wiping.isSome) ∧ (∀ a, u.wiping = some a → t.uarid.wiping = some a)) := by
  refine ⟨s.tamper src, rfl, fun hdebug hlife => if_pos ⟨hdebug, hlife⟩, fun h => ?_⟩
  refine ⟨?_, ?_, State.tamper_locked ho.rising_pregs h, State.tamper_reg ho.maps.regs h, ?_, fun a ha => ?_⟩ <;>
    rw [State.tamper_uarid h]
  · rfl
  · rfl
  · rfl
  · simp [Uarid.lockedDown, Uarid.tainted, ha]

theorem wipeDone_clears : ∃ t, exec .wipeDone s = .next t ∧
    let u := s.uarid
    (u.wiping = none → t = s) ∧ (∀ a, u.wiping = some a → (s.ticks - a) * 14 < 20480 → t = s) ∧
      ∀ a, u.wiping = some a → 20480 ≤ (s.ticks - a) * 14 → EventPosted s t { s with uarid := { u with
        secure := [], wiping := if u.wipeAgain then some s.ticks else none, wipeAgain := false } } := by
  have hexec : exec .wipeDone s = .next (match s.uarid.wiping with
    | none => s
    | some t => if (s.ticks - t) * 14 < 20480 then s else (s.modUarid fun u =>
        { u with secure := [], wiping := if u.wipeAgain then some s.ticks else none, wipeAgain := false }).secEvent 12 0 0 0 0) := rfl
  rw [hexec]
  cases hw : s.uarid.wiping with
  | none => exact ⟨s, rfl, fun _ => rfl, fun a ha => absurd (hw.symm.trans ha) nofun, fun a ha => absurd (hw.symm.trans ha) nofun⟩
  | some a =>
    dsimp only
    refine ⟨_, rfl, fun hn => absurd (hw.symm.trans hn) nofun, fun b hb hlt => ?_, fun b hb hle => ?_⟩
    · cases hw.symm.trans hb
      rw [if_pos hlt]
    · cases hw.symm.trans hb
      rw [if_neg (by omega)]
      exact State.secEvent_posted (s := s.modUarid _) 12 _ _ _ _ ho.maps.regs ⟨by decide, by decide⟩

end Keys

end Sys2Proof.Machine

open Sys2Proof Sys2Proof.Machine Sys2Proof.Certificates.Slice0

/-- Settles O50: each operation works on the Uarid and its persistent registers, and is then answered on the way it came. -/
theorem keysLifeCycleAndTamper : Obligations.KeysLifeCycleAndTamper := by
  intro s ho
  exact ⟨fun q hc hq => setKey_first ho hc hq, fun q x h hq => setKey_inSession ho h hq, fun q x h => setOwner_answers ho h,
    fun q x h => lifecycle_answers ho h, fun q x h => clearTamper_answers ho h, fun q x h => readLog_answers ho h,
    fun q hc => nonce_answers ho hc, fun q hc => recover_answers ho hc, tamper_latches ho, wipeDone_clears ho⟩

end
